-- ==== Sys2Proof/Word.lean ====
section
/-! DEFINITION. The word types of the N8 and the names its operand fields stand for (spec/03 R52, R53, R56, R59). -/
namespace Sys2Proof

/-- One byte of any space (00 R5). -/
abbrev Byte := BitVec 8
/-- One 16-bit instruction parcel (03 R46). -/
abbrev Parcel := BitVec 16
/-- One 32-bit register or memory word. -/
abbrev Word := BitVec 32
/-- One 64-bit address or register pair. -/
abbrev Dword := BitVec 64
/-- A five-bit register field (03 R52). -/
abbrev Reg := BitVec 5
/-- A four-bit P register field (03 R52). -/
abbrev PReg := BitVec 4
/-- A three-bit T, Z, Q, slot, barrier or count field. -/
abbrev Fld3 := BitVec 3

/-- A table of state by number; a number not listed stands for the table's default entry. -/
abbrev Tab (α : Type) := List (Nat × α)

/-- The crossbar pattern of a V source (02 R39). -/
inductive Pat where
  | straight | rot | xor | bc
  deriving DecidableEq, Repr, Inhabited

/-- An eight-bit source field (02 R39, R40): a V register under a pattern, or an S register. -/
inductive Src where
  | v (r : Reg) (p : Pat)
  | s (r : Reg)
  deriving DecidableEq, Repr, Inhabited

/-- Access size codes 0 to 6 (03 R52). -/
inductive Size where
  | b8 | b16 | b32 | b64 | b128 | s8 | s16
  deriving DecidableEq, Repr, Inhabited

/-- Scope codes 0 to 5 (03 R52, 10 R179). -/
inductive Scope where
  | group | team | cluster | die | module | system
  deriving DecidableEq, Repr, Inhabited

/-- Order codes of MOD and FENCE (03 R56, 11 R222). -/
inductive MOrder where
  | plain | acquire | release | acqRel
  deriving DecidableEq, Repr, Inhabited

/-- The three core kinds (00 R3). -/
inductive Kind where
  | core | cellar | sequencer
  deriving DecidableEq, Repr, Inhabited

/-- Type codes 0 to 13 (03 R52). -/
inductive NumType where
  | f32 | f16 | bf16 | f64 | f8e4 | f8e5 | i32 | n32 | i16 | n16 | i8 | n8 | i64 | n64
  deriving DecidableEq, Repr, Inhabited

/-- Rounding codes 0 to 5 (03 R52, 05 R87). -/
inductive Rnd where
  | dflt | rne | rz | rd | ru | rna
  deriving DecidableEq, Repr, Inhabited

/-- Minors of IADD and ISUB (06 R104). -/
inductive AddForm where
  | i32 | i64 | i16x2 | i8x4 | satI32 | satN32 | satI16x2 | satN8x4
  deriving DecidableEq, Repr, Inhabited

/-- Minors of IMUL (06 R105). -/
inductive MulForm where
  | loI32 | hiI32 | hiN32 | wideI32 | wideN32 | i16x2 | loI64
  deriving DecidableEq, Repr, Inhabited

/-- Element forms of IMIN and IMAX (06 R106). -/
inductive MmForm where
  | i32 | n32 | i16x2
  deriving DecidableEq, Repr, Inhabited

/-- Minors of ICMP (06 R110). -/
inductive IcmpForm where
  | eq | ne | ltI | leI | ltN | leN | tst
  deriving DecidableEq, Repr, Inhabited

/-- Minors 0 to 4 of IMAD (06 R112). -/
inductive ImadForm where
  | loI32 | hiI32 | hiN32 | wideI32 | wideN32
  deriving DecidableEq, Repr, Inhabited

/-- Element forms of FADD, FSUB, FMUL, FMIN, FMAX and FMA (06 R117, R118, R122). -/
inductive FpForm where
  | f32 | f16x2 | bf16x2 | f64
  deriving DecidableEq, Repr, Inhabited

/-- Minors of FCMP (06 R119). -/
inductive FcmpForm where
  | eq | ne | lt | le | gt | ge | un | ord
  deriving DecidableEq, Repr, Inhabited

/-- Minors 6 to 9 of FMA (06 R122). -/
inductive MixForm where
  | f16lo | f16hi | bf16lo | bf16hi
  deriving DecidableEq, Repr, Inhabited

/-- Kinds of SHI (03 Table 3.4). -/
inductive ShKind where
  | shl | shr | sar | rol | ror
  deriving DecidableEq, Repr, Inhabited

/-- Element widths of PACK and UNPK (06 R126). -/
inductive PackForm where
  | h | b | nib
  deriving DecidableEq, Repr, Inhabited

/-- Minors of FSCL (06 R127). -/
inductive FsclForm where
  | q4 | q8 | f8e4 | f8e5
  deriving DecidableEq, Repr, Inhabited

/-- Minors of REDL (06 R131). -/
inductive RedForm where
  | addI32 | addF32 | minI32 | maxI32 | minF32 | maxF32 | and | or
  deriving DecidableEq, Repr, Inhabited

/-- Operations of SCANL (06 R132); each has an inclusive and an exclusive minor. -/
inductive ScanOp where
  | addI32 | addF32 | maxI32 | minI32
  deriving DecidableEq, Repr, Inhabited

/-- Element sizes of TXP (08 R153). -/
inductive TxpSize where
  | e8 | e16 | e32
  deriving DecidableEq, Repr, Inhabited

/-- Modes of ZST (08 R160). -/
inductive ZstMode where
  | raw | bf16 | f16
  deriving DecidableEq, Repr, Inhabited

/-- Element types of LOP.XADD (11 R213). -/
inductive XaddType where
  | f32 | f16 | bf16
  deriving DecidableEq, Repr, Inhabited

/-- The word of a prefixed instruction that holds a failing field (03 Table 3.10 bits 25:24). -/
inductive FieldWord where
  | instr | lit | mod
  deriving DecidableEq, Repr, Inhabited

/-- Why a parcel sequence is no instruction (03 R57, R61, Table 3.10): each is raised by the decoder and turned by
UNASSIGNED_ENCODING into the trap the spec names, so none of them stops the machine. -/
inductive DecodeFault where
  | unassignedMajor
  | unassignedMinor (lo hi : Nat)
  | reservedField (lo hi : Nat) (w : FieldWord)
  | reservedCode (lo hi : Nat) (w : FieldWord)
  | prefixKind (i : Nat)
  | prefixE (i : Nat)
  | prefixRepeated (i : Nat)
  | prefixBeforeC16 (i : Nat)
  | prefixRefused (i : Nat)
  deriving DecidableEq, Repr, Inhabited

/-- The prefix words before an instruction (03 R54): the 22-bit payloads, and whether MOD came first. -/
structure Prefixes where
  lit : Option (BitVec 22) := none
  mod : Option (BitVec 22) := none
  modFirst : Bool := false
  deriving DecidableEq, Repr, Inhabited

/-- A Fraric packet (12 Table 12.1): the header's fields and the payload. -/
structure Packet where
  kind : Nat := 0
  flags : Nat := 0
  src : Nat := 0
  ckey : Nat := 0
  tag : Nat := 0
  op : Nat := 0
  va : Dword := 0
  aux : Dword := 0
  /-- the destination node, which the gateway routes by (12 R245) -/
  dest : Nat := 0
  /-- the port the packet crossed -/
  port : Nat := 0
  /-- reserved header fields all zero (12 R243) -/
  clean : Bool := true
  payload : List Byte := []
  deriving DecidableEq, Repr, Inhabited

/-- What the boot code finds at module reset (19 R362): the flash image, the outcome of training, and the spares loaded: logical cores out of
service, spares in use (die * 8 + spare, 1 + the core's place in its cluster pair), rows spared (stack, channel * 128 + bank, count). -/
structure BootInput where
  image : List Byte := []
  key : List Byte := []
  signature : List Byte := []
  trained : Bool := true
  width : Nat := 16
  rate : Nat := 0
  cores : List Nat := []
  spares : List (Nat × Nat) := []
  rows : List (Nat × Nat × Nat) := []
  deriving DecidableEq, Repr, Inhabited

/-- A unit whose configuration register is held while it is busy (09 R177). -/
inductive CfgUnit where
  | hmaskCh (stack : Nat)
  | hmaskPc (stack : Nat)
  | fbbase (die : Nat)
  deriving DecidableEq, Repr, Inhabited

/-- A link of the module (17 R344): a fabric port, a die pair, or the CXL link. -/
inductive Link where
  | port (p : Nat)
  | ucie (pair : Nat)
  | cxl
  deriving DecidableEq, Repr, Inhabited

/-- A link that has trained again, with the width and the rate to which it has trained (19 R357). -/
structure Retrained where
  link : Link
  width : Nat
  rate : Nat
  deriving DecidableEq, Repr

/-- A write of PWRCAP, by the management path or by the host (19 R364, R365). -/
structure CapWrite where
  mgmt : Bool
  value : Dword
  deriving DecidableEq, Repr

end Sys2Proof
end

