-- ==== Sys2Proof/Config.lean ====
section
/-! DEFINITION. What an N8 implementation or its makers fix and the spec leaves open: opaque constants that nothing in Lean can
evaluate. A statement that holds holds whatever they are. -/
namespace Sys2Proof

/-- The n-th free value (log 2): an outcome the spec leaves open, applied to the counter `State.fresh`. -/
opaque Config.freeValue : Nat → BitVec 64

/-- Clock ticks that pass in the n-th turn when no agenda says so (log 1; 01 R26, R27 leave latencies open). -/
opaque Config.ticks : Nat → Nat

/-- Whether a page homed on another module carries MIG: by context, address and time (15 R300). That module's page table says, which is no state of
this one (log 90). -/
opaque Config.remoteMig : Nat → Nat → Nat → Bool

/-- The modulus of the device key (19 R363; log 5). -/
opaque Config.deviceModulus : Nat

/-- The private exponent of the device key, never readable (19 R363; log 5). -/
opaque Config.deviceExponent : Nat

/-- The security version that a firmware image holds, at a place that the spec leaves open (19 R362; log 6). -/
opaque Config.imageVersion : List Byte → Nat

/-- The device's certificate chain (19 R363; log 5). -/
opaque Config.certificateChain : List Byte

/-- The digest of the maker's public key fused at manufacture (19 R362; log 5). -/
opaque Config.keyDigest : List Byte

/-- The minimum firmware version fused at manufacture (19 R362; log 5). -/
opaque Config.fusedVersion : Nat

/-- The fused boot code (19 R363; log 5). -/
opaque Config.bootCode : List Byte

/-- The bytes measured for the fused minimum version and key digest, whose layout the spec leaves open (19 R363; log 6). -/
opaque Config.fusedImage : Nat → List Byte → List Byte

/-- The bytes measured for the spare cores and rows loaded at boot, whose layout the spec leaves open (19 R363; log 6). -/
opaque Config.spareImage : List Nat → List (Nat × Nat) → List (Nat × Nat × Nat) → List Byte

end Sys2Proof
end

