-- ==== Sys2Proof/Machine/Bits.lean ====
section
/-! DEFINITION. Bit fields, sign extension, byte order and small list helpers. -/
namespace Sys2Proof.Machine

/-- Bits of a number: `fld w p n` is w / p mod n, the field of size n at weight p (03 R52). -/
def fld (w p n : Nat) : Nat := w / p % n

/-- Bit `i` of a number. -/
def bitOf (w i : Nat) : Bool := w / 2 ^ i % 2 == 1

/-- 1 for true and 0 for false. -/
def b2n (b : Bool) : Nat := if b then 1 else 0

/-- Bits hi down to lo of a number. -/
def bitsOf (w hi lo : Nat) : Nat := w / 2 ^ lo % 2 ^ (hi - lo + 1)

/-- A number read as an n-bit two's-complement value. -/
def sextInt (n w : Nat) : Int :=
  let v := w % 2 ^ n
  if v < 2 ^ (n - 1) then v else (v : Int) - 2 ^ n

/-- The n-bit pattern of an integer. -/
def toBits (n : Nat) (x : Int) : Nat := (x % (2 ^ n : Int)).toNat

/-- Little-endian value of bytes (00 R5). -/
def leNat : List Byte → Nat
  | [] => 0
  | b :: bs => b.toNat + 256 * leNat bs

/-- The n low bytes of a number, little-endian (00 R5). -/
def leBytes : Nat → Nat → List Byte
  | 0, _ => []
  | n + 1, v => BitVec.ofNat 8 v :: leBytes n (v / 256)

/-- A list made exactly n long, filled with zeros. -/
def padTo (n : Nat) (l : List Byte) : List Byte := (l ++ List.replicate (n - l.length) 0).take n

/-- n bytes of a list from an offset; bytes beyond the list are 0. -/
def sliceAt (l : List Byte) (off n : Nat) : List Byte := padTo n (l.drop off)

/-- A little-endian field of a record (03 Table 3.9 and every record table). -/
def fieldAt (l : List Byte) (off n : Nat) : Nat := leNat (sliceAt l off n)

/-- A record's bytes with a field replaced. -/
def putAt (l : List Byte) (off : Nat) (bs : List Byte) : List Byte :=
  l.take off ++ bs ++ l.drop (off + bs.length)

/-- The bytes of a record written as consecutive (width, value) fields. -/
def record (fs : List (Nat × Nat)) : List Byte := fs.flatMap fun f => leBytes f.1 f.2

/-- First of the list that satisfies a test. -/
def firstSome {α β : Type} (f : α → Option β) : List α → Option β
  | [] => none
  | a :: l => match f a with | some b => some b | none => firstSome f l

/-- Number of one bits among the n low bits. -/
def popCount : Nat → Nat → Nat
  | 0, _ => 0
  | n + 1, w => w % 2 + popCount n (w / 2)

/-- Number of leading zeros of an n-bit number; n for 0. -/
def leadZeros : Nat → Nat → Nat
  | 0, _ => 0
  | n + 1, w => if bitOf w n then 0 else 1 + leadZeros n w

/-- Number of trailing zeros of an n-bit number; n for 0. -/
def trailZeros : Nat → Nat → Nat
  | 0, _ => 0
  | n + 1, w => if w % 2 = 1 then 0 else 1 + trailZeros n (w / 2)

/-- The n low bits in reverse order. -/
def bitRev : Nat → Nat → Nat
  | 0, _ => 0
  | n + 1, w => w % 2 * 2 ^ n + bitRev n (w / 2)

/-- A 32-bit word of a number. -/
def w32 (n : Nat) : Word := BitVec.ofNat 32 n

/-- The word of an integer, wrapped (05 R82). -/
def wrap32 (x : Int) : Word := BitVec.ofNat 32 (toBits 32 x)

/-- A double word of an integer, wrapped (05 R82). -/
def wrap64 (x : Int) : Dword := BitVec.ofNat 64 (toBits 64 x)

/-- x limited to lo .. hi. -/
def clampInt (lo hi x : Int) : Int := if x < lo then lo else if hi < x then hi else x

/-- Two halves of a register (05 R83). -/
def half (w : Word) (i : Nat) : Nat := w.toNat / 65536 ^ i % 65536

/-- Byte i of a register (05 R83). -/
def byteOf (w : Word) (i : Nat) : Nat := w.toNat / 256 ^ i % 256

/-- Nibble i of a register (05 R83). -/
def nibOf (w : Word) (i : Nat) : Nat := w.toNat / 16 ^ i % 16

/-- A register packed from elements of the given base, element 0 lowest (05 R83). -/
def packNat (base : Nat) : List Nat → Nat
  | [] => 0
  | x :: xs => x % base + base * packNat base xs

/-- The lanes whose bits are set in a mask, ascending. -/
def lanesOf (w mask : Nat) : List Nat := (List.range w).filter (bitOf mask)

/-- The mask of a list of lanes. -/
def maskOf (ls : List Nat) : Nat := ls.foldl (fun m l => m ||| 2 ^ l) 0

/-- The least element of a list. -/
def minOf : List Nat → Option Nat
  | [] => none
  | a :: l => match minOf l with | some b => some (min a b) | none => some a

end Sys2Proof.Machine
end

