-- ==== Sys2Proof/Syntax.lean ====
section
/-! DEFINITION. The instructions of the N8: one constructor for each row of spec/opcode_table.json, its operand fields decoded.
Rows with an encoding carry the fields of their format (03 Table 3.3); `e` is the E bit (03 R48). Rows without one are steps of
the module (95): their operands name the unit, packet or value the step concerns. -/
namespace Sys2Proof

/-- The N8's instructions and steps (spec/opcode_table.json). -/
inductive Instr where
  /-- IADD (R104). -/
  | iadd (m : AddForm) (d : Reg) (a : Src) (b : Src) (e : Bool)
  /-- ISUB (R104). -/
  | isub (m : AddForm) (d : Reg) (a : Src) (b : Src) (e : Bool)
  /-- IMUL (R105). -/
  | imul (m : MulForm) (d : Reg) (a : Src) (b : Src) (e : Bool)
  /-- IMIN (R106). -/
  | imin (m : MmForm) (d : Reg) (a : Src) (b : Src) (e : Bool)
  /-- IMAX (R106). -/
  | imax (m : MmForm) (d : Reg) (a : Src) (b : Src) (e : Bool)
  /-- IABSD (R106). -/
  | iabsd (d : Reg) (a : Src) (b : Src) (e : Bool)
  /-- IABS (R106). -/
  | iabs (d : Reg) (a : Src) (e : Bool)
  /-- AND (R107). -/
  | and (d : Reg) (a : Src) (b : Src) (e : Bool)
  /-- OR (R107). -/
  | or (d : Reg) (a : Src) (b : Src) (e : Bool)
  /-- XOR (R107). -/
  | xor (d : Reg) (a : Src) (b : Src) (e : Bool)
  /-- ANDN (R107). -/
  | andn (d : Reg) (a : Src) (b : Src) (e : Bool)
  /-- ORN (R107). -/
  | orn (d : Reg) (a : Src) (b : Src) (e : Bool)
  /-- XNOR (R107). -/
  | xnor (d : Reg) (a : Src) (b : Src) (e : Bool)
  /-- NOT (R107). -/
  | not (d : Reg) (a : Src) (e : Bool)
  /-- SHL (R108). -/
  | shl (d : Reg) (a : Src) (b : Src) (e : Bool)
  /-- SHR (R108). -/
  | shr (d : Reg) (a : Src) (b : Src) (e : Bool)
  /-- SAR (R108). -/
  | sar (d : Reg) (a : Src) (b : Src) (e : Bool)
  /-- ROL (R108). -/
  | rol (d : Reg) (a : Src) (b : Src) (e : Bool)
  /-- ROR (R108). -/
  | ror (d : Reg) (a : Src) (b : Src) (e : Bool)
  /-- SHL_I64 (R108). -/
  | shlI64 (d : Reg) (a : Src) (b : Src) (e : Bool)
  /-- SHR_I64 (R108). -/
  | shrI64 (d : Reg) (a : Src) (b : Src) (e : Bool)
  /-- SAR_I64 (R108). -/
  | sarI64 (d : Reg) (a : Src) (b : Src) (e : Bool)
  /-- POPC (R109). -/
  | popc (d : Reg) (a : Src) (e : Bool)
  /-- CLZ (R109). -/
  | clz (d : Reg) (a : Src) (e : Bool)
  /-- CTZ (R109). -/
  | ctz (d : Reg) (a : Src) (e : Bool)
  /-- BREV (R109). -/
  | brev (d : Reg) (a : Src) (e : Bool)
  /-- BFX (R109). -/
  | bfx (u : Bool) (d : Reg) (a : Src) (b : Src) (e : Bool)
  /-- BFI (R109). -/
  | bfi (d : Reg) (a : Src) (b : Src) (e : Bool)
  /-- PRMT (R109). -/
  | prmt (d : Reg) (a : Src) (b : Src) (e : Bool)
  /-- ICMP (R110). -/
  | icmp (m : IcmpForm) (d : PReg) (a : Src) (b : Src) (e : Bool)
  /-- SEL (R111). -/
  | sel (k : Fld3) (d : Reg) (a : Src) (b : Src) (e : Bool)
  /-- IMAD (R112). -/
  | imad (m : ImadForm) (d : Reg) (a : Reg) (b : Reg) (c : Reg) (e : Bool)
  /-- IDOT4 (R112). -/
  | idot4 (u : Bool) (d : Reg) (a : Reg) (b : Reg) (c : Reg) (e : Bool)
  /-- IDOT2 (R112). -/
  | idot2 (d : Reg) (a : Reg) (b : Reg) (c : Reg) (e : Bool)
  /-- LEA (R113). -/
  | lea (k : Fld3) (d : Reg) (a : Src) (b : Src) (e : Bool)
  /-- LEA64 (R113). -/
  | lea64 (k : Fld3) (d : Reg) (a : Src) (b : Src) (e : Bool)
  /-- IADDI (R114). -/
  | iaddi (d : Reg) (a : Src) (i : BitVec 11) (e : Bool)
  /-- ANDI (R114). -/
  | andi (d : Reg) (a : Src) (i : BitVec 11) (e : Bool)
  /-- SHI (R108). -/
  | shi (k : ShKind) (d : Reg) (a : Src) (n : Reg) (e : Bool)
  /-- MOVI (R114). -/
  | movi (d : Reg) (i : BitVec 11) (e : Bool)
  /-- FADD (R117). -/
  | fadd (m : FpForm) (d : Reg) (a : Src) (b : Src) (e : Bool)
  /-- FSUB (R117). -/
  | fsub (m : FpForm) (d : Reg) (a : Src) (b : Src) (e : Bool)
  /-- FMUL (R117). -/
  | fmul (m : FpForm) (d : Reg) (a : Src) (b : Src) (e : Bool)
  /-- FMIN (R92). -/
  | fmin (m : FpForm) (d : Reg) (a : Src) (b : Src) (e : Bool)
  /-- FMAX (R92). -/
  | fmax (m : FpForm) (d : Reg) (a : Src) (b : Src) (e : Bool)
  /-- FCMP (R119). -/
  | fcmp (m : FcmpForm) (d : PReg) (a : Src) (b : Src) (e : Bool)
  /-- FABS (R120). -/
  | fabs (d : Reg) (a : Src) (e : Bool)
  /-- FNEG (R120). -/
  | fneg (d : Reg) (a : Src) (e : Bool)
  /-- FCLASS (R120). -/
  | fclass (d : Reg) (a : Src) (e : Bool)
  /-- FRNDN (R120). -/
  | frndn (d : Reg) (a : Src) (e : Bool)
  /-- FRNDZ (R120). -/
  | frndz (d : Reg) (a : Src) (e : Bool)
  /-- FRNDD (R120). -/
  | frndd (d : Reg) (a : Src) (e : Bool)
  /-- FCOPYS (R120). -/
  | fcopys (d : Reg) (a : Src) (b : Src) (e : Bool)
  /-- FSCALE (R120). -/
  | fscale (d : Reg) (a : Src) (b : Src) (e : Bool)
  /-- FRCP (R121). -/
  | frcp (d : Reg) (a : Src) (e : Bool)
  /-- FRSQ (R121). -/
  | frsq (d : Reg) (a : Src) (e : Bool)
  /-- FSQRT (R121). -/
  | fsqrt (d : Reg) (a : Src) (e : Bool)
  /-- FEXP2 (R121). -/
  | fexp2 (d : Reg) (a : Src) (e : Bool)
  /-- FLOG2 (R121). -/
  | flog2 (d : Reg) (a : Src) (e : Bool)
  /-- FSIN (R121). -/
  | fsin (d : Reg) (a : Src) (e : Bool)
  /-- FCOS (R121). -/
  | fcos (d : Reg) (a : Src) (e : Bool)
  /-- FTANH (R121). -/
  | ftanh (d : Reg) (a : Src) (e : Bool)
  /-- HDOT2 (R123). -/
  | hdot2 (bf : Bool) (d : Reg) (a : Reg) (b : Reg) (c : Reg) (e : Bool)
  /-- HDOT4 (R123). -/
  | hdot4 (e5 : Bool) (d : Reg) (a : Reg) (b : Reg) (c : Reg) (e : Bool)
  /-- FMA (R122). -/
  | fma (m : FpForm) (d : Reg) (a : Reg) (b : Reg) (c : Reg) (e : Bool)
  /-- FMS (R122). -/
  | fms (d : Reg) (a : Reg) (b : Reg) (c : Reg) (e : Bool)
  /-- FNMA (R122). -/
  | fnma (d : Reg) (a : Reg) (b : Reg) (c : Reg) (e : Bool)
  /-- FMA_MIXED (R122). -/
  | fmaMixed (m : MixForm) (d : Reg) (a : Reg) (b : Reg) (c : Reg) (e : Bool)
  /-- RDLANE (R116). -/
  | rdlane (d : Reg) (a : Reg) (b : Reg) (e : Bool)
  /-- SMIN (R116). -/
  | smin (u : Bool) (d : Reg) (a : Reg) (b : Reg) (e : Bool)
  /-- SMAX (R116). -/
  | smax (u : Bool) (d : Reg) (a : Reg) (b : Reg) (e : Bool)
  /-- SSEL (R116). -/
  | ssel (d : Reg) (a : Reg) (b : Reg) (e : Bool)
  /-- SPOPC (R116). -/
  | spopc (d : Reg) (a : Reg) (e : Bool)
  /-- SCLZ (R116). -/
  | sclz (d : Reg) (a : Reg) (e : Bool)
  /-- WAIT (R290). -/
  | wait (t : BitVec 6) (c : BitVec 6) (st : BitVec 6) (l : BitVec 6) (e : Bool)
  /-- CVT (R124). -/
  | cvt (r : Rnd) (src : NumType) (dst : NumType) (d : Reg) (a : Src) (e : Bool)
  /-- QNT (R125). -/
  | qnt (n : BitVec 4) (k : Fld3) (z : Reg) (v : Reg) (d : Reg) (e : Bool)
  /-- DQNT (R125). -/
  | dqnt (k : Fld3) (z : Reg) (v : Reg) (d : Reg) (e : Bool)
  /-- PACK (R126). -/
  | pack (m : PackForm) (d : Reg) (a : Src) (b : Src) (e : Bool)
  /-- UNPK (R126). -/
  | unpk (m : PackForm) (d : Reg) (a : Src) (b : Src) (e : Bool)
  /-- FSCL (R127). -/
  | fscl (m : FsclForm) (d : Reg) (a : Src) (b : Src) (e : Bool)
  /-- XCH_ROT (R129). -/
  | xchRot (d : Reg) (a : Reg) (b : Src) (e : Bool)
  /-- XCH_XOR (R129). -/
  | xchXor (d : Reg) (a : Reg) (b : Src) (e : Bool)
  /-- XCH_BCAST (R129). -/
  | xchBcast (d : Reg) (a : Reg) (b : Src) (e : Bool)
  /-- XCH_MIRROR (R129). -/
  | xchMirror (d : Reg) (a : Reg) (e : Bool)
  /-- XCH_IDX (R129). -/
  | xchIdx (d : Reg) (a : Reg) (b : Src) (e : Bool)
  /-- XCH_SHUP (R129). -/
  | xchShup (d : Reg) (a : Reg) (b : Src) (e : Bool)
  /-- XCH_SHDN (R129). -/
  | xchShdn (d : Reg) (a : Reg) (b : Src) (e : Bool)
  /-- VOTE_ANY (R130). -/
  | voteAny (a : PReg) (b : PReg) (e : Bool)
  /-- VOTE_ALL (R130). -/
  | voteAll (a : PReg) (b : PReg) (e : Bool)
  /-- VOTE_BALLOT (R130). -/
  | voteBallot (a : Reg) (b : PReg) (e : Bool)
  /-- VOTE_MATCH (R130). -/
  | voteMatch (a : Reg) (c : Reg) (e : Bool)
  /-- VOTE_POPC (R130). -/
  | votePopc (a : Reg) (b : PReg) (e : Bool)
  /-- REDL (R131). -/
  | redl (m : RedForm) (d : Reg) (a : Src) (e : Bool)
  /-- SCANL (R132). -/
  | scanl (m : ScanOp) (x : Bool) (d : Reg) (a : Src) (e : Bool)
  /-- SETLX (R128). -/
  | setlx (i : BitVec 11) (e : Bool)
  /-- SADD (R115). -/
  | sadd (d : Reg) (a : Reg) (b : Reg) (e : Bool)
  /-- SSUB (R115). -/
  | ssub (d : Reg) (a : Reg) (b : Reg) (e : Bool)
  /-- SMUL (R115). -/
  | smul (d : Reg) (a : Reg) (b : Reg) (e : Bool)
  /-- SAND (R115). -/
  | sand (d : Reg) (a : Reg) (b : Reg) (e : Bool)
  /-- SOR (R115). -/
  | sor (d : Reg) (a : Reg) (b : Reg) (e : Bool)
  /-- SXOR (R115). -/
  | sxor (d : Reg) (a : Reg) (b : Reg) (e : Bool)
  /-- SSHL (R115). -/
  | sshl (d : Reg) (a : Reg) (b : Reg) (e : Bool)
  /-- SSHR (R115). -/
  | sshr (d : Reg) (a : Reg) (b : Reg) (e : Bool)
  /-- SMOVI (R115). -/
  | smovi (d : Reg) (i : BitVec 11) (e : Bool)
  /-- SADDI (R115). -/
  | saddi (d : Reg) (a : Reg) (i : BitVec 11) (e : Bool)
  /-- TLOAD (R152). -/
  | tload (g : Bool) (i : Reg) (p : BitVec 6) (r : Reg) (t : Fld3) (e : Bool)
  /-- TSTORE (R152). -/
  | tstore (g : Bool) (i : Reg) (p : BitVec 6) (r : Reg) (t : Fld3) (e : Bool)
  /-- TMOV_TV (R153). -/
  | tmovTv (b : Fld3) (a : Reg) (e : Bool)
  /-- TMOV_VT (R153). -/
  | tmovVt (b : Fld3) (a : Reg) (e : Bool)
  /-- TXP (R153). -/
  | txp (k : TxpSize) (c : Fld3) (b : Fld3) (e : Bool)
  /-- TCLR (R153). -/
  | tclr (b : Fld3) (e : Bool)
  /-- BCLM (R155). -/
  | bclm (k : Fld3) (a : Reg) (e : Bool)
  /-- BCLMT (R155). -/
  | bclmt (k : Fld3) (a : Reg) (e : Bool)
  /-- BREL (R155). -/
  | brel (k : Fld3) (b : Reg) (e : Bool)
  /-- BFILLT (R155). -/
  | bfillt (rows : Bool) (c : Fld3) (b : Reg) (a : Reg) (e : Bool)
  /-- BSTAT (R155). -/
  | bstat (n : Fld3) (a : Reg) (e : Bool)
  /-- MMA (R158). -/
  | mma (z : Bool) (k : Fld3) (b : BitVec 7) (a : BitVec 7) (zd : Fld3) (e : Bool)
  /-- MMAS (R158). -/
  | mmas (z : Bool) (k : Fld3) (b : BitVec 7) (a : BitVec 7) (zd : Fld3) (e : Bool)
  /-- MMAQ (R158). -/
  | mmaq (z : Bool) (k : Fld3) (b : BitVec 7) (a : BitVec 7) (zd : Fld3) (e : Bool)
  /-- MMAT (R158). -/
  | mmat (k : Fld3) (b : BitVec 7) (a : BitVec 7) (zd : Fld3) (e : Bool)
  /-- ZRD (R160). -/
  | zrd (c : Reg) (b : Fld3) (a : Reg) (e : Bool)
  /-- ZST (R160). -/
  | zst (m : ZstMode) (b : Fld3) (a : Reg) (e : Bool)
  /-- ZCLR (R160). -/
  | zclr (b : Fld3) (e : Bool)
  /-- ZLD (R160). -/
  | zld (b : Fld3) (a : Reg) (e : Bool)
  /-- MSAVE (R161). -/
  | msave (a : Reg) (e : Bool)
  /-- MRES (R161). -/
  | mres (a : Reg) (e : Bool)
  /-- MSTAT (R161). -/
  | mstat (a : Reg) (e : Bool)
  /-- QPSH (R156). -/
  | qpsh (b : Reg) (a : Fld3) (e : Bool)
  /-- QPOP (R156). -/
  | qpop (b : Fld3) (a : Reg) (e : Bool)
  /-- QTRY (R156). -/
  | qtry (c : PReg) (b : Fld3) (a : Reg) (e : Bool)
  /-- QPSHV (R156). -/
  | qpshv (b : Reg) (a : Fld3) (e : Bool)
  /-- QCNT (R156). -/
  | qcnt (b : Fld3) (a : Reg) (e : Bool)
  /-- FSLOT (R157). -/
  | fslot (k : Fld3) (w : BitVec 4) (a : Reg) (e : Bool)
  /-- LDG (R208). -/
  | ldg (z : Size) (i : Reg) (p : BitVec 6) (r : Reg) (t : Reg) (e : Bool)
  /-- STG (R208). -/
  | stg (z : Size) (i : Reg) (p : BitVec 6) (r : Reg) (t : Reg) (e : Bool)
  /-- LDP (R210). -/
  | ldp (z : Size) (q : PReg) (p : BitVec 6) (r : Reg) (t : Reg) (e : Bool)
  /-- LDL (R211). -/
  | ldl (z : Size) (i : BitVec 11) (r : Reg) (t : Reg) (e : Bool)
  /-- STL (R211). -/
  | stl (z : Size) (i : BitVec 11) (r : Reg) (t : Reg) (e : Bool)
  /-- LDO (R212). -/
  | ldo (z : Size) (i : BitVec 11) (r : Reg) (t : Reg) (e : Bool)
  /-- STO (R212). -/
  | sto (z : Size) (i : BitVec 11) (r : Reg) (t : Reg) (e : Bool)
  /-- LOP_ADD_F32 (R214). -/
  | lopAddF32 (c : Reg) (b : Reg) (a : Reg) (e : Bool)
  /-- LOP_ADD_I32 (R214). -/
  | lopAddI32 (c : Reg) (b : Reg) (a : Reg) (e : Bool)
  /-- LOP_MAXABS_F32 (R214). -/
  | lopMaxabsF32 (c : Reg) (b : Reg) (a : Reg) (e : Bool)
  /-- LOP_MIN_F32 (R214). -/
  | lopMinF32 (c : Reg) (b : Reg) (a : Reg) (e : Bool)
  /-- LOP_XCHR (R214). -/
  | lopXchr (c : Reg) (b : Reg) (a : Reg) (e : Bool)
  /-- LOP_XADD (R216). -/
  | lopXadd (k : XaddType) (c : Reg) (b : Reg) (e : Bool)
  /-- LOP_XRD (R216). -/
  | lopXrd (b : Reg) (a : Reg) (e : Bool)
  /-- LOP_FILL (R216). -/
  | lopFill (c : Reg) (b : Reg) (e : Bool)
  /-- ATOM_ADD (R218). -/
  | atomAdd (v : Reg) (p : BitVec 6) (r : Reg) (d : Reg) (e : Bool)
  /-- ATOM_MIN_I (R218). -/
  | atomMinI (v : Reg) (p : BitVec 6) (r : Reg) (d : Reg) (e : Bool)
  /-- ATOM_MAX_I (R218). -/
  | atomMaxI (v : Reg) (p : BitVec 6) (r : Reg) (d : Reg) (e : Bool)
  /-- ATOM_MIN_N (R218). -/
  | atomMinN (v : Reg) (p : BitVec 6) (r : Reg) (d : Reg) (e : Bool)
  /-- ATOM_MAX_N (R218). -/
  | atomMaxN (v : Reg) (p : BitVec 6) (r : Reg) (d : Reg) (e : Bool)
  /-- ATOM_AND (R218). -/
  | atomAnd (v : Reg) (p : BitVec 6) (r : Reg) (d : Reg) (e : Bool)
  /-- ATOM_OR (R218). -/
  | atomOr (v : Reg) (p : BitVec 6) (r : Reg) (d : Reg) (e : Bool)
  /-- ATOM_XOR (R218). -/
  | atomXor (v : Reg) (p : BitVec 6) (r : Reg) (d : Reg) (e : Bool)
  /-- ATOMX_XCHG (R218). -/
  | atomxXchg (v : Reg) (p : BitVec 6) (r : Reg) (d : Reg) (e : Bool)
  /-- ATOMX_CAS (R218). -/
  | atomxCas (v : Reg) (p : BitVec 6) (r : Reg) (d : Reg) (e : Bool)
  /-- ATOMX_FADD_F32 (R218). -/
  | atomxFaddF32 (v : Reg) (p : BitVec 6) (r : Reg) (d : Reg) (e : Bool)
  /-- ATOMX_FMAX_F32 (R218). -/
  | atomxFmaxF32 (v : Reg) (p : BitVec 6) (r : Reg) (d : Reg) (e : Bool)
  /-- ATOMX_FADD_BF16X2 (R218). -/
  | atomxFaddBf16x2 (v : Reg) (p : BitVec 6) (r : Reg) (d : Reg) (e : Bool)
  /-- ATOMX_INCW (R218). -/
  | atomxIncw (v : Reg) (p : BitVec 6) (r : Reg) (d : Reg) (e : Bool)
  /-- ATOMX_DECW (R218). -/
  | atomxDecw (v : Reg) (p : BitVec 6) (r : Reg) (d : Reg) (e : Bool)
  /-- ATOMX_FMAXABS_F32 (R218). -/
  | atomxFmaxabsF32 (v : Reg) (p : BitVec 6) (r : Reg) (d : Reg) (e : Bool)
  /-- FENCE (R222). -/
  | fence (k : Scope) (a : MOrder) (e : Bool)
  /-- WATCH (R223). -/
  | watch (c : Reg) (b : Reg) (a : PReg) (e : Bool)
  /-- UNWATCH (R225). -/
  | unwatch (b : Reg) (e : Bool)
  /-- WAITW (R226). -/
  | waitw (c : Reg) (b : Reg) (a : Reg) (e : Bool)
  /-- DRAINWC (R227). -/
  | drainwc (e : Bool)
  /-- MCST (R228). -/
  | mcst (c : Reg) (b : Reg) (a : Reg) (e : Bool)
  /-- FLUSHR (R230). -/
  | flushr (b : Reg) (a : Reg) (e : Bool)
  /-- INVR (R230). -/
  | invr (b : Reg) (a : Reg) (e : Bool)
  /-- CPY (R233). -/
  | cpy (c : Reg) (b : Reg) (a : Reg) (e : Bool)
  /-- CPYT (R235). -/
  | cpyt (c : Reg) (b : Reg) (a : Reg) (e : Bool)
  /-- CPYM (R237). -/
  | cpym (c : Reg) (b : Reg) (a : Reg) (e : Bool)
  /-- SDRN (R238). -/
  | sdrn (c : Reg) (b : Reg) (a : Reg) (e : Bool)
  /-- SEAL (R239). -/
  | seal (k : Scope) (e : Bool)
  /-- BWAIT (R239). -/
  | bwait (a : Reg) (e : Bool)
  /-- SWINIT (R240). -/
  | swinit (b : Reg) (a : Reg) (e : Bool)
  /-- SWWAIT (R240). -/
  | swwait (b : Reg) (a : Reg) (e : Bool)
  /-- BR (R284). -/
  | br (d : BitVec 18) (e : Bool)
  /-- BR_COND (R284). -/
  | brCond (d : BitVec 18) (sn : Bool) (p : PReg) (e : Bool)
  /-- CALL (R285). -/
  | call (d : BitVec 19) (sl : BitVec 2) (e : Bool)
  /-- NOP (R289). -/
  | nop (e : Bool)
  /-- YIELD (R289). -/
  | yield (e : Bool)
  /-- RET (R285). -/
  | ret (e : Bool)
  /-- JMPR (R286). -/
  | jmpr (a : Reg) (e : Bool)
  /-- SKP (R287). -/
  | skp (n : Fld3) (sn : Bool) (p : PReg) (e : Bool)
  /-- SWIN (R288). -/
  | swin (a : Reg) (e : Bool)
  /-- FORK (R291). -/
  | fork (c : Reg) (b : Reg) (a : PReg) (e : Bool)
  /-- FEND (R292). -/
  | fend (e : Bool)
  /-- BAR (R293). -/
  | bar (n : Fld3) (e : Bool)
  /-- ARRV (R293). -/
  | arrv (n : Fld3) (e : Bool)
  /-- WAITB (R293). -/
  | waitb (n : Fld3) (e : Bool)
  /-- BARG (R294). -/
  | barg (e : Bool)
  /-- LAUNCH (R295). -/
  | launch (o : Bool) (c : Reg) (b : Reg) (a : Reg) (e : Bool)
  /-- NCALL (R296). -/
  | ncall (a : Reg) (e : Bool)
  /-- NWAIT (R297). -/
  | nwait (b : Reg) (a : Reg) (e : Bool)
  /-- NRET (R298). -/
  | nret (e : Bool)
  /-- MBXS (R298). -/
  | mbxs (n : BitVec 2) (b : Reg) (a : Reg) (e : Bool)
  /-- MBXW (R298). -/
  | mbxw (n : BitVec 2) (a : Reg) (e : Bool)
  /-- SKIPZ (R299). -/
  | skipz (c : Reg) (b : Reg) (a : Reg) (e : Bool)
  /-- GO (R305). -/
  | go (b : Reg) (a : PReg) (e : Bool)
  /-- GOHOME (R306). -/
  | gohome (e : Bool)
  /-- REJOIN (R307). -/
  | rejoin (e : Bool)
  /-- TRAP (R355). -/
  | trap (n : BitVec 15) (e : Bool)
  /-- TRET (R356). -/
  | tret (e : Bool)
  /-- EMRET (R356). -/
  | emret (e : Bool)
  /-- SYSR (R351). -/
  | sysr (n : BitVec 10) (a : Reg) (e : Bool)
  /-- SYSR_V (R351). -/
  | sysrV (n : BitVec 10) (a : Reg) (e : Bool)
  /-- SYSW (R352). -/
  | sysw (n : BitVec 10) (a : Reg) (e : Bool)
  /-- LMAP_WRITE (R164). -/
  | lmapWrite (m : BitVec 2) (a : Reg) (e : Bool)
  /-- FPFLAGS_CLEAR (R353). -/
  | fpflagsClear (a : Reg) (e : Bool)
  /-- SETFPM (R354). -/
  | setfpm (a : Reg) (e : Bool)
  /-- SETFPM_IMM (R354). -/
  | setfpmImm (i : Byte) (e : Bool)
  /-- BKPT (R355). -/
  | bkpt (n : BitVec 15) (e : Bool)
  /-- RDCLK (R289). -/
  | rdclk (a : Reg) (e : Bool)
  /-- LIT (R55). -/
  | lit (p : BitVec 22)
  /-- MOD (R56). -/
  | mod (p : BitVec 22)
  /-- IADD_C16 (R51). -/
  | iaddC16 (c : Bool) (r : Reg) (d : Reg)
  /-- ISUB_C16 (R51). -/
  | isubC16 (c : Bool) (r : Reg) (d : Reg)
  /-- IMUL_C16 (R51). -/
  | imulC16 (c : Bool) (r : Reg) (d : Reg)
  /-- AND_C16 (R51). -/
  | andC16 (c : Bool) (r : Reg) (d : Reg)
  /-- OR_C16 (R51). -/
  | orC16 (c : Bool) (r : Reg) (d : Reg)
  /-- XOR_C16 (R51). -/
  | xorC16 (c : Bool) (r : Reg) (d : Reg)
  /-- SHL_C16 (R51). -/
  | shlC16 (c : Bool) (r : Reg) (d : Reg)
  /-- SHR_C16 (R51). -/
  | shrC16 (c : Bool) (r : Reg) (d : Reg)
  /-- MOV_C16 (R51). -/
  | movC16 (c : Bool) (r : Reg) (d : Reg)
  /-- MOVI_C16 (R51). -/
  | moviC16 (i : BitVec 6) (d : Reg)
  /-- IADDI_C16 (R51). -/
  | iaddiC16 (i : BitVec 6) (d : Reg)
  /-- FADD_C16 (R51). -/
  | faddC16 (c : Bool) (r : Reg) (d : Reg)
  /-- FMAX_C16 (R51). -/
  | fmaxC16 (c : Bool) (r : Reg) (d : Reg)
  /-- FMUL_C16 (R51). -/
  | fmulC16 (c : Bool) (r : Reg) (d : Reg)
  /-- LDL_C16 (R51). -/
  | ldlC16 (r : Reg) (d : Reg)
  /-- STL_C16 (R51). -/
  | stlC16 (r : Reg) (d : Reg)
  /-- ISSUE_SLOT_ARBITRATION (R265). -/
  | issueSlotArbitration (core : Nat) (slot : Nat)
  /-- ASYNCHRONOUS_RETURN (R42). -/
  | asynchronousReturn (gid : Nat) (ret : Nat) (lane : Nat)
  /-- STORE_PERFORMED (R181). -/
  | storePerformed (gid : Nat)
  /-- L1_EVICTION (R172). -/
  | l1Eviction (core : Nat) (line : Nat)
  /-- WC_AGE_DRAIN (R196). -/
  | wcAgeDrain (core : Nat) (line : Nat)
  /-- SYNC_WORD_ARRIVAL (R167). -/
  | syncWordArrival (tid : Nat)
  /-- QUEUE_ENTRY_TAKEABLE (R137). -/
  | queueEntryTakeable (tid : Nat) (q : Nat)
  /-- HELD_TRAP_TAKEN (R334). -/
  | heldTrapTaken (gid : Nat)
  /-- FAULT_RECORD_DEFERRED (R337). -/
  | faultRecordDeferred (die : Nat)
  /-- PUSH_APPLY (R191). -/
  | pushApply (i : Nat)
  /-- UNWATCH_COMPLETE (R193). -/
  | unwatchComplete (gid : Nat) (ret : Nat)
  /-- MATRIX_OP_ACCEPT (R133). -/
  | matrixOpAccept (cluster : Nat)
  /-- MATRIX_SUM_UNIT (R146). -/
  | matrixSumUnit (cluster : Nat)
  /-- SEQUENCER_STOP_TRAP (R150). -/
  | sequencerStopTrap (gid : Nat)
  /-- MATRIX_POISON_TRAP (R159). -/
  | matrixPoisonTrap (gid : Nat)
  /-- BIN_ZEROING (R155). -/
  | binZeroing (cluster : Nat)
  /-- COPY_PACKET (R232). -/
  | copyPacket (q : Nat)
  /-- LAUNCH_PACKET (R260). -/
  | launchPacket (q : Nat)
  /-- EVENT_PACKET (R259). -/
  | eventPacket (q : Nat)
  /-- QUEUE_HOLD_RETRY (R258). -/
  | queueHoldRetry (q : Nat)
  /-- COPY_LINE_WRITE (R187). -/
  | copyLineWrite (engine : Nat)
  /-- SHELF_PARK (R237). -/
  | shelfPark (cluster : Nat)
  /-- LAUNCH_DEPENDENCE_MET (R261). -/
  | launchDependenceMet (grid : Nat)
  /-- TEAM_PLACEMENT (R263). -/
  | teamPlacement (core : Nat)
  /-- TEAM_RETIREMENT (R292). -/
  | teamRetirement (tid : Nat)
  /-- END_NOTICE_ARRIVAL (R292). -/
  | endNoticeArrival (crate : Nat)
  /-- SWAP_OUT (R267). -/
  | swapOut (tid : Nat)
  /-- SWAP_IN (R268). -/
  | swapIn (core : Nat)
  /-- PRE_EMPTION (R269). -/
  | preEmption (tid : Nat)
  /-- COPY_CANCEL (R269). -/
  | copyCancel (engine : Nat)
  /-- AGGREGATE_CLOSE (R270). -/
  | aggregateClose (grid : Nat)
  /-- CELLAR_CALL_START (R278). -/
  | cellarCallStart (stack : Nat)
  /-- CELLAR_CALL_COMPLETE (R279). -/
  | cellarCallComplete (call : Nat)
  /-- CRATE_ARRIVAL (R302). -/
  | crateArrival (crate : Nat) (place : Nat)
  /-- RETURN_CRATE_ARRIVAL (R301). -/
  | returnCrateArrival (crate : Nat)
  /-- MIGRATION_REFUSAL (R303). -/
  | migrationRefusal (crate : Nat) (cause : Nat)
  /-- READ (R247). -/
  | read (p : Packet)
  /-- WRITE (R247). -/
  | write (p : Packet)
  /-- ATOMIC (R219). -/
  | atomic (p : Packet)
  /-- REDUCE (R255). -/
  | reduce (p : Packet)
  /-- MCAST (R251). -/
  | mcast (p : Packet)
  /-- SUB (R252). -/
  | sub (p : Packet)
  /-- UNSUB (R253). -/
  | unsub (p : Packet)
  /-- PUSH (R252). -/
  | push (p : Packet)
  /-- PUSHEND (R253). -/
  | pushend (p : Packet)
  /-- CRATE (R254). -/
  | crate (p : Packet)
  /-- RESP (R249). -/
  | resp (p : Packet)
  /-- MACK (R251). -/
  | mack (p : Packet)
  /-- FTMO_TIMEOUT (R249). -/
  | ftmoTimeout (tag : Nat)
  /-- REMOTE_RETRY (R249). -/
  | remoteRetry (tag : Nat)
  /-- PUSH_RESEND (R252). -/
  | pushResend (i : Nat)
  /-- FLIT_RECEIVE (R329). -/
  | flitReceive (port : Nat) (ok : Bool)
  /-- LINK_DOWN (R245). -/
  | linkDown (l : Link)
  /-- KEY_SWITCH (R330). -/
  | keySwitch (port : Nat) (inward : Bool)
  /-- NONCE_EXHAUSTED (R330). -/
  | nonceExhausted (port : Nat) (inward : Bool)
  /-- WALK_MOVING_RECHECK (R315). -/
  | walkMovingRecheck (i : Nat)
  /-- CTXCREATE (R310). -/
  | ctxcreate (q : Nat)
  /-- CTXDESTROY (R327). -/
  | ctxdestroy (q : Nat)
  /-- FREEZE (R324). -/
  | freeze (q : Nat)
  /-- THAW (R327). -/
  | thaw (q : Nat)
  /-- TLBINV (R318). -/
  | tlbinv (q : Nat)
  /-- TLBINV_COMPLETE (R318). -/
  | tlbinvComplete (q : Nat)
  /-- QCREATE (R328). -/
  | qcreate (q : Nat)
  /-- QDESTROY (R328). -/
  | qdestroy (q : Nat)
  /-- HWRITE (R320). -/
  | hwrite (q : Nat)
  /-- LOFTWIN (R168). -/
  | loftwin (q : Nat)
  /-- KEYSET (R330). -/
  | keyset (q : Nat)
  /-- WAYCONV (R174). -/
  | wayconv (q : Nat)
  /-- WAYCONV_APPLY (R174). -/
  | wayconvApply (stack : Nat)
  /-- PREEMPT (R269). -/
  | preempt (q : Nat)
  /-- CABORT (R279). -/
  | cabort (q : Nat)
  /-- REPLAY (R339). -/
  | replay (q : Nat)
  /-- SCRUB (R347). -/
  | scrub (q : Nat)
  /-- RESYNC (R348). -/
  | resync (q : Nat)
  /-- ROUTESET (R246). -/
  | routeset (q : Nat)
  /-- ROUTESET_COMPLETE (R246). -/
  | routesetComplete (q : Nat)
  /-- CORE_RETIREMENT (R346). -/
  | coreRetirement (core : Nat)
  /-- MATRIX_RESOURCE_RETIREMENT (R346). -/
  | matrixResourceRetirement (cluster : Nat)
  /-- CELLAR_CORE_RETIREMENT (R346). -/
  | cellarCoreRetirement (cellar : Nat)
  /-- ROW_SPARING (R345). -/
  | rowSparing (stack : Nat) (channel : Nat) (bank : Nat)
  /-- MODULE_RESET (R362). -/
  | moduleReset (b : BootInput)
  /-- CXL_MEM_READ (R358). -/
  | cxlMemRead (hpa : Nat) (n : Nat)
  /-- CXL_MEM_WRITE (R358). -/
  | cxlMemWrite (hpa : Nat) (data : List Byte)
  /-- NODEID_WRITE (R360). -/
  | nodeidWrite (v : Dword)
  /-- Q0RING_WRITE (R360). -/
  | q0ringWrite (v : Dword)
  /-- Q0CTL_WRITE (R360). -/
  | q0ctlWrite (v : Dword)
  /-- WCAGE_WRITE (R197). -/
  | wcageWrite (v : Dword)
  /-- FTMO_WRITE (R249). -/
  | ftmoWrite (v : Dword)
  /-- FBBASE_WRITE (R177). -/
  | fbbaseWrite (die : Nat) (v : Dword)
  /-- FBSTAT_WRITE (R335). -/
  | fbstatWrite (die : Nat) (v : Dword)
  /-- PWRCAP_WRITE (R364). -/
  | pwrcapWrite (w : CapWrite)
  /-- HMASK_CH_WRITE (R175). -/
  | hmaskChWrite (stack : Nat) (v : Dword)
  /-- HMASK_PC_WRITE (R175). -/
  | hmaskPcWrite (stack : Nat) (v : Dword)
  /-- CONFIG_PENDING_APPLY (R177). -/
  | configPendingApply (u : CfgUnit)
  /-- HSTAT_READ (R360). -/
  | hstatRead
  /-- REGISTER_WRITE (R359). -/
  | registerWrite (off : Nat) (v : Dword)
  /-- MSI_X_MESSAGE (R361). -/
  | msiXMessage (vec : Nat)
  /-- GET_VERSION (R363). -/
  | getVersion
  /-- GET_CAPABILITIES (R363). -/
  | getCapabilities
  /-- NEGOTIATE_ALGORITHMS (R363). -/
  | negotiateAlgorithms (offer : List Byte)
  /-- GET_DIGESTS (R363). -/
  | getDigests
  /-- GET_CERTIFICATE (R363). -/
  | getCertificate (off : Nat) (len : Nat)
  /-- CHALLENGE (R363). -/
  | challenge (nonce : List Byte)
  /-- GET_MEASUREMENTS (R363). -/
  | getMeasurements (idx : Nat) (nonce : List Byte)
  /-- PLDM_MONITOR (R365). -/
  | pldmMonitor
  /-- POWER_STEP_DOWN (R364). -/
  | powerStepDown
  /-- POWER_STEP_UP (R364). -/
  | powerStepUp
  /-- THERMAL_STOP (R364). -/
  | thermalStop
  /-- THERMAL_RESUME (R364). -/
  | thermalResume
  /-- UNASSIGNED_ENCODING (R61). -/
  | unassignedEncoding (f : DecodeFault)
  /-- RESERVED_PACKET_KIND (R259). -/
  | reservedPacketKind (q : Nat)
  /-- RESERVED_FRARIC_KIND (R243). -/
  | reservedFraricKind (p : Packet)
  /-- LINK_RETRAINED (R344). -/
  | linkRetrained (r : Retrained)
  /-- LINK_LANE_SPARED (R344). -/
  | linkLaneSpared (l : Link)
  /-- FUSED_MINIMUM_RAISE (R362). -/
  | fusedMinimumRaise (v : Nat)
  deriving DecidableEq, Repr

end Sys2Proof
end

