-- ==== Sys2Proof/Machine/Enum.lean ====
section
/-! DEFINITION. Codes of the operand enumerations (03 R52, R56, Table 3.6) and which values an instruction may hold. -/
namespace Sys2Proof.Machine

/-- The 8-bit source field (02 R39). -/
def srcOf (n : Nat) : Src :=
  if n / 128 % 2 = 1 then .s (BitVec.ofNat 5 n)
  else .v (BitVec.ofNat 5 n) (match n / 32 % 4 with | 0 => .straight | 1 => .rot | 2 => .xor | _ => .bc)

/-- Pattern codes (02 R39). -/
def patCode : Pat → Nat | .straight => 0 | .rot => 1 | .xor => 2 | .bc => 3

/-- The code of a source field (02 R39). -/
def srcCode : Src → Nat
  | .v r p => r.toNat + 32 * patCode p
  | .s r => r.toNat + 128

/-- A two-bit pattern (02 R39, 03 R56). -/
def patOf (n : Nat) : Pat := match n % 4 with | 0 => .straight | 1 => .rot | 2 => .xor | _ => .bc

/-- Size codes (03 R52). -/
def sizeOf' (n : Nat) : Size :=
  match n with | 0 => .b8 | 1 => .b16 | 2 => .b32 | 3 => .b64 | 4 => .b128 | 5 => .s8 | _ => .s16
/-- Size codes (03 R52). -/
def sizeCode : Size → Nat | .b8 => 0 | .b16 => 1 | .b32 => 2 | .b64 => 3 | .b128 => 4 | .s8 => 5 | .s16 => 6
/-- Access size in bytes (03 R53). -/
def sizeBytes : Size → Nat | .b8 => 1 | .b16 => 2 | .b32 => 4 | .b64 => 8 | .b128 => 16 | .s8 => 1 | .s16 => 2
/-- Registers an access of the size names (11 R208). -/
def sizeRegs : Size → Nat | .b64 => 2 | .b128 => 4 | .b8 => 1 | .b16 => 1 | .b32 => 1 | .s8 => 1 | .s16 => 1

/-- Scope codes (03 R52). -/
def scopeOf (n : Nat) : Scope :=
  match n with | 0 => .group | 1 => .team | 2 => .cluster | 3 => .die | 4 => .module | _ => .system
/-- Scope codes (03 R52). -/
def scopeCode : Scope → Nat | .group => 0 | .team => 1 | .cluster => 2 | .die => 3 | .module => 4 | .system => 5

/-- Order codes (03 R56). -/
def orderOf (n : Nat) : MOrder := match n with | 0 => .plain | 1 => .acquire | 2 => .release | _ => .acqRel
/-- Order codes (03 R56). -/
def orderCode : MOrder → Nat | .plain => 0 | .acquire => 1 | .release => 2 | .acqRel => 3

/-- Type codes (03 R52). -/
def typeOf (n : Nat) : NumType :=
  match n with
  | 0 => .f32 | 1 => .f16 | 2 => .bf16 | 3 => .f64 | 4 => .f8e4 | 5 => .f8e5 | 6 => .i32 | 7 => .n32
  | 8 => .i16 | 9 => .n16 | 10 => .i8 | 11 => .n8 | 12 => .i64 | _ => .n64
/-- Type codes (03 R52). -/
def typeCode : NumType → Nat
  | .f32 => 0 | .f16 => 1 | .bf16 => 2 | .f64 => 3 | .f8e4 => 4 | .f8e5 => 5 | .i32 => 6 | .n32 => 7
  | .i16 => 8 | .n16 => 9 | .i8 => 10 | .n8 => 11 | .i64 => 12 | .n64 => 13
/-- A floating-point type (03 R52). -/
def isFloat (t : NumType) : Bool := typeCode t < 6

/-- Rounding codes (03 R52). -/
def rndOf (n : Nat) : Rnd :=
  match n with | 0 => .dflt | 1 => .rne | 2 => .rz | 3 => .rd | 4 => .ru | _ => .rna
/-- Rounding codes (03 R52). -/
def rndCode : Rnd → Nat | .dflt => 0 | .rne => 1 | .rz => 2 | .rd => 3 | .ru => 4 | .rna => 5

/-- Minors of IADD and ISUB (06 R104). -/
def addOf (n : Nat) : AddForm :=
  match n with
  | 0 => .i32 | 1 => .i64 | 2 => .i16x2 | 3 => .i8x4 | 4 => .satI32 | 5 => .satN32 | 6 => .satI16x2 | _ => .satN8x4
/-- Minors of IADD and ISUB (06 R104). -/
def addCode : AddForm → Nat
  | .i32 => 0 | .i64 => 1 | .i16x2 => 2 | .i8x4 => 3 | .satI32 => 4 | .satN32 => 5 | .satI16x2 => 6 | .satN8x4 => 7

/-- Minors of IMUL (06 R105). -/
def mulOf (n : Nat) : MulForm :=
  match n with
  | 0 => .loI32 | 1 => .hiI32 | 2 => .hiN32 | 3 => .wideI32 | 4 => .wideN32 | 5 => .i16x2 | _ => .loI64
/-- Minors of IMUL (06 R105). -/
def mulCode : MulForm → Nat
  | .loI32 => 0 | .hiI32 => 1 | .hiN32 => 2 | .wideI32 => 3 | .wideN32 => 4 | .i16x2 => 5 | .loI64 => 6

/-- Element form of an IMINMAX minor, minor / 2 (03 Table 3.6). -/
def mmOf (n : Nat) : MmForm := match n with | 0 => .i32 | 1 => .n32 | _ => .i16x2
/-- Element form of an IMINMAX minor (03 Table 3.6). -/
def mmCode : MmForm → Nat | .i32 => 0 | .n32 => 1 | .i16x2 => 2

/-- Minors of ICMP (06 R110). -/
def icmpOf (n : Nat) : IcmpForm :=
  match n with | 0 => .eq | 1 => .ne | 2 => .ltI | 3 => .leI | 4 => .ltN | 5 => .leN | _ => .tst
/-- Minors of ICMP (06 R110). -/
def icmpCode : IcmpForm → Nat | .eq => 0 | .ne => 1 | .ltI => 2 | .leI => 3 | .ltN => 4 | .leN => 5 | .tst => 6

/-- Minors of IMAD (06 R112). -/
def imadOf (n : Nat) : ImadForm :=
  match n with | 0 => .loI32 | 1 => .hiI32 | 2 => .hiN32 | 3 => .wideI32 | _ => .wideN32
/-- Minors of IMAD (06 R112). -/
def imadCode : ImadForm → Nat | .loI32 => 0 | .hiI32 => 1 | .hiN32 => 2 | .wideI32 => 3 | .wideN32 => 4

/-- Element forms of FADD and its like (06 R117). -/
def fpOf (n : Nat) : FpForm := match n with | 0 => .f32 | 1 => .f16x2 | 2 => .bf16x2 | _ => .f64
/-- Element forms of FADD and its like (06 R117). -/
def fpCode : FpForm → Nat | .f32 => 0 | .f16x2 => 1 | .bf16x2 => 2 | .f64 => 3

/-- Minors of FCMP (06 R119). -/
def fcmpOf (n : Nat) : FcmpForm :=
  match n with | 0 => .eq | 1 => .ne | 2 => .lt | 3 => .le | 4 => .gt | 5 => .ge | 6 => .un | _ => .ord
/-- Minors of FCMP (06 R119). -/
def fcmpCode : FcmpForm → Nat
  | .eq => 0 | .ne => 1 | .lt => 2 | .le => 3 | .gt => 4 | .ge => 5 | .un => 6 | .ord => 7

/-- Minors 6 to 9 of FMA less 6 (06 R122). -/
def mixOf (n : Nat) : MixForm := match n with | 0 => .f16lo | 1 => .f16hi | 2 => .bf16lo | _ => .bf16hi
/-- Minors 6 to 9 of FMA less 6 (06 R122). -/
def mixCode : MixForm → Nat | .f16lo => 0 | .f16hi => 1 | .bf16lo => 2 | .bf16hi => 3

/-- Kinds of SHI (03 Table 3.4). -/
def shOf (n : Nat) : ShKind := match n with | 0 => .shl | 1 => .shr | 2 => .sar | 3 => .rol | _ => .ror
/-- Kinds of SHI (03 Table 3.4). -/
def shCode : ShKind → Nat | .shl => 0 | .shr => 1 | .sar => 2 | .rol => 3 | .ror => 4

/-- Element widths of PACK and UNPK (06 R126). -/
def packOf (n : Nat) : PackForm := match n with | 0 => .h | 1 => .b | _ => .nib
/-- Element widths of PACK and UNPK (06 R126). -/
def packCode : PackForm → Nat | .h => 0 | .b => 1 | .nib => 2

/-- Minors of FSCL (06 R127). -/
def fsclOf (n : Nat) : FsclForm := match n with | 0 => .q4 | 1 => .q8 | 2 => .f8e4 | _ => .f8e5
/-- Minors of FSCL (06 R127). -/
def fsclCode : FsclForm → Nat | .q4 => 0 | .q8 => 1 | .f8e4 => 2 | .f8e5 => 3

/-- Minors of REDL (06 R131). -/
def redOf (n : Nat) : RedForm :=
  match n with
  | 0 => .addI32 | 1 => .addF32 | 2 => .minI32 | 3 => .maxI32 | 4 => .minF32 | 5 => .maxF32 | 6 => .and | _ => .or
/-- Minors of REDL (06 R131). -/
def redCode : RedForm → Nat
  | .addI32 => 0 | .addF32 => 1 | .minI32 => 2 | .maxI32 => 3 | .minF32 => 4 | .maxF32 => 5 | .and => 6 | .or => 7

/-- Operations of SCANL, minor / 2 (06 R132). -/
def scanOf (n : Nat) : ScanOp := match n with | 0 => .addI32 | 1 => .addF32 | 2 => .maxI32 | _ => .minI32
/-- Operations of SCANL, minor / 2 (06 R132). -/
def scanCode : ScanOp → Nat | .addI32 => 0 | .addF32 => 1 | .maxI32 => 2 | .minI32 => 3

/-- Element sizes of TXP (08 R153). -/
def txpOf (n : Nat) : TxpSize := match n with | 0 => .e8 | 1 => .e16 | _ => .e32
/-- Element sizes of TXP (08 R153). -/
def txpCode : TxpSize → Nat | .e8 => 0 | .e16 => 1 | .e32 => 2

/-- Modes of ZST (08 R160). -/
def zstOf (n : Nat) : ZstMode := match n with | 0 => .raw | 1 => .bf16 | _ => .f16
/-- Modes of ZST (08 R160). -/
def zstCode : ZstMode → Nat | .raw => 0 | .bf16 => 1 | .f16 => 2

/-- Element types of LOP.XADD (11 R213). -/
def xaddOf (n : Nat) : XaddType := match n with | 0 => .f32 | 1 => .f16 | _ => .bf16
/-- Element types of LOP.XADD (11 R213). -/
def xaddCode : XaddType → Nat | .f32 => 0 | .f16 => 1 | .bf16 => 2

/-- A store's size code may not be 5 or 6 (03 R52). -/
def storeSize (z : Size) : Bool := sizeCode z < 5

/-- CVT's legal pairs and rounding codes (06 R124). -/
def cvtLegal (r : Rnd) (src dst : NumType) : Bool :=
  src != dst && (r == .dflt || isFloat src || isFloat dst)

/-- Core kind codes of the trap record (03 Table 3.9). -/
def kindCode : Kind → Nat | .core => 0 | .cellar => 1 | .sequencer => 2

/-- How a system register may be used by a program (18 Table 18.1). -/
structure SysRegInfo where
  fibre : Bool
  writable : Bool
  core : Bool
  cellar : Bool
  seq : Bool
  deriving DecidableEq, Repr, Inhabited

/-- Table 18.1: the assigned system registers. -/
def sysRegInfo (n : Nat) : Option SysRegInfo :=
  if n ≤ 0x002 then some ⟨false, true, true, true, false⟩
  else if n = 0x003 ∨ n = 0x004 then some ⟨true, false, true, true, false⟩
  else if n = 0x005 then some ⟨true, false, true, false, false⟩
  else if 0x010 ≤ n ∧ n ≤ 0x014 then some ⟨false, false, true, false, false⟩
  else if n = 0x015 then some ⟨false, false, true, true, false⟩
  else if 0x018 ≤ n ∧ n ≤ 0x01B then some ⟨false, false, true, false, false⟩
  else if n = 0x020 ∨ n = 0x022 ∨ n = 0x023 then some ⟨false, false, true, true, true⟩
  else if n = 0x021 then some ⟨false, false, true, false, true⟩
  else if 0x024 ≤ n ∧ n ≤ 0x027 then some ⟨false, false, true, false, false⟩
  else if 0x030 ≤ n ∧ n ≤ 0x037 then some ⟨false, true, true, false, false⟩
  else if n = 0x040 ∨ n = 0x041 then some ⟨false, false, true, false, false⟩
  else if 0x080 ≤ n ∧ n ≤ 0x083 then some ⟨false, true, false, false, true⟩
  else if 0x084 ≤ n ∧ n ≤ 0x08D then some ⟨false, false, false, false, true⟩
  else none

/-- The kind may name the register (18 R351). -/
def SysRegInfo.runs (i : SysRegInfo) : Kind → Bool
  | .core => i.core | .cellar => i.cellar | .sequencer => i.seq

/-- A number SYSR may name in the S form (18 R351). -/
def sysrS (n : Nat) : Bool := match sysRegInfo n with | some i => !i.fibre | none => false
/-- A number SYSR.V may name (18 R351). -/
def sysrVOk (n : Nat) : Bool := (sysRegInfo n).isSome
/-- A number SYSW may name (18 R352). -/
def syswOk (n : Nat) : Bool := match sysRegInfo n with | some i => i.writable | none => false
/-- The SYSW numbers that have a row of their own: LMAPm.A (09 R164) and FPFLAGS (18 R353). -/
def syswOwn (n : Nat) : Bool := n == 2 || n == 0x30 || n == 0x32 || n == 0x34 || n == 0x36

end Sys2Proof.Machine
end

