-- ==== Sys2Proof/Decode.lean ====
section
/-! DEFINITION. The decoder and the encoder (03 R46 to R62). A word is a number, bit 0 its least significant bit; a C16 parcel is a
number below 2^16. Prefix words are given as `Prefixes`. -/
namespace Sys2Proof.Machine

/-- Which prefixes an instruction accepts (03 R55, Table 3.5). -/
inductive Accepts where
  | nothing | lit | litAcquire | litRelease | litAny | modAny | modRelease | patterns
  deriving DecidableEq, Repr

/-- LIT acceptance (03 R55). -/
def Accepts.takesLit : Accepts → Bool
  | .lit | .litAcquire | .litRelease | .litAny => true
  | .nothing | .modAny | .modRelease | .patterns => false

/-- MOD acceptance (03 Table 3.5). -/
def Accepts.takesMod : Accepts → Bool
  | .nothing | .lit => false
  | .litAcquire | .litRelease | .litAny | .modAny | .modRelease | .patterns => true

/-- What the decoder knows of a word before the field checks of 03 R62 step 5: the checks on the instruction word and on LIT,
lowest field first, and the instruction. -/
structure Row where
  acc : Accepts := .nothing
  checks : List (Option DecodeFault)
  litChecks : List (Option DecodeFault) := []
  wideBad : Bool := false
  ins : Instr

/-- The first failing check (03 R65). -/
def firstFail : List (Option DecodeFault) → Option DecodeFault
  | [] => none
  | some f :: _ => some f
  | none :: l => firstFail l

/-- A reserved field of the instruction word must be zero (03 R61). -/
def rz (w hi lo : Nat) : Option DecodeFault :=
  if bitsOf w hi lo = 0 then none else some (.reservedField lo hi .instr)

/-- A code value must satisfy a condition (03 R61). -/
def code (ok : Bool) (hi lo : Nat) : Option DecodeFault :=
  if ok then none else some (.reservedCode lo hi .instr)

/-- A source field: an S source carries pattern 0b00 (02 R40). -/
def srcChk (w lo : Nat) : Option DecodeFault :=
  if bitsOf w (lo + 7) (lo + 7) = 1 ∧ bitsOf w (lo + 6) (lo + 5) ≠ 0 then some (.reservedCode (lo + 5) (lo + 6) .instr)
  else none

/-- A source field that must be class S with pattern 0b00 (03 R59, 06 R116). -/
def sOnly (w lo : Nat) : List (Option DecodeFault) :=
  [srcChk w lo, code (bitsOf w (lo + 7) (lo + 7) == 1) (lo + 7) (lo + 7)]

/-- A source field that must be class V with pattern 0b00 (06 R116, R129). -/
def vOnly (w lo : Nat) : List (Option DecodeFault) :=
  [code (bitsOf w (lo + 6) (lo + 5) == 0) (lo + 6) (lo + 5), code (bitsOf w (lo + 7) (lo + 7) == 0) (lo + 7) (lo + 7)]

/-- A MOD field that the family does not use must be zero (03 R56). -/
def mz (m hi lo : Nat) : Option DecodeFault :=
  if bitsOf m hi lo = 0 then none else some (.reservedField (lo + 10) (hi + 10) .mod)

/-- MOD's scope and order where Table 3.5 lets the family use them: scope codes, a scope without an order, and the orders allowed. -/
def modSO (m : Nat) (okOrder : Nat → Bool) : List (Option DecodeFault) :=
  [ if 6 ≤ bitsOf m 2 0 ∨ (bitsOf m 2 0 ≠ 0 ∧ bitsOf m 4 3 = 0) then some (.reservedCode 10 12 .mod) else none,
    if okOrder (bitsOf m 4 3) then none else some (.reservedCode 13 14 .mod) ]

/-- The field checks on a MOD payload, lowest field first (03 R56, Table 3.5). -/
def modChecks (a : Accepts) (wideBad : Bool) (m : Nat) : List (Option DecodeFault) :=
  (match a with
    | .patterns => [mz m 2 0, mz m 4 3]
    | .litAny | .modAny => modSO m (fun _ => true)
    | .litRelease | .modRelease => modSO m (fun o => o == 0 || o == 2)
    | .nothing | .lit | .litAcquire => modSO m (fun o => o == 0 || o == 1)) ++
  [ if a = .litAny then (if wideBad ∧ bitsOf m 5 5 = 1 then some (.reservedCode 15 15 .mod) else none) else mz m 5 5,
    if a = .litAny ∨ a = .modAny then none else mz m 6 6 ] ++
  (if a = .patterns then [] else [mz m 8 7, mz m 10 9, mz m 12 11]) ++ [mz m 21 13]

/-- The first prefix that the instruction does not accept (03 R57, R65 cause 5). -/
def prefixRefusal (p : Prefixes) (a : Accepts) : Option DecodeFault :=
  let badLit := p.lit.isSome && !a.takesLit
  let badMod := p.mod.isSome && !a.takesMod
  let litAt := if p.modFirst && p.mod.isSome then 1 else 0
  let modAt := if p.lit.isSome && !p.modFirst then 1 else 0
  match badLit, badMod with
  | false, false => none
  | true, false => some (.prefixRefused litAt)
  | false, true => some (.prefixRefused modAt)
  | true, true => some (.prefixRefused 0)

/-- Steps 4 and 5 of 03 R62 for a row: prefix acceptance, then the fields of the instruction word, LIT and MOD. -/
def Row.finish (p : Prefixes) (r : Row) : Except DecodeFault Instr :=
  match prefixRefusal p r.acc with
  | some f => .error f
  | none =>
    match firstFail (r.checks ++ (if p.lit.isSome then r.litChecks else []) ++
        (match p.mod with | some m => modChecks r.acc r.wideBad m.toNat | none => [])) with
    | some f => .error f
    | none => .ok r.ins

/-- Five-bit field at a bit position. -/
def rAt (w lo : Nat) : Reg := BitVec.ofNat 5 (bitsOf w (lo + 4) lo)
/-- P field at a bit position. -/
def pAt (w lo : Nat) : PReg := BitVec.ofNat 4 (bitsOf w (lo + 3) lo)
/-- Three-bit field at a bit position. -/
def f3At (w lo : Nat) : Fld3 := BitVec.ofNat 3 (bitsOf w (lo + 2) lo)
/-- The E bit (03 R48). -/
def eOf (w : Nat) : Bool := bitsOf w 1 1 == 1
/-- Source field s1 of G3, RI and CV. -/
def s1Of (w : Nat) : Src := srcOf (bitsOf w 20 13)
/-- Source field s2 of G3. -/
def s2Of (w : Nat) : Src := srcOf (bitsOf w 28 21)
/-- imm11 of RI. -/
def imm11 (w : Nat) : BitVec 11 := BitVec.ofNat 11 (bitsOf w 31 21)
/-- A reserved code or unassigned minor of G3 (03 R59). -/
def badMinor3 : Except DecodeFault Row := .error (.unassignedMinor 29 31)
/-- An unassigned minor of G4 or MX (03 R59). -/
def badMinor4 : Except DecodeFault Row := .error (.unassignedMinor 28 31)
/-- An unassigned sub-op of X (03 R60). -/
def badSub : Except DecodeFault Row := .error (.unassignedMinor 26 31)
/-- A G3 row with two crossbar sources. -/
def g3 (w : Nat) (i : Instr) : Except DecodeFault Row := .ok { checks := [srcChk w 13, srcChk w 21], ins := i }
/-- A G3 row whose s2 is reserved. -/
def g3one (w : Nat) (i : Instr) : Except DecodeFault Row := .ok { checks := [srcChk w 13, rz w 28 21], ins := i }
/-- A G4 row; it accepts MOD patterns when `a` says so. -/
def g4 (i : Instr) : Except DecodeFault Row := .ok { acc := .patterns, checks := [], ins := i }
/-- An X row with the checks on its fields. -/
def xRow (c : List (Option DecodeFault)) (i : Instr) : Except DecodeFault Row := .ok { checks := c, ins := i }

/-- Majors 0x00 to 0x0F (03 Table 3.6): integer and bit instructions. -/
def rowInt (maj w : Nat) : Except DecodeFault Row :=
  let d := rAt w 8
  let a := s1Of w
  let b := s2Of w
  let e := eOf w
  let m := bitsOf w 31 29
  let m4 := bitsOf w 31 28
  match maj with
  | 0x00 => g3 w (.iadd (addOf m) d a b e)
  | 0x01 => g3 w (.isub (addOf m) d a b e)
  | 0x02 => if m = 7 then badMinor3 else g3 w (.imul (mulOf m) d a b e)
  | 0x03 =>
    if m = 7 then g3one w (.iabs d a e) else if m = 6 then g3 w (.iabsd d a b e)
    else if m % 2 = 0 then g3 w (.imin (mmOf (m / 2)) d a b e) else g3 w (.imax (mmOf (m / 2)) d a b e)
  | 0x04 =>
    match m with
    | 0 => g3 w (.and d a b e) | 1 => g3 w (.or d a b e) | 2 => g3 w (.xor d a b e) | 3 => g3 w (.andn d a b e)
    | 4 => g3 w (.orn d a b e) | 5 => g3 w (.xnor d a b e) | 6 => g3one w (.not d a e) | _ => badMinor3
  | 0x05 =>
    match m with
    | 0 => g3 w (.shl d a b e) | 1 => g3 w (.shr d a b e) | 2 => g3 w (.sar d a b e) | 3 => g3 w (.rol d a b e)
    | 4 => g3 w (.ror d a b e) | 5 => g3 w (.shlI64 d a b e) | 6 => g3 w (.shrI64 d a b e) | _ => g3 w (.sarI64 d a b e)
  | 0x06 =>
    match m with
    | 0 => g3one w (.popc d a e) | 1 => g3one w (.clz d a e) | 2 => g3one w (.ctz d a e) | 3 => g3one w (.brev d a e)
    | 4 => g3 w (.bfx false d a b e) | 5 => g3 w (.bfx true d a b e) | 6 => g3 w (.bfi d a b e) | _ => g3 w (.prmt d a b e)
  | 0x07 =>
    if m = 7 then badMinor3
    else .ok { checks := [rz w 12 12, srcChk w 13, srcChk w 21], ins := .icmp (icmpOf m) (pAt w 8) a b e }
  | 0x08 => g3 w (.sel (f3At w 29) d a b e)
  | 0x09 =>
    if m4 < 5 then g4 (.imad (imadOf m4) d (rAt w 13) (rAt w 18) (rAt w 23) e)
    else match m4 with
    | 5 => g4 (.idot4 false d (rAt w 13) (rAt w 18) (rAt w 23) e)
    | 6 => g4 (.idot4 true d (rAt w 13) (rAt w 18) (rAt w 23) e)
    | 7 => g4 (.idot2 d (rAt w 13) (rAt w 18) (rAt w 23) e)
    | _ => badMinor4
  | 0x0A => g3 w (.lea (f3At w 29) d a b e)
  | 0x0B => g3 w (.lea64 (f3At w 29) d a b e)
  | 0x0C => .ok { acc := .lit, checks := [srcChk w 13], ins := .iaddi d a (imm11 w) e }
  | 0x0D => .ok { acc := .lit, checks := [srcChk w 13], ins := .andi d a (imm11 w) e }
  | 0x0E => .ok { checks := [srcChk w 13, code (bitsOf w 28 26 < 5) 28 26, rz w 31 29],
                  ins := .shi (shOf (bitsOf w 28 26)) d a (rAt w 21) e }
  | _ => .ok { acc := .lit, checks := [rz w 20 13], ins := .movi d (imm11 w) e }

/-- Majors 0x10 to 0x1F (03 Table 3.6): floating point, SMISC, WAIT, conversion. -/
def rowFp (maj w : Nat) : Except DecodeFault Row :=
  let d := rAt w 8
  let a := s1Of w
  let b := s2Of w
  let e := eOf w
  let m := bitsOf w 31 29
  let m4 := bitsOf w 31 28
  match maj with
  | 0x10 => if m < 4 then g3 w (.fadd (fpOf m) d a b e) else badMinor3
  | 0x11 => if m < 4 then g3 w (.fsub (fpOf m) d a b e) else badMinor3
  | 0x12 => if m < 4 then g3 w (.fmul (fpOf m) d a b e) else badMinor3
  | 0x13 => if m % 2 = 0 then g3 w (.fmin (fpOf (m / 2)) d a b e) else g3 w (.fmax (fpOf (m / 2)) d a b e)
  | 0x14 => .ok { checks := [rz w 12 12, srcChk w 13, srcChk w 21], ins := .fcmp (fcmpOf m) (pAt w 8) a b e }
  | 0x15 =>
    match m with
    | 0 => g3one w (.fabs d a e) | 1 => g3one w (.fneg d a e) | 2 => g3one w (.fclass d a e) | 3 => g3one w (.frndn d a e)
    | 4 => g3one w (.frndz d a e) | 5 => g3one w (.frndd d a e) | 6 => g3 w (.fcopys d a b e) | _ => g3 w (.fscale d a b e)
  | 0x16 =>
    match m with
    | 0 => g3one w (.frcp d a e) | 1 => g3one w (.frsq d a e) | 2 => g3one w (.fsqrt d a e) | 3 => g3one w (.fexp2 d a e)
    | 4 => g3one w (.flog2 d a e) | 5 => g3one w (.fsin d a e) | 6 => g3one w (.fcos d a e) | _ => g3one w (.ftanh d a e)
  | 0x17 =>
    match m4 with
    | 0 => g4 (.hdot2 false d (rAt w 13) (rAt w 18) (rAt w 23) e)
    | 1 => g4 (.hdot2 true d (rAt w 13) (rAt w 18) (rAt w 23) e)
    | 2 => g4 (.hdot4 false d (rAt w 13) (rAt w 18) (rAt w 23) e)
    | 3 => g4 (.hdot4 true d (rAt w 13) (rAt w 18) (rAt w 23) e)
    | _ => badMinor4
  | 0x18 =>
    if m4 < 4 then g4 (.fma (fpOf m4) d (rAt w 13) (rAt w 18) (rAt w 23) e)
    else if m4 = 4 then g4 (.fms d (rAt w 13) (rAt w 18) (rAt w 23) e)
    else if m4 = 5 then g4 (.fnma d (rAt w 13) (rAt w 18) (rAt w 23) e)
    else if m4 < 10 then g4 (.fmaMixed (mixOf (m4 - 6)) d (rAt w 13) (rAt w 18) (rAt w 23) e)
    else badMinor4
  | 0x19 =>
    match m with
    | 0 => .ok { checks := vOnly w 13 ++ sOnly w 21, ins := .rdlane d (rAt w 13) (rAt w 21) e }
    | 1 => .ok { checks := sOnly w 13 ++ sOnly w 21, ins := .smin false d (rAt w 13) (rAt w 21) e }
    | 2 => .ok { checks := sOnly w 13 ++ sOnly w 21, ins := .smax false d (rAt w 13) (rAt w 21) e }
    | 3 => .ok { checks := sOnly w 13 ++ sOnly w 21, ins := .smin true d (rAt w 13) (rAt w 21) e }
    | 4 => .ok { checks := sOnly w 13 ++ sOnly w 21, ins := .smax true d (rAt w 13) (rAt w 21) e }
    | 5 => .ok { checks := sOnly w 13 ++ sOnly w 21, ins := .ssel d (rAt w 13) (rAt w 21) e }
    | 6 => .ok { checks := sOnly w 13 ++ [rz w 28 21], ins := .spopc d (rAt w 13) e }
    | _ => .ok { checks := sOnly w 13 ++ [rz w 28 21], ins := .sclz d (rAt w 13) e }
  | 0x1A => .ok { checks := [], ins := .wait (BitVec.ofNat 6 (bitsOf w 31 26)) (BitVec.ofNat 6 (bitsOf w 25 20))
                    (BitVec.ofNat 6 (bitsOf w 19 14)) (BitVec.ofNat 6 (bitsOf w 13 8)) e }
  | 0x1C =>
    let r := bitsOf w 31 29
    let src := bitsOf w 28 25
    let dst := bitsOf w 24 21
    .ok { checks := [srcChk w 13, code (dst < 14 && src != dst) 24 21, code (src < 14) 28 25,
            code (r < 6 && (r == 0 || src < 6 || dst < 6)) 31 29],
          ins := .cvt (rndOf r) (typeOf src) (typeOf dst) d a e }
  | 0x1D =>
    if bitsOf w 27 26 = 0 then
      .ok { checks := [], ins := .qnt (BitVec.ofNat 4 (bitsOf w 31 28)) (f3At w 23) (rAt w 18) (rAt w 13) d e }
    else
      .ok { checks := [code (bitsOf w 27 26 == 1) 27 26, rz w 31 28], ins := .dqnt (f3At w 23) (rAt w 18) (rAt w 13) d e }
  | 0x1E =>
    if m < 3 then g3 w (.pack (packOf m) d a b e) else if m < 6 then g3 w (.unpk (packOf (m - 3)) d a b e) else badMinor3
  | 0x1F => if m < 4 then g3 w (.fscl (fsclOf m) d a b e) else badMinor3
  | _ => .error .unassignedMajor

/-- Majors 0x20 to 0x27 (03 Table 3.6): lanes and uniform scalars. -/
def rowLane (maj w : Nat) : Except DecodeFault Row :=
  let d := rAt w 8
  let a := s1Of w
  let b := s2Of w
  let e := eOf w
  let m := bitsOf w 31 29
  let xch (i : Instr) : Except DecodeFault Row := .ok { checks := vOnly w 13 ++ [srcChk w 21], ins := i }
  let salu (i : Instr) : Except DecodeFault Row := .ok { checks := sOnly w 13 ++ sOnly w 21, ins := i }
  match maj with
  | 0x20 =>
    match m with
    | 0 => xch (.xchRot d (rAt w 13) b e) | 1 => xch (.xchXor d (rAt w 13) b e) | 2 => xch (.xchBcast d (rAt w 13) b e)
    | 3 => .ok { checks := vOnly w 13 ++ [rz w 28 21], ins := .xchMirror d (rAt w 13) e }
    | 4 => xch (.xchIdx d (rAt w 13) b e) | 5 => xch (.xchShup d (rAt w 13) b e) | 6 => xch (.xchShdn d (rAt w 13) b e)
    | _ => badMinor3
  | 0x21 =>
    match bitsOf w 31 26 with
    | 0 => xRow [rz w 12 12, rz w 17 17, rz w 22 18, rz w 25 23] (.voteAny (pAt w 8) (pAt w 13) e)
    | 1 => xRow [rz w 12 12, rz w 17 17, rz w 22 18, rz w 25 23] (.voteAll (pAt w 8) (pAt w 13) e)
    | 2 => xRow [rz w 17 17, rz w 22 18, rz w 25 23] (.voteBallot d (pAt w 13) e)
    | 3 => xRow [rz w 17 13, rz w 25 23] (.voteMatch d (rAt w 18) e)
    | 4 => xRow [rz w 17 17, rz w 22 18, rz w 25 23] (.votePopc d (pAt w 13) e)
    | _ => badSub
  | 0x22 => g3one w (.redl (redOf m) d a e)
  | 0x23 => g3one w (.scanl (scanOf (m / 2)) (m % 2 == 1) d a e)
  | 0x24 => .ok { acc := .lit, checks := [rz w 12 8, rz w 20 13], ins := .setlx (imm11 w) e }
  | 0x25 =>
    match m with
    | 0 => salu (.sadd d (rAt w 13) (rAt w 21) e) | 1 => salu (.ssub d (rAt w 13) (rAt w 21) e)
    | 2 => salu (.smul d (rAt w 13) (rAt w 21) e) | 3 => salu (.sand d (rAt w 13) (rAt w 21) e)
    | 4 => salu (.sor d (rAt w 13) (rAt w 21) e) | 5 => salu (.sxor d (rAt w 13) (rAt w 21) e)
    | 6 => salu (.sshl d (rAt w 13) (rAt w 21) e) | _ => salu (.sshr d (rAt w 13) (rAt w 21) e)
  | 0x26 => .ok { acc := .lit, checks := [rz w 20 13], ins := .smovi d (imm11 w) e }
  | _ => .ok { acc := .lit, checks := sOnly w 13, ins := .saddi d (rAt w 13) (imm11 w) e }

/-- A TLOAD or TSTORE row (08 R152). -/
def tileRow (w : Nat) (i : Instr) (lit : Option (BitVec 22)) : Except DecodeFault Row :=
  .ok { acc := .lit, ins := i,
        checks := [rz w 12 11, if bitsOf w 31 29 = 1 then rz w 23 18 else none, code (bitsOf w 31 29 < 2) 31 29],
        litChecks := [match lit with
          | some p => if bitsOf w 31 29 = 1 ∧ bitsOf p.toNat 5 0 ≠ 0 then some (.reservedField 10 15 .lit) else none
          | none => none] }

/-- Majors 0x28 to 0x2F (03 Table 3.6): tiles, bins, matrix, queues, slots. -/
def rowMatrix (maj w : Nat) (lit : Option (BitVec 22)) : Except DecodeFault Row :=
  let a := rAt w 8
  let b := rAt w 13
  let c := rAt w 18
  let k := f3At w 23
  let e := eOf w
  let imm3 := bitsOf w 25 23
  match maj with
  | 0x28 => tileRow w (.tload (bitsOf w 31 29 == 0) (rAt w 24) (BitVec.ofNat 6 (bitsOf w 23 18)) b (f3At w 8) e) lit
  | 0x29 => tileRow w (.tstore (bitsOf w 31 29 == 0) (rAt w 24) (BitVec.ofNat 6 (bitsOf w 23 18)) b (f3At w 8) e) lit
  | 0x2A =>
    match bitsOf w 31 26 with
    | 0 => xRow [rz w 17 16, rz w 22 18, rz w 25 23] (.tmovTv (f3At w 13) a e)
    | 1 => xRow [rz w 17 16, rz w 22 18, rz w 25 23] (.tmovVt (f3At w 13) a e)
    | 2 => xRow [rz w 12 8, rz w 17 16, rz w 22 21, code (imm3 < 3) 25 23] (.txp (txpOf imm3) (f3At w 18) (f3At w 13) e)
    | 3 => xRow [rz w 12 8, rz w 17 16, rz w 22 18, rz w 25 23] (.tclr (f3At w 13) e)
    | _ => badSub
  | 0x2B =>
    match bitsOf w 31 26 with
    | 0 => xRow [rz w 17 13, rz w 22 18] (.bclm k a e)
    | 1 => xRow [rz w 17 13, rz w 22 18] (.bclmt k a e)
    | 2 => xRow [rz w 12 8, rz w 22 18] (.brel k b e)
    | 3 => xRow [rz w 22 21, code (imm3 < 2) 25 23] (.bfillt (imm3 == 1) (f3At w 18) b a e)
    | 4 => xRow [rz w 17 13, rz w 22 18, code (imm3 < 5) 25 23] (.bstat k a e)
    | _ => badSub
  | 0x2C =>
    let ba : BitVec 7 := BitVec.ofNat 7 (bitsOf w 17 11)
    let bb : BitVec 7 := BitVec.ofNat 7 (bitsOf w 24 18)
    let kk := f3At w 25
    let z := f3At w 8
    match bitsOf w 31 28 with
    | 0 => xRow [] (.mma false kk bb ba z e) | 1 => xRow [] (.mma true kk bb ba z e)
    | 2 => xRow [] (.mmas false kk bb ba z e) | 3 => xRow [] (.mmas true kk bb ba z e)
    | 4 => xRow [] (.mmaq false kk bb ba z e) | 5 => xRow [] (.mmaq true kk bb ba z e)
    | 6 => xRow [] (.mmat kk bb ba z e)
    | _ => badMinor4
  | 0x2D =>
    match bitsOf w 31 26 with
    | 0 => xRow [rz w 17 16, rz w 25 23] (.zrd c (f3At w 13) a e)
    | 1 => xRow [rz w 17 16, rz w 22 18, code (imm3 < 3) 25 23] (.zst (zstOf imm3) (f3At w 13) a e)
    | 2 => xRow [rz w 12 8, rz w 17 16, rz w 22 18, rz w 25 23] (.zclr (f3At w 13) e)
    | 3 => xRow [rz w 17 16, rz w 22 18, rz w 25 23] (.zld (f3At w 13) a e)
    | 4 => xRow [rz w 17 13, rz w 22 18, rz w 25 23] (.msave a e)
    | 5 => xRow [rz w 17 13, rz w 22 18, rz w 25 23] (.mres a e)
    | 6 => xRow [rz w 17 13, rz w 22 18, rz w 25 23] (.mstat a e)
    | _ => badSub
  | 0x2E =>
    match bitsOf w 31 26 with
    | 0 => xRow [rz w 12 11, rz w 22 18, rz w 25 23] (.qpsh b (f3At w 8) e)
    | 1 => xRow [rz w 17 16, rz w 22 18, rz w 25 23] (.qpop (f3At w 13) a e)
    | 2 => xRow [rz w 17 16, rz w 22 22, rz w 25 23] (.qtry (pAt w 18) (f3At w 13) a e)
    | 3 => xRow [rz w 12 11, rz w 22 18, rz w 25 23] (.qpshv b (f3At w 8) e)
    | 4 => xRow [rz w 17 16, rz w 22 18, rz w 25 23] (.qcnt (f3At w 13) a e)
    | _ => badSub
  | _ =>
    match bitsOf w 31 26 with
    | 0 => xRow [rz w 17 17, rz w 22 18] (.fslot k (pAt w 13) a e)
    | _ => badSub

/-- LIT payload bits 21:6 are reserved for AT and LDP (03 Table 3.4). -/
def litPoolOnly (lit : Option (BitVec 22)) : List (Option DecodeFault) :=
  [match lit with
    | some p => if bitsOf p.toNat 21 6 = 0 then none else some (.reservedField 16 31 .lit)
    | none => none]

/-- SETLX takes a LIT payload whose bits 21:7 are zero; the field reported is bits 31:17 of the LIT word (03 Table 3.4; DEDUCED, log 7). -/
def litSetlx (lit : Option (BitVec 22)) : List (Option DecodeFault) :=
  [match lit with
    | some p => if bitsOf p.toNat 21 7 = 0 then none else some (.reservedCode 17 31 .lit)
    | none => none]

/-- MOD's no-return bit (03 R56). -/
def preNoReturn (p : Prefixes) : Bool := match p.mod with | some m => bitsOf m.toNat 6 6 == 1 | none => false
/-- MOD's wide bit (03 R56). -/
def preWide (p : Prefixes) : Bool := match p.mod with | some m => bitsOf m.toNat 5 5 == 1 | none => false
/-- MOD's scope (03 R56); GROUP without MOD. -/
def preScope (p : Prefixes) : Scope := match p.mod with | some m => scopeOf (bitsOf m.toNat 2 0) | none => .group
/-- MOD's order (03 R56); plain without MOD. -/
def preOrder (p : Prefixes) : MOrder := match p.mod with | some m => orderOf (bitsOf m.toNat 4 3) | none => .plain
/-- MOD's pattern for G4 source i = 0, 1, 2 (03 R56); straight without MOD. -/
def prePat (p : Prefixes) (i : Nat) : Pat :=
  match p.mod with | some m => patOf (m.toNat / 2 ^ (7 + 2 * i)) | none => .straight
/-- LIT's payload; 0 without LIT (03 Table 3.4). -/
def preLit (p : Prefixes) : Nat := match p.lit with | some m => m.toNat | none => 0

/-- Majors 0x30 to 0x3B (03 Table 3.6): memory, atomics, order, copies. -/
def rowMemory (p : Prefixes) (maj w : Nat) : Except DecodeFault Row :=
  let a := rAt w 8
  let b := rAt w 13
  let c := rAt w 18
  let e := eOf w
  let pool : BitVec 6 := BitVec.ofNat 6 (bitsOf w 23 18)
  let sz := bitsOf w 31 29
  let z := sizeOf' sz
  let immL : BitVec 11 := BitVec.ofNat 11 (bitsOf w 28 18)
  let imm3 := bitsOf w 25 23
  let ldz := code (sz < 7) 31 29
  let stz := code (sz < 5) 31 29
  let nr := if preNoReturn p then rz w 12 8 else none
  let lop (i : Instr) : Except DecodeFault Row := .ok { acc := .modAny, checks := [nr, rz w 25 23], ins := i }
  let at' (bad : Bool) (i : Instr) : Except DecodeFault Row :=
    .ok { acc := .litAny, checks := [nr], litChecks := litPoolOnly p.lit, wideBad := bad, ins := i }
  let v := rAt w 24
  match maj with
  | 0x30 => .ok { acc := .litAcquire, checks := [ldz], ins := .ldg z (rAt w 24) pool b a e }
  | 0x31 => .ok { acc := .litRelease, checks := [stz], ins := .stg z (rAt w 24) pool b a e }
  | 0x32 => .ok { acc := .litAcquire, checks := [rz w 28 28, ldz], litChecks := litPoolOnly p.lit,
                  ins := .ldp z (pAt w 24) pool b a e }
  | 0x33 => .ok { acc := .lit, checks := [ldz], ins := .ldl z immL b a e }
  | 0x34 => .ok { acc := .lit, checks := [stz], ins := .stl z immL b a e }
  | 0x35 => .ok { acc := .litAcquire, checks := [ldz], ins := .ldo z immL b a e }
  | 0x36 => .ok { acc := .litRelease, checks := [stz], ins := .sto z immL b a e }
  | 0x37 =>
    match bitsOf w 31 26 with
    | 0 => lop (.lopAddF32 c b a e) | 1 => lop (.lopAddI32 c b a e) | 2 => lop (.lopMaxabsF32 c b a e)
    | 3 => lop (.lopMinF32 c b a e) | 4 => lop (.lopXchr c b a e)
    | 5 => .ok { acc := .modAny, checks := [rz w 12 8, code (imm3 < 3) 25 23], ins := .lopXadd (xaddOf imm3) c b e }
    | 6 => .ok { acc := .modAny, checks := [nr, rz w 22 18, rz w 25 23], ins := .lopXrd b a e }
    | 7 => .ok { acc := .modAny, checks := [rz w 12 8, rz w 25 23], ins := .lopFill c b e }
    | _ => badSub
  | 0x38 =>
    match sz with
    | 0 => at' false (.atomAdd v pool b a e) | 1 => at' false (.atomMinI v pool b a e)
    | 2 => at' false (.atomMaxI v pool b a e) | 3 => at' false (.atomMinN v pool b a e)
    | 4 => at' false (.atomMaxN v pool b a e) | 5 => at' false (.atomAnd v pool b a e)
    | 6 => at' false (.atomOr v pool b a e) | _ => at' false (.atomXor v pool b a e)
  | 0x39 =>
    match sz with
    | 0 => at' false (.atomxXchg v pool b a e) | 1 => at' false (.atomxCas v pool b a e)
    | 2 => at' true (.atomxFaddF32 v pool b a e) | 3 => at' true (.atomxFmaxF32 v pool b a e)
    | 4 => at' true (.atomxFaddBf16x2 v pool b a e) | 5 => at' false (.atomxIncw v pool b a e)
    | 6 => at' false (.atomxDecw v pool b a e) | _ => at' true (.atomxFmaxabsF32 v pool b a e)
  | 0x3A =>
    match bitsOf w 31 26 with
    | 0 => xRow [code (bitsOf w 9 8 != 0) 9 8, rz w 12 10, rz w 17 13, rz w 22 18, code (imm3 < 6) 25 23]
             (.fence (scopeOf imm3) (orderOf (bitsOf w 9 8)) e)
    | 1 => xRow [rz w 12 12, rz w 25 23] (.watch c b (pAt w 8) e)
    | 2 => xRow [rz w 12 8, rz w 22 18, rz w 25 23] (.unwatch b e)
    | 3 => xRow [rz w 25 23] (.waitw c b a e)
    | 4 => xRow [rz w 12 8, rz w 17 13, rz w 22 18, rz w 25 23] (.drainwc e)
    | 5 => .ok { acc := .modRelease, checks := [rz w 25 23], ins := .mcst c b a e }
    | 6 => xRow [rz w 22 18, rz w 25 23] (.flushr b a e)
    | 7 => xRow [rz w 22 18, rz w 25 23] (.invr b a e)
    | _ => badSub
  | _ =>
    match bitsOf w 31 26 with
    | 0 => xRow [rz w 25 23] (.cpy c b a e) | 1 => xRow [rz w 25 23] (.cpyt c b a e)
    | 2 => xRow [rz w 25 23] (.cpym c b a e) | 3 => xRow [rz w 25 23] (.sdrn c b a e)
    | 4 => xRow [rz w 12 8, rz w 17 13, rz w 22 18, code (imm3 < 6) 25 23] (.seal (scopeOf imm3) e)
    | 5 => xRow [rz w 17 13, rz w 22 18, rz w 25 23] (.bwait a e)
    | 6 => xRow [rz w 22 18, rz w 25 23] (.swinit b a e)
    | 7 => xRow [rz w 22 18, rz w 25 23] (.swwait b a e)
    | _ => badSub

/-- Majors 0x3C and 0x3D: BR and CALL (15 R284, R285). -/
def rowBranch (maj w : Nat) : Except DecodeFault Row :=
  let e := eOf w
  match maj with
  | 0x3C =>
    if bitsOf w 13 13 = 1 then .ok { checks := [rz w 12 8], ins := .br (BitVec.ofNat 18 (bitsOf w 31 14)) e }
    else .ok { checks := [], ins := .brCond (BitVec.ofNat 18 (bitsOf w 31 14)) (bitsOf w 12 12 == 1) (pAt w 8) e }
  | _ => .ok { checks := [rz w 12 10],
               ins := .call (BitVec.ofNat 19 (bitsOf w 31 13)) (BitVec.ofNat 2 (bitsOf w 9 8)) e }

/-- SYSW names the row of its register (09 R164, 18 R352, R353). -/
def sysWrite (n : Nat) (a : Reg) (e : Bool) : Instr :=
  if n = 2 then .fpflagsClear a e
  else if syswOwn n then .lmapWrite (BitVec.ofNat 2 ((n - 0x30) / 2)) a e
  else .sysw (BitVec.ofNat 10 n) a e

/-- Major 0x3E (03 Table 3.7): control and system instructions. -/
def rowControl (w : Nat) : Except DecodeFault Row :=
  let a := rAt w 8
  let b := rAt w 13
  let c := rAt w 18
  let e := eOf w
  let imm3 := bitsOf w 25 23
  let n10 := bitsOf w 22 13
  let za := rz w 12 8
  let zb := rz w 17 13
  let zc := rz w 22 18
  let zi := rz w 25 23
  match bitsOf w 31 26 with
  | 0x00 => xRow [za, zb, zc, zi] (.nop e)
  | 0x01 => xRow [za, zb, zc, zi] (.yield e)
  | 0x02 => xRow [za, zb, zc, zi] (.ret e)
  | 0x03 => xRow [zb, zc, zi] (.jmpr a e)
  | 0x04 => xRow [zb, zc] (.skp (f3At w 23) (bitsOf w 12 12 == 1) (pAt w 8) e)
  | 0x05 => xRow [zb, zc, zi] (.swin a e)
  | 0x06 => xRow [rz w 12 12, zi] (.fork c b (pAt w 8) e)
  | 0x07 => xRow [za, zb, zc, zi] (.fend e)
  | 0x08 => xRow [za, zb, zc] (.bar (f3At w 23) e)
  | 0x09 => xRow [za, zb, zc] (.arrv (f3At w 23) e)
  | 0x0A => xRow [za, zb, zc] (.waitb (f3At w 23) e)
  | 0x0B => xRow [za, zb, zc, zi] (.barg e)
  | 0x0C => xRow [if imm3 % 2 = 0 then zb else none, if imm3 % 2 = 0 then zc else none, rz w 25 24]
              (.launch (imm3 % 2 == 1) c b a e)
  | 0x0D => xRow [zb, zc, zi] (.ncall a e)
  | 0x0E => xRow [zc, zi] (.nwait b a e)
  | 0x0F => xRow [za, zb, zc, zi] (.nret e)
  | 0x10 => xRow [zc, rz w 25 25] (.mbxs (BitVec.ofNat 2 imm3) b a e)
  | 0x11 => xRow [zb, zc, rz w 25 25] (.mbxw (BitVec.ofNat 2 imm3) a e)
  | 0x12 => xRow [zi] (.skipz c b a e)
  | 0x13 => xRow [rz w 12 12, zc, zi] (.go b (pAt w 8) e)
  | 0x14 => xRow [za, zb, zc, zi] (.gohome e)
  | 0x15 => xRow [za, zb, zc, zi] (.rejoin e)
  | 0x16 => xRow [zi] (.trap (BitVec.ofNat 15 (bitsOf w 22 8)) e)
  | 0x17 => xRow [za, zb, zc, zi] (.tret e)
  | 0x18 => xRow [za, zb, zc, zi] (.emret e)
  | 0x19 =>
    if imm3 = 0 then xRow [code (sysrS n10) 22 13] (.sysr (BitVec.ofNat 10 n10) a e)
    else xRow [code (sysrVOk n10) 22 13, code (imm3 == 1) 25 23] (.sysrV (BitVec.ofNat 10 n10) a e)
  | 0x1A => xRow [code (syswOk n10) 22 13, zi] (sysWrite n10 a e)
  | 0x1B =>
    if imm3 = 1 then xRow [za, rz w 22 21] (.setfpmImm (BitVec.ofNat 8 (bitsOf w 20 18 * 32 + bitsOf w 17 13)) e)
    else xRow [if imm3 = 0 then zb else none, if imm3 = 0 then zc else none, code (imm3 == 0) 25 23] (.setfpm a e)
  | 0x1C => xRow [zi] (.bkpt (BitVec.ofNat 15 (bitsOf w 22 8)) e)
  | 0x1D => xRow [zb, zc, zi] (.rdclk a e)
  | _ => badSub

/-- Step 3 of 03 R62: the row of a 32-bit word's major and minor (Table 3.6). -/
def rowOf (p : Prefixes) (w : Nat) : Except DecodeFault Row :=
  let maj := bitsOf w 7 2
  if maj < 0x10 then rowInt maj w
  else if maj < 0x20 then rowFp maj w
  else if maj < 0x28 then
    (match rowLane maj w with
     | .ok r => .ok { r with litChecks := if maj = 0x24 then litSetlx p.lit else [] }
     | .error f => .error f)
  else if maj < 0x30 then rowMatrix maj w p.lit
  else if maj < 0x3C then rowMemory p maj w
  else if maj < 0x3E then rowBranch maj w
  else rowControl w

/-- Number of prefix words before the word at hand. -/
def preCount (p : Prefixes) : Nat := b2n p.lit.isSome + b2n p.mod.isSome

/-- A word of major 0x3F: the checks of step 2 of 03 R62 on it, made as soon as it is fetched (R57). -/
def decodePrefix (p : Prefixes) (w : Nat) : Except DecodeFault Instr :=
  if bitsOf w 9 8 = 2 ∨ bitsOf w 9 8 = 3 then .error (.prefixKind (preCount p))
  else if bitsOf w 1 1 = 1 then .error (.prefixE (preCount p))
  else if bitsOf w 9 8 = 0 then
    if p.lit.isSome then .error (.prefixRepeated (preCount p)) else .ok (.lit (BitVec.ofNat 22 (bitsOf w 31 10)))
  else
    if p.mod.isSome then .error (.prefixRepeated (preCount p)) else .ok (.mod (BitVec.ofNat 22 (bitsOf w 31 10)))

/-- A 32-bit word after the given prefixes. -/
def decodeWord (p : Prefixes) (w : Nat) : Except DecodeFault Instr :=
  if bitsOf w 7 2 = 0x3F then decodePrefix p w
  else match rowOf p w with
    | .ok r => r.finish p
    | .error f => .error f

/-- A 16-bit parcel with bit 0 clear (03 R50, Table 3.2) after the given prefixes, which it never accepts (R57 cause 4). -/
def decodeC16 (p : Prefixes) (w : Nat) : Except DecodeFault Instr :=
  let d := rAt w 5
  let r := rAt w 10
  let c := bitsOf w 15 15 == 1
  let i6 : BitVec 6 := BitVec.ofNat 6 (bitsOf w 15 10)
  if p.lit.isSome ∨ p.mod.isSome then .error (.prefixBeforeC16 (preCount p - 1))
  else match bitsOf w 4 1 with
    | 0 => .ok (.iaddC16 c r d) | 1 => .ok (.isubC16 c r d) | 2 => .ok (.imulC16 c r d) | 3 => .ok (.andC16 c r d)
    | 4 => .ok (.orC16 c r d) | 5 => .ok (.xorC16 c r d) | 6 => .ok (.shlC16 c r d) | 7 => .ok (.shrC16 c r d)
    | 8 => .ok (.movC16 c r d) | 9 => .ok (.moviC16 i6 d) | 10 => .ok (.iaddiC16 i6 d)
    | 11 => .ok (.faddC16 c r d) | 12 => .ok (.fmaxC16 c r d) | 13 => .ok (.fmulC16 c r d)
    | 14 => if c then .error (.reservedField 15 15 .instr) else .ok (.ldlC16 r d)
    | _ => if c then .error (.reservedField 15 15 .instr) else .ok (.stlC16 r d)

/-- One parcel sequence item: a C16 parcel, or a 32-bit word whose low half is its first parcel (03 R46). -/
def decode (p : Prefixes) (w : Nat) : Except DecodeFault Instr :=
  if w % 2 = 0 then decodeC16 p (w % 65536) else decodeWord p (w % 2 ^ 32)

/-- Bits 7:0 of a 32-bit instruction: length, E, major (03 R52). -/
def hdr (maj : Nat) (e : Bool) : Nat := 1 + 2 * b2n e + 4 * maj

/-- Format G3 (03 Table 3.3). -/
def g3w (maj m s2 s1 d : Nat) (e : Bool) : Nat :=
  hdr maj e + 256 * d + 8192 * s1 + 2097152 * s2 + 536870912 * m

/-- Format RI (03 Table 3.3). -/
def riw (maj i s1 d : Nat) (e : Bool) : Nat := hdr maj e + 256 * d + 8192 * s1 + 2097152 * i

/-- Format G4 (03 Table 3.3). -/
def g4w (maj m c b a d : Nat) (e : Bool) : Nat :=
  hdr maj e + 256 * d + 8192 * a + 262144 * b + 8388608 * c + 268435456 * m

/-- Formats M and AT (03 Table 3.3). -/
def mw (maj z i p r t : Nat) (e : Bool) : Nat :=
  hdr maj e + 256 * t + 8192 * r + 262144 * p + 16777216 * i + 536870912 * z

/-- Format MX (03 Table 3.3). -/
def mxw (m k b a z : Nat) (e : Bool) : Nat :=
  hdr 44 e + 256 * z + 2048 * a + 262144 * b + 33554432 * k + 268435456 * m

/-- Format X (03 Table 3.3). -/
def xw (maj sub i c b a : Nat) (e : Bool) : Nat :=
  hdr maj e + 256 * a + 8192 * b + 262144 * c + 8388608 * i + 67108864 * sub

/-- Format C16 (03 Table 3.1). -/
def c16w (op r d : Nat) : Nat := 2 * op + 32 * d + 1024 * r

/-- The word of an instruction, written from the encoding tables of 03; none for a row without an encoding. -/
def encode? : Instr → Option Nat
  | .iadd m d a b e => some (g3w 0 (addCode m) (srcCode b) (srcCode a) d.toNat e)
  | .isub m d a b e => some (g3w 1 (addCode m) (srcCode b) (srcCode a) d.toNat e)
  | .imul m d a b e => some (g3w 2 (mulCode m) (srcCode b) (srcCode a) d.toNat e)
  | .imin m d a b e => some (g3w 3 (2 * mmCode m) (srcCode b) (srcCode a) d.toNat e)
  | .imax m d a b e => some (g3w 3 (2 * mmCode m + 1) (srcCode b) (srcCode a) d.toNat e)
  | .iabsd d a b e => some (g3w 3 6 (srcCode b) (srcCode a) d.toNat e)
  | .iabs d a e => some (g3w 3 7 0 (srcCode a) d.toNat e)
  | .and d a b e => some (g3w 4 0 (srcCode b) (srcCode a) d.toNat e)
  | .or d a b e => some (g3w 4 1 (srcCode b) (srcCode a) d.toNat e)
  | .xor d a b e => some (g3w 4 2 (srcCode b) (srcCode a) d.toNat e)
  | .andn d a b e => some (g3w 4 3 (srcCode b) (srcCode a) d.toNat e)
  | .orn d a b e => some (g3w 4 4 (srcCode b) (srcCode a) d.toNat e)
  | .xnor d a b e => some (g3w 4 5 (srcCode b) (srcCode a) d.toNat e)
  | .not d a e => some (g3w 4 6 0 (srcCode a) d.toNat e)
  | .shl d a b e => some (g3w 5 0 (srcCode b) (srcCode a) d.toNat e)
  | .shr d a b e => some (g3w 5 1 (srcCode b) (srcCode a) d.toNat e)
  | .sar d a b e => some (g3w 5 2 (srcCode b) (srcCode a) d.toNat e)
  | .rol d a b e => some (g3w 5 3 (srcCode b) (srcCode a) d.toNat e)
  | .ror d a b e => some (g3w 5 4 (srcCode b) (srcCode a) d.toNat e)
  | .shlI64 d a b e => some (g3w 5 5 (srcCode b) (srcCode a) d.toNat e)
  | .shrI64 d a b e => some (g3w 5 6 (srcCode b) (srcCode a) d.toNat e)
  | .sarI64 d a b e => some (g3w 5 7 (srcCode b) (srcCode a) d.toNat e)
  | .popc d a e => some (g3w 6 0 0 (srcCode a) d.toNat e)
  | .clz d a e => some (g3w 6 1 0 (srcCode a) d.toNat e)
  | .ctz d a e => some (g3w 6 2 0 (srcCode a) d.toNat e)
  | .brev d a e => some (g3w 6 3 0 (srcCode a) d.toNat e)
  | .bfx u d a b e => some (g3w 6 (4 + b2n u) (srcCode b) (srcCode a) d.toNat e)
  | .bfi d a b e => some (g3w 6 6 (srcCode b) (srcCode a) d.toNat e)
  | .prmt d a b e => some (g3w 6 7 (srcCode b) (srcCode a) d.toNat e)
  | .icmp m d a b e => some (g3w 7 (icmpCode m) (srcCode b) (srcCode a) d.toNat e)
  | .sel k d a b e => some (g3w 8 k.toNat (srcCode b) (srcCode a) d.toNat e)
  | .imad m d a b c e => some (g4w 9 (imadCode m) c.toNat b.toNat a.toNat d.toNat e)
  | .idot4 u d a b c e => some (g4w 9 (5 + b2n u) c.toNat b.toNat a.toNat d.toNat e)
  | .idot2 d a b c e => some (g4w 9 7 c.toNat b.toNat a.toNat d.toNat e)
  | .lea k d a b e => some (g3w 10 k.toNat (srcCode b) (srcCode a) d.toNat e)
  | .lea64 k d a b e => some (g3w 11 k.toNat (srcCode b) (srcCode a) d.toNat e)
  | .iaddi d a i e => some (riw 12 i.toNat (srcCode a) d.toNat e)
  | .andi d a i e => some (riw 13 i.toNat (srcCode a) d.toNat e)
  | .shi k d a n e => some (riw 14 (n.toNat + 32 * shCode k) (srcCode a) d.toNat e)
  | .movi d i e => some (riw 15 i.toNat 0 d.toNat e)
  | .fadd m d a b e => some (g3w 16 (fpCode m) (srcCode b) (srcCode a) d.toNat e)
  | .fsub m d a b e => some (g3w 17 (fpCode m) (srcCode b) (srcCode a) d.toNat e)
  | .fmul m d a b e => some (g3w 18 (fpCode m) (srcCode b) (srcCode a) d.toNat e)
  | .fmin m d a b e => some (g3w 19 (2 * fpCode m) (srcCode b) (srcCode a) d.toNat e)
  | .fmax m d a b e => some (g3w 19 (2 * fpCode m + 1) (srcCode b) (srcCode a) d.toNat e)
  | .fcmp m d a b e => some (g3w 20 (fcmpCode m) (srcCode b) (srcCode a) d.toNat e)
  | .fabs d a e => some (g3w 21 0 0 (srcCode a) d.toNat e)
  | .fneg d a e => some (g3w 21 1 0 (srcCode a) d.toNat e)
  | .fclass d a e => some (g3w 21 2 0 (srcCode a) d.toNat e)
  | .frndn d a e => some (g3w 21 3 0 (srcCode a) d.toNat e)
  | .frndz d a e => some (g3w 21 4 0 (srcCode a) d.toNat e)
  | .frndd d a e => some (g3w 21 5 0 (srcCode a) d.toNat e)
  | .fcopys d a b e => some (g3w 21 6 (srcCode b) (srcCode a) d.toNat e)
  | .fscale d a b e => some (g3w 21 7 (srcCode b) (srcCode a) d.toNat e)
  | .frcp d a e => some (g3w 22 0 0 (srcCode a) d.toNat e)
  | .frsq d a e => some (g3w 22 1 0 (srcCode a) d.toNat e)
  | .fsqrt d a e => some (g3w 22 2 0 (srcCode a) d.toNat e)
  | .fexp2 d a e => some (g3w 22 3 0 (srcCode a) d.toNat e)
  | .flog2 d a e => some (g3w 22 4 0 (srcCode a) d.toNat e)
  | .fsin d a e => some (g3w 22 5 0 (srcCode a) d.toNat e)
  | .fcos d a e => some (g3w 22 6 0 (srcCode a) d.toNat e)
  | .ftanh d a e => some (g3w 22 7 0 (srcCode a) d.toNat e)
  | .hdot2 bf d a b c e => some (g4w 23 (b2n bf) c.toNat b.toNat a.toNat d.toNat e)
  | .hdot4 e5 d a b c e => some (g4w 23 (2 + b2n e5) c.toNat b.toNat a.toNat d.toNat e)
  | .fma m d a b c e => some (g4w 24 (fpCode m) c.toNat b.toNat a.toNat d.toNat e)
  | .fms d a b c e => some (g4w 24 4 c.toNat b.toNat a.toNat d.toNat e)
  | .fnma d a b c e => some (g4w 24 5 c.toNat b.toNat a.toNat d.toNat e)
  | .fmaMixed m d a b c e => some (g4w 24 (6 + mixCode m) c.toNat b.toNat a.toNat d.toNat e)
  | .rdlane d a b e => some (g3w 25 0 (b.toNat + 128) a.toNat d.toNat e)
  | .smin u d a b e => some (g3w 25 (1 + 2 * b2n u) (b.toNat + 128) (a.toNat + 128) d.toNat e)
  | .smax u d a b e => some (g3w 25 (2 + 2 * b2n u) (b.toNat + 128) (a.toNat + 128) d.toNat e)
  | .ssel d a b e => some (g3w 25 5 (b.toNat + 128) (a.toNat + 128) d.toNat e)
  | .spopc d a e => some (g3w 25 6 0 (a.toNat + 128) d.toNat e)
  | .sclz d a e => some (g3w 25 7 0 (a.toNat + 128) d.toNat e)
  | .wait t c st l e => some (hdr 26 e + 256 * l.toNat + 16384 * st.toNat + 1048576 * c.toNat + 67108864 * t.toNat)
  | .cvt r src dst d a e => some (hdr 28 e + 256 * d.toNat + 8192 * srcCode a + 2097152 * typeCode dst + 33554432 * typeCode src + 536870912 * rndCode r)
  | .qnt n k z v d e => some (hdr 29 e + 256 * d.toNat + 8192 * v.toNat + 262144 * z.toNat + 8388608 * k.toNat + 268435456 * n.toNat)
  | .dqnt k z v d e => some (hdr 29 e + 256 * d.toNat + 8192 * v.toNat + 262144 * z.toNat + 8388608 * k.toNat + 67108864)
  | .pack m d a b e => some (g3w 30 (packCode m) (srcCode b) (srcCode a) d.toNat e)
  | .unpk m d a b e => some (g3w 30 (3 + packCode m) (srcCode b) (srcCode a) d.toNat e)
  | .fscl m d a b e => some (g3w 31 (fsclCode m) (srcCode b) (srcCode a) d.toNat e)
  | .xchRot d a b e => some (g3w 32 0 (srcCode b) a.toNat d.toNat e)
  | .xchXor d a b e => some (g3w 32 1 (srcCode b) a.toNat d.toNat e)
  | .xchBcast d a b e => some (g3w 32 2 (srcCode b) a.toNat d.toNat e)
  | .xchMirror d a e => some (g3w 32 3 0 a.toNat d.toNat e)
  | .xchIdx d a b e => some (g3w 32 4 (srcCode b) a.toNat d.toNat e)
  | .xchShup d a b e => some (g3w 32 5 (srcCode b) a.toNat d.toNat e)
  | .xchShdn d a b e => some (g3w 32 6 (srcCode b) a.toNat d.toNat e)
  | .voteAny a b e => some (xw 33 0 0 0 b.toNat a.toNat e)
  | .voteAll a b e => some (xw 33 1 0 0 b.toNat a.toNat e)
  | .voteBallot a b e => some (xw 33 2 0 0 b.toNat a.toNat e)
  | .voteMatch a c e => some (xw 33 3 0 c.toNat 0 a.toNat e)
  | .votePopc a b e => some (xw 33 4 0 0 b.toNat a.toNat e)
  | .redl m d a e => some (g3w 34 (redCode m) 0 (srcCode a) d.toNat e)
  | .scanl m x d a e => some (g3w 35 (2 * scanCode m + b2n x) 0 (srcCode a) d.toNat e)
  | .setlx i e => some (riw 36 i.toNat 0 0 e)
  | .sadd d a b e => some (g3w 37 0 (b.toNat + 128) (a.toNat + 128) d.toNat e)
  | .ssub d a b e => some (g3w 37 1 (b.toNat + 128) (a.toNat + 128) d.toNat e)
  | .smul d a b e => some (g3w 37 2 (b.toNat + 128) (a.toNat + 128) d.toNat e)
  | .sand d a b e => some (g3w 37 3 (b.toNat + 128) (a.toNat + 128) d.toNat e)
  | .sor d a b e => some (g3w 37 4 (b.toNat + 128) (a.toNat + 128) d.toNat e)
  | .sxor d a b e => some (g3w 37 5 (b.toNat + 128) (a.toNat + 128) d.toNat e)
  | .sshl d a b e => some (g3w 37 6 (b.toNat + 128) (a.toNat + 128) d.toNat e)
  | .sshr d a b e => some (g3w 37 7 (b.toNat + 128) (a.toNat + 128) d.toNat e)
  | .smovi d i e => some (riw 38 i.toNat 0 d.toNat e)
  | .saddi d a i e => some (riw 39 i.toNat (a.toNat + 128) d.toNat e)
  | .tload g i p r t e => some (mw 40 (b2n (!g)) i.toNat p.toNat r.toNat t.toNat e)
  | .tstore g i p r t e => some (mw 41 (b2n (!g)) i.toNat p.toNat r.toNat t.toNat e)
  | .tmovTv b a e => some (xw 42 0 0 0 b.toNat a.toNat e)
  | .tmovVt b a e => some (xw 42 1 0 0 b.toNat a.toNat e)
  | .txp k c b e => some (xw 42 2 (txpCode k) c.toNat b.toNat 0 e)
  | .tclr b e => some (xw 42 3 0 0 b.toNat 0 e)
  | .bclm k a e => some (xw 43 0 k.toNat 0 0 a.toNat e)
  | .bclmt k a e => some (xw 43 1 k.toNat 0 0 a.toNat e)
  | .brel k b e => some (xw 43 2 k.toNat 0 b.toNat 0 e)
  | .bfillt rows c b a e => some (xw 43 3 (b2n rows) c.toNat b.toNat a.toNat e)
  | .bstat n a e => some (xw 43 4 n.toNat 0 0 a.toNat e)
  | .mma z k b a zd e => some (mxw (0 + b2n z) k.toNat b.toNat a.toNat zd.toNat e)
  | .mmas z k b a zd e => some (mxw (2 + b2n z) k.toNat b.toNat a.toNat zd.toNat e)
  | .mmaq z k b a zd e => some (mxw (4 + b2n z) k.toNat b.toNat a.toNat zd.toNat e)
  | .mmat k b a zd e => some (mxw 6 k.toNat b.toNat a.toNat zd.toNat e)
  | .zrd c b a e => some (xw 45 0 0 c.toNat b.toNat a.toNat e)
  | .zst m b a e => some (xw 45 1 (zstCode m) 0 b.toNat a.toNat e)
  | .zclr b e => some (xw 45 2 0 0 b.toNat 0 e)
  | .zld b a e => some (xw 45 3 0 0 b.toNat a.toNat e)
  | .msave a e => some (xw 45 4 0 0 0 a.toNat e)
  | .mres a e => some (xw 45 5 0 0 0 a.toNat e)
  | .mstat a e => some (xw 45 6 0 0 0 a.toNat e)
  | .qpsh b a e => some (xw 46 0 0 0 b.toNat a.toNat e)
  | .qpop b a e => some (xw 46 1 0 0 b.toNat a.toNat e)
  | .qtry c b a e => some (xw 46 2 0 c.toNat b.toNat a.toNat e)
  | .qpshv b a e => some (xw 46 3 0 0 b.toNat a.toNat e)
  | .qcnt b a e => some (xw 46 4 0 0 b.toNat a.toNat e)
  | .fslot k w a e => some (xw 47 0 k.toNat 0 w.toNat a.toNat e)
  | .ldg z i p r t e => some (mw 48 (sizeCode z) i.toNat p.toNat r.toNat t.toNat e)
  | .stg z i p r t e => some (mw 49 (sizeCode z) i.toNat p.toNat r.toNat t.toNat e)
  | .ldp z q p r t e => some (mw 50 (sizeCode z) q.toNat p.toNat r.toNat t.toNat e)
  | .ldl z i r t e => some (hdr 51 e + 256 * t.toNat + 8192 * r.toNat + 262144 * i.toNat + 536870912 * sizeCode z)
  | .stl z i r t e => some (hdr 52 e + 256 * t.toNat + 8192 * r.toNat + 262144 * i.toNat + 536870912 * sizeCode z)
  | .ldo z i r t e => some (hdr 53 e + 256 * t.toNat + 8192 * r.toNat + 262144 * i.toNat + 536870912 * sizeCode z)
  | .sto z i r t e => some (hdr 54 e + 256 * t.toNat + 8192 * r.toNat + 262144 * i.toNat + 536870912 * sizeCode z)
  | .lopAddF32 c b a e => some (xw 55 0 0 c.toNat b.toNat a.toNat e)
  | .lopAddI32 c b a e => some (xw 55 1 0 c.toNat b.toNat a.toNat e)
  | .lopMaxabsF32 c b a e => some (xw 55 2 0 c.toNat b.toNat a.toNat e)
  | .lopMinF32 c b a e => some (xw 55 3 0 c.toNat b.toNat a.toNat e)
  | .lopXchr c b a e => some (xw 55 4 0 c.toNat b.toNat a.toNat e)
  | .lopXadd k c b e => some (xw 55 5 (xaddCode k) c.toNat b.toNat 0 e)
  | .lopXrd b a e => some (xw 55 6 0 0 b.toNat a.toNat e)
  | .lopFill c b e => some (xw 55 7 0 c.toNat b.toNat 0 e)
  | .atomAdd v p r d e => some (mw 56 0 v.toNat p.toNat r.toNat d.toNat e)
  | .atomMinI v p r d e => some (mw 56 1 v.toNat p.toNat r.toNat d.toNat e)
  | .atomMaxI v p r d e => some (mw 56 2 v.toNat p.toNat r.toNat d.toNat e)
  | .atomMinN v p r d e => some (mw 56 3 v.toNat p.toNat r.toNat d.toNat e)
  | .atomMaxN v p r d e => some (mw 56 4 v.toNat p.toNat r.toNat d.toNat e)
  | .atomAnd v p r d e => some (mw 56 5 v.toNat p.toNat r.toNat d.toNat e)
  | .atomOr v p r d e => some (mw 56 6 v.toNat p.toNat r.toNat d.toNat e)
  | .atomXor v p r d e => some (mw 56 7 v.toNat p.toNat r.toNat d.toNat e)
  | .atomxXchg v p r d e => some (mw 57 0 v.toNat p.toNat r.toNat d.toNat e)
  | .atomxCas v p r d e => some (mw 57 1 v.toNat p.toNat r.toNat d.toNat e)
  | .atomxFaddF32 v p r d e => some (mw 57 2 v.toNat p.toNat r.toNat d.toNat e)
  | .atomxFmaxF32 v p r d e => some (mw 57 3 v.toNat p.toNat r.toNat d.toNat e)
  | .atomxFaddBf16x2 v p r d e => some (mw 57 4 v.toNat p.toNat r.toNat d.toNat e)
  | .atomxIncw v p r d e => some (mw 57 5 v.toNat p.toNat r.toNat d.toNat e)
  | .atomxDecw v p r d e => some (mw 57 6 v.toNat p.toNat r.toNat d.toNat e)
  | .atomxFmaxabsF32 v p r d e => some (mw 57 7 v.toNat p.toNat r.toNat d.toNat e)
  | .fence k a e => some (xw 58 0 (scopeCode k) 0 0 (orderCode a) e)
  | .watch c b a e => some (xw 58 1 0 c.toNat b.toNat a.toNat e)
  | .unwatch b e => some (xw 58 2 0 0 b.toNat 0 e)
  | .waitw c b a e => some (xw 58 3 0 c.toNat b.toNat a.toNat e)
  | .drainwc e => some (xw 58 4 0 0 0 0 e)
  | .mcst c b a e => some (xw 58 5 0 c.toNat b.toNat a.toNat e)
  | .flushr b a e => some (xw 58 6 0 0 b.toNat a.toNat e)
  | .invr b a e => some (xw 58 7 0 0 b.toNat a.toNat e)
  | .cpy c b a e => some (xw 59 0 0 c.toNat b.toNat a.toNat e)
  | .cpyt c b a e => some (xw 59 1 0 c.toNat b.toNat a.toNat e)
  | .cpym c b a e => some (xw 59 2 0 c.toNat b.toNat a.toNat e)
  | .sdrn c b a e => some (xw 59 3 0 c.toNat b.toNat a.toNat e)
  | .seal k e => some (xw 59 4 (scopeCode k) 0 0 0 e)
  | .bwait a e => some (xw 59 5 0 0 0 a.toNat e)
  | .swinit b a e => some (xw 59 6 0 0 b.toNat a.toNat e)
  | .swwait b a e => some (xw 59 7 0 0 b.toNat a.toNat e)
  | .br d e => some (hdr 60 e + 8192 + 16384 * d.toNat)
  | .brCond d sn p e => some (hdr 60 e + 256 * p.toNat + 4096 * b2n sn + 16384 * d.toNat)
  | .call d sl e => some (hdr 61 e + 256 * sl.toNat + 8192 * d.toNat)
  | .nop e => some (xw 62 0 0 0 0 0 e)
  | .yield e => some (xw 62 1 0 0 0 0 e)
  | .ret e => some (xw 62 2 0 0 0 0 e)
  | .jmpr a e => some (xw 62 3 0 0 0 a.toNat e)
  | .skp n sn p e => some (xw 62 4 n.toNat 0 0 (p.toNat + 16 * b2n sn) e)
  | .swin a e => some (xw 62 5 0 0 0 a.toNat e)
  | .fork c b a e => some (xw 62 6 0 c.toNat b.toNat a.toNat e)
  | .fend e => some (xw 62 7 0 0 0 0 e)
  | .bar n e => some (xw 62 8 n.toNat 0 0 0 e)
  | .arrv n e => some (xw 62 9 n.toNat 0 0 0 e)
  | .waitb n e => some (xw 62 10 n.toNat 0 0 0 e)
  | .barg e => some (xw 62 11 0 0 0 0 e)
  | .launch o c b a e => some (xw 62 12 (b2n o) c.toNat b.toNat a.toNat e)
  | .ncall a e => some (xw 62 13 0 0 0 a.toNat e)
  | .nwait b a e => some (xw 62 14 0 0 b.toNat a.toNat e)
  | .nret e => some (xw 62 15 0 0 0 0 e)
  | .mbxs n b a e => some (xw 62 16 n.toNat 0 b.toNat a.toNat e)
  | .mbxw n a e => some (xw 62 17 n.toNat 0 0 a.toNat e)
  | .skipz c b a e => some (xw 62 18 0 c.toNat b.toNat a.toNat e)
  | .go b a e => some (xw 62 19 0 0 b.toNat a.toNat e)
  | .gohome e => some (xw 62 20 0 0 0 0 e)
  | .rejoin e => some (xw 62 21 0 0 0 0 e)
  | .trap n e => some (hdr 62 e + 256 * n.toNat + 67108864 * 22)
  | .tret e => some (xw 62 23 0 0 0 0 e)
  | .emret e => some (xw 62 24 0 0 0 0 e)
  | .sysr n a e => some (hdr 62 e + 256 * a.toNat + 8192 * n.toNat + 67108864 * 25)
  | .sysrV n a e => some (hdr 62 e + 256 * a.toNat + 8192 * n.toNat + 8388608 + 67108864 * 25)
  | .sysw n a e => some (hdr 62 e + 256 * a.toNat + 8192 * n.toNat + 67108864 * 26)
  | .lmapWrite m a e => some (hdr 62 e + 256 * a.toNat + 8192 * (48 + 2 * m.toNat) + 67108864 * 26)
  | .fpflagsClear a e => some (hdr 62 e + 256 * a.toNat + 8192 * 2 + 67108864 * 26)
  | .setfpm a e => some (xw 62 27 0 0 0 a.toNat e)
  | .setfpmImm i e => some (hdr 62 e + 8192 * i.toNat + 8388608 + 67108864 * 27)
  | .bkpt n e => some (hdr 62 e + 256 * n.toNat + 67108864 * 28)
  | .rdclk a e => some (xw 62 29 0 0 0 a.toNat e)
  | .lit p => some (0xFD + 1024 * p.toNat)
  | .mod p => some (0x1FD + 1024 * p.toNat)
  | .iaddC16 c r d => some (c16w 0 (r.toNat + 32 * b2n c) d.toNat)
  | .isubC16 c r d => some (c16w 1 (r.toNat + 32 * b2n c) d.toNat)
  | .imulC16 c r d => some (c16w 2 (r.toNat + 32 * b2n c) d.toNat)
  | .andC16 c r d => some (c16w 3 (r.toNat + 32 * b2n c) d.toNat)
  | .orC16 c r d => some (c16w 4 (r.toNat + 32 * b2n c) d.toNat)
  | .xorC16 c r d => some (c16w 5 (r.toNat + 32 * b2n c) d.toNat)
  | .shlC16 c r d => some (c16w 6 (r.toNat + 32 * b2n c) d.toNat)
  | .shrC16 c r d => some (c16w 7 (r.toNat + 32 * b2n c) d.toNat)
  | .movC16 c r d => some (c16w 8 (r.toNat + 32 * b2n c) d.toNat)
  | .moviC16 i d => some (c16w 9 i.toNat d.toNat)
  | .iaddiC16 i d => some (c16w 10 i.toNat d.toNat)
  | .faddC16 c r d => some (c16w 11 (r.toNat + 32 * b2n c) d.toNat)
  | .fmaxC16 c r d => some (c16w 12 (r.toNat + 32 * b2n c) d.toNat)
  | .fmulC16 c r d => some (c16w 13 (r.toNat + 32 * b2n c) d.toNat)
  | .ldlC16 r d => some (c16w 14 r.toNat d.toNat)
  | .stlC16 r d => some (c16w 15 r.toNat d.toNat)
  | .issueSlotArbitration _ _ => none
  | .asynchronousReturn _ _ _ => none
  | .storePerformed _ => none
  | .l1Eviction _ _ => none
  | .wcAgeDrain _ _ => none
  | .syncWordArrival _ => none
  | .queueEntryTakeable _ _ => none
  | .heldTrapTaken _ => none
  | .faultRecordDeferred _ => none
  | .pushApply _ => none
  | .unwatchComplete _ _ => none
  | .matrixOpAccept _ => none
  | .matrixSumUnit _ => none
  | .sequencerStopTrap _ => none
  | .matrixPoisonTrap _ => none
  | .binZeroing _ => none
  | .copyPacket _ => none
  | .launchPacket _ => none
  | .eventPacket _ => none
  | .queueHoldRetry _ => none
  | .copyLineWrite _ => none
  | .shelfPark _ => none
  | .launchDependenceMet _ => none
  | .teamPlacement _ => none
  | .teamRetirement _ => none
  | .endNoticeArrival _ => none
  | .swapOut _ => none
  | .swapIn _ => none
  | .preEmption _ => none
  | .copyCancel _ => none
  | .aggregateClose _ => none
  | .cellarCallStart _ => none
  | .cellarCallComplete _ => none
  | .crateArrival _ _ => none
  | .returnCrateArrival _ => none
  | .migrationRefusal _ _ => none
  | .read _ => none
  | .write _ => none
  | .atomic _ => none
  | .reduce _ => none
  | .mcast _ => none
  | .sub _ => none
  | .unsub _ => none
  | .push _ => none
  | .pushend _ => none
  | .crate _ => none
  | .resp _ => none
  | .mack _ => none
  | .ftmoTimeout _ => none
  | .remoteRetry _ => none
  | .pushResend _ => none
  | .flitReceive _ _ => none
  | .linkDown _ => none
  | .keySwitch _ _ => none
  | .nonceExhausted _ _ => none
  | .walkMovingRecheck _ => none
  | .ctxcreate _ => none
  | .ctxdestroy _ => none
  | .freeze _ => none
  | .thaw _ => none
  | .tlbinv _ => none
  | .tlbinvComplete _ => none
  | .qcreate _ => none
  | .qdestroy _ => none
  | .hwrite _ => none
  | .loftwin _ => none
  | .keyset _ => none
  | .wayconv _ => none
  | .wayconvApply _ => none
  | .preempt _ => none
  | .cabort _ => none
  | .replay _ => none
  | .scrub _ => none
  | .resync _ => none
  | .routeset _ => none
  | .routesetComplete _ => none
  | .coreRetirement _ => none
  | .matrixResourceRetirement _ => none
  | .cellarCoreRetirement _ => none
  | .rowSparing _ _ _ => none
  | .moduleReset _ => none
  | .cxlMemRead _ _ => none
  | .cxlMemWrite _ _ => none
  | .nodeidWrite _ => none
  | .q0ringWrite _ => none
  | .q0ctlWrite _ => none
  | .wcageWrite _ => none
  | .ftmoWrite _ => none
  | .fbbaseWrite _ _ => none
  | .fbstatWrite _ _ => none
  | .pwrcapWrite _ => none
  | .hmaskChWrite _ _ => none
  | .hmaskPcWrite _ _ => none
  | .configPendingApply _ => none
  | .hstatRead => none
  | .registerWrite _ _ => none
  | .msiXMessage _ => none
  | .getVersion => none
  | .getCapabilities => none
  | .negotiateAlgorithms _ => none
  | .getDigests => none
  | .getCertificate _ _ => none
  | .challenge _ => none
  | .getMeasurements _ _ => none
  | .pldmMonitor => none
  | .powerStepDown => none
  | .powerStepUp => none
  | .thermalStop => none
  | .thermalResume => none
  | .unassignedEncoding _ => none
  | .reservedPacketKind _ => none
  | .reservedFraricKind _ => none
  | .linkRetrained _ => none
  | .linkLaneSpared _ => none
  | .fusedMinimumRaise _ => none

/-- The word of an instruction; 0 for a row without an encoding. -/
def encode (i : Instr) : Nat := (encode? i).getD 0

end Sys2Proof.Machine

namespace Sys2Proof

/-- The instruction the decoder reads from a word of the opcode table's numbering: `nbits` bits, zeros above. -/
def decodeTableWord (_nbits w : Nat) : Option Instr :=
  match Machine.decode {} w with
  | .ok i => some i
  | .error _ => none

end Sys2Proof
end

