-- ==== Sys2Proof/Machine/Tab.lean ====
section
/-! DEFINITION. Tables of state by number and byte memories in canonical form. -/
namespace Sys2Proof.Machine

/-- Entry `k` of a table; `d` where the table lists none. -/
def tget {α : Type} (d : α) : Tab α → Nat → α
  | [], _ => d
  | (j, a) :: t, k => if j = k then a else tget d t k

/-- The table with entry `k` set; keys stay ascending. -/
def tput {α : Type} : Tab α → Nat → α → Tab α
  | [], k, a => [(k, a)]
  | (j, b) :: t, k, a =>
    if k < j then (k, a) :: (j, b) :: t else if k = j then (k, a) :: t else (j, b) :: tput t k a

/-- The table without entry `k`. -/
def tdel {α : Type} (t : Tab α) (k : Nat) : Tab α := t.filter fun e => e.1 != k

/-- Whether the table lists `k`. -/
def thas {α : Type} (t : Tab α) (k : Nat) : Bool := t.any fun e => e.1 == k

/-- Several entries set in order. -/
def tputs {α : Type} (t : Tab α) (es : List (Nat × α)) : Tab α := es.foldl (fun t e => tput t e.1 e.2) t

/-- Entry `k` changed by a function; `d` stands for an entry that the table does not list. -/
def tmod {α : Type} (d : α) (t : Tab α) (k : Nat) (f : α → α) : Tab α := tput t k (f (tget d t k))

/-- A byte memory: (address, byte) pairs, addresses strictly rising, no entry of byte 0; an unlisted address reads 0 (log 3). -/
abbrev Memory := List Host.Cell

/-- The canonical form above a bound: every address at least `lo`, rising, no byte 0. -/
def wfFrom : Nat → Memory → Bool
  | _, [] => true
  | lo, (a, b) :: m => decide (lo ≤ a) && b != 0 && wfFrom (a + 1) m

/-- The canonical form of a memory. -/
def Memory.wf (m : Memory) : Bool := wfFrom 0 m

/-- The byte at an address; 0 where the memory lists none (log 3). -/
def mread : Memory → Nat → Byte
  | [], _ => 0
  | (j, b) :: m, a => if j = a then b else mread m a

/-- The memory with one byte written; writing 0 removes the entry. -/
def mwrite : Memory → Nat → Byte → Memory
  | [], a, b => if b = 0 then [] else [(a, b)]
  | (j, c) :: m, a, b =>
    if a < j then (if b = 0 then (j, c) :: m else (a, b) :: (j, c) :: m)
    else if a = j then (if b = 0 then m else (a, b) :: m)
    else (j, c) :: mwrite m a b

/-- n bytes from an address. -/
def mreads (m : Memory) (a : Nat) : Nat → List Byte
  | 0 => []
  | n + 1 => mread m a :: mreads m (a + 1) n

/-- Bytes written from an address. -/
def mwrites (m : Memory) (a : Nat) : List Byte → Memory
  | [] => m
  | b :: bs => mwrites (mwrite m a b) (a + 1) bs

/-- The memory without the bytes of a range. -/
def mclear (m : Memory) (a n : Nat) : Memory := m.filter fun c => c.1 < a || a + n ≤ c.1

end Sys2Proof.Machine
end

