-- ==== Sys2Proof/Machine/State.lean ====
section
/-! DEFINITION. The state of the module as plain data (01, 02, INVENTORY.md '## State'), the reasons a step can stop, and the state at
module reset. A table entry that is not listed has the value its reader names as default. -/
namespace Sys2Proof.Machine

/-- One lane of a V register: 32 bits and a poison bit (02 R31, R44). -/
structure VLane where
  val : Word := 0
  pois : Bool := false
  /-- the error arose in the register file itself (17 R346) -/
  own : Bool := false
  deriving DecidableEq, Repr, Inhabited

/-- What stands in a lane slot (02 R28, R29; 15 R291, R292). -/
inductive Life where
  | free
  | live
  /-- the fibre left in a crate; its home registers stay (02 R35) -/
  | away
  deriving DecidableEq, Repr, Inhabited

/-- A register of a group: class (0 V, 1 S, 2 T, 3 Z, 4 Q, 5 P as in 02 R33, R44) and index (for P, the P index). -/
structure RegRef where
  cls : Nat
  idx : Nat
  deriving DecidableEq, Repr, Inhabited

/-- The four outstanding-operation counters (02 R43). -/
inductive Ctr where
  | ld | st | cp | tl
  deriving DecidableEq, Repr, Inhabited

/-- Where an access is performed (09 Table 9.1; 16 R313). -/
inductive Target where
  | larder (off : Nat)
  /-- cellar scratch of a stack (09 R174) -/
  | scratch (stack off : Nat)
  /-- physical loft offset of a die (09 R168) -/
  | loft (die off : Nat)
  /-- device physical address with its cache policy, CR counted as 2 (09 R173) -/
  | dev (pa pol : Nat)
  /-- host physical address (16 R313) -/
  | host (pa : Nat)
  /-- an address homed on another module (09 R171) -/
  | remote (va : Nat)
  /-- an outlier record whose page is being moved (05 R99; 16 R315) -/
  | held (va : Nat)
  deriving DecidableEq, Repr, Inhabited

/-- The condition that kept a fibre's next instruction from issuing (03 R48, 13 R264). -/
inductive Wait where
  | none
  /-- registers whose scoreboard bits are set (02 R42) -/
  | scoreboard (rs : List RegRef)
  /-- a counter already at 63 (02 R43) -/
  | counter (c : Ctr)
  /-- WAIT (15 R290) -/
  | counts (ld st cp tl : Nat)
  /-- a queue register with too few free entries (02 R36) -/
  | qFull (q n : Nat)
  /-- a queue register whose oldest entry cannot be taken (02 R36, 07 R137) -/
  | qEmpty (q n : Nat)
  /-- BCLM (08 R155) -/
  | claim (first n : Nat)
  /-- BAR at a barrier whose arrival is recorded (15 R293) -/
  | barrier (n : Nat)
  /-- ARRV by a fibre that has arrived in the phase (15 R293) -/
  | rearrive (n : Nat)
  /-- WAITB (15 R293) -/
  | waitb (n : Nat)
  /-- BARG whose arrival is recorded (15 R294) -/
  | barg
  /-- SWWAIT: offset, generation (11 R240) -/
  | swwait (off gen : Nat)
  /-- NWAIT (15 R297) -/
  | nwait (off : Nat)
  /-- BWAIT (11 R239) -/
  | bwait (n : Nat)
  /-- NCALL at its stack's limit of 64 calls (14 R278) -/
  | ncall (stack : Nat)
  /-- LAUNCH at its context's limit (15 R295) -/
  | launch
  /-- CPY or CPYT on a ring with too few free slots: the queue, the slots it needs (11 R233) -/
  | ring (q n : Nat)
  /-- CPYM with no free shelf slot (11 R237) -/
  | shelf
  /-- SEAL with 64 unfinished batches (11 R239) -/
  | seal
  /-- FENCE (11 R222) or another operation that releases at a scope, behind earlier accesses not yet performed there -/
  | fence (k : Scope)
  /-- a place that cannot be reached yet, and whether by an atomic (10 R187; 11 R219; 17 R344) -/
  | reach (t : Target) (atom : Bool)
  /-- REJOIN (15 R307) -/
  | rejoin
  /-- remote lanes not yet answered (11 R206) -/
  | remote
  /-- an instruction answered NOMAP or NONRES by another module: it issues again 4 µs later (11 R206; 12 R249) -/
  | resend
  /-- a crate whose fibre's earlier accesses are not yet performed (10 R194) -/
  | depart
  /-- a class-U trap while the group is in its handler (17 R334) -/
  | handler
  /-- the group's trap record, which stands in its store queue behind earlier stores (17 R333) -/
  | record
  /-- MBXS (14 R280): the target cellar core and dumbwaiter -/
  | mbxFull (cell n : Nat)
  /-- MBXW (14 R280) -/
  | mbxEmpty (cell n : Nat)
  /-- a matrix, bin or accumulator operation of a context whose held list is full (08 R161) -/
  | array
  /-- an MMAS of a core's group, by its bin A (07 R149) -/
  | mmas (bin : Nat)
  /-- FPFLAGS behind an outstanding QNT (18 R353) -/
  | fpflags
  /-- a walk stalled on MOVING, by the 64 KiB of addresses that it is for (16 R315) -/
  | moving (page : Nat)
  /-- a walk or an access behind a link that is down, by the 64 KiB of addresses that it is for (01 R11; 17 R344) -/
  | link (page : Nat)
  deriving DecidableEq, Repr, Inhabited

/-- A fibre (02 R28). -/
structure Fibre where
  life : Life := .free
  pc : Dword := 0
  wb8 : BitVec 8 := 0
  preds : BitVec 16 := 0
  /-- by barrier: 1 + the phase of the last arrival; 0 for never (15 R293) -/
  arrived : Tab Nat := []
  /-- 1 + the phase of the BARG at which the fibre is blocked; 0 for none (15 R294) -/
  bargAt : Nat := 0
  wait : Wait := .none
  /-- time at which `wait` began (13 R267, 16 R315) -/
  waitSince : Nat := 0
  /-- a trial has found its stall on MOVING over, whose start the instruction still needs (13 R264; 16 R315) -/
  movingOver : Bool := false
  /-- cause and address of a migration refused at this instruction (15 R303, R304) -/
  refused : Option (Nat × Nat) := none
  /-- the fallback of that refusal has been the release and the acquire that it is (10 R194) -/
  fellBack : Bool := false
  /-- BAR at which its arrival is recorded and not yet over: the fibre arrives no second time at it (15 R293) -/
  barring : Option Nat := none
  deriving DecidableEq, Repr, Inhabited

/-- One register write of an asynchronous return (02 R42). -/
inductive RegWrite where
  | v (lane phys : Nat) (x : VLane)
  | s (i : Nat) (w : Word)
  | p (lane i : Nat) (b : Bool)
  | tile (t row : Nat) (bs : List Byte)
  deriving DecidableEq, Repr, Inhabited

/-- One lane of an outstanding return. -/
structure LaneRet where
  lane : Nat
  /-- the value is known and may land (02 R42) -/
  ready : Bool := false
  ws : List RegWrite := []
  /-- the destination's physical V index -/
  dst : Nat := 0
  /-- WAITW: larder slot and last sequence (11 R226) -/
  slot : Nat := 0
  lastSeq : Nat := 0
  /-- the flat address of the access, for the trap of a poisoned S, T or P destination (02 R44) -/
  addr : Nat := 0
  /-- bytes of its own core's earlier stores to another module, by offset from `addr` (10 R180, R196) -/
  fwd : Tab Byte := []
  deriving DecidableEq, Repr, Inhabited

/-- The instruction issue under way: its group, batch and fetched words (03 R54). -/
structure Issue where
  gid : Nat := 0
  mask : Nat := 0
  pc : Dword := 0
  npc : Dword := 0
  pre : Prefixes := {}
  parcels : List Parcel := []
  c16 : Bool := false
  /-- a prefix has been taken and the sequence goes on -/
  mid : Bool := false
  /-- on a cellar core, the group's ages once the instruction has issued (13 R264; 14 R272) -/
  ages : List (Dword × Nat) := []
  deriving DecidableEq, Repr, Inhabited

/-- What an outstanding operation is, where a rule asks (10 R353, 13 R267). -/
inductive RetKind where
  | load | atomic | pop | watch | waitw | unwatch | launch | skipz | qnt | tile | store | copy | matrix
  deriving DecidableEq, Repr, Inhabited

/-- A QNT whose index add has not returned (05 R99): the slot's bytes, the lanes with their parameter word and codes, and the
outliers in order: lane, element, how it left the range (1 above, 2 below, 3 NaN), element index, the bits of x. -/
structure QntPend where
  slot : List Byte
  rows : List (Nat × Nat × List Nat)
  outs : List (Nat × Nat × Nat × Nat × Nat)
  /-- flags that its codes raise -/
  flags : Nat := 0
  deriving DecidableEq, Repr, Inhabited

/-- An issued operation that still holds registers or a counter (02 R42, R43). -/
structure Return where
  id : Nat
  kind : RetKind
  ctr : Option Ctr := none
  /-- registers whose scoreboard bit it holds -/
  regs : List RegRef := []
  lanes : List LaneRet := []
  /-- separately performed events still to come, beyond `lanes` -/
  left : Nat := 0
  /-- some lane is homed on another module, so the group issues nothing until every lane is answered (11 R206) -/
  stall : Bool := false
  /-- the instruction as it issued -/
  issue : Issue := {}
  /-- negative answers: lane, reason of 11 R229, address -/
  neg : List (Nat × Nat × Nat) := []
  qnt : Option QntPend := none
  deriving DecidableEq, Repr, Inhabited

/-- Atomic operations (11 R218). -/
inductive AtomOp where
  | add | minI | maxI | minN | maxN | and | or | xor | xchg | cas | faddF32 | fmaxF32 | faddBf16x2 | incw | decw | fmaxabsF32
  deriving DecidableEq, Repr, Inhabited

/-- Loft bank operations (11 R213). -/
inductive LopOp where
  | addF32 | addI32 | maxabsF32 | minF32 | xchr | xadd (t : XaddType) | xrd | fill
  deriving DecidableEq, Repr, Inhabited

/-- What a queued access does when it is performed. An instruction that cannot complete at once leaves its access here and goes on (11 Table
11.1). -/
inductive Action where
  | bytes (bs : List Byte)
  /-- operand values v and, for CAS, the value to write (11 R218) -/
  | atom (op : AtomOp) (wide : Bool) (v v2 : Nat)
  | lop (op : LopOp) (v : Word)
  /-- an instruction's atomics on one line of another module, in lane order: lane, destination V index, offset in the line, operands (12 R255) -/
  | reduce (op : AtomOp) (wide : Bool) (es : List (Nat × Nat × Nat × Nat × Nat))
  /-- one event of a load: its lanes in order, the size, the P index of LDP (10 R186; 11 R209, R210) -/
  | load (lanes : List Nat) (z : Size) (p : Option Nat)
  /-- a no-return atomic with acquire order, asked of another module under this tag: nothing later passes it (10 R184) -/
  | await (tag : Nat)
  /-- CPYM: its source may be read from now on (10 R187; 11 R237) -/
  | park
  /-- SWINIT of a target (11 R240) -/
  | swinit (target : Nat)
  /-- FLUSHR, and INVR where `inv` is set: the range (11 R230) -/
  | flushr (base len : Nat) (inv : Bool)
  /-- WATCH of one lane: the slot, the P index, the page's entry (11 R223) -/
  | watch (slot pidx pte : Nat)
  /-- MCST: handle, target, acknowledgement offset, the line, the group record, the scope of its release (11 R228) -/
  | mcst (h va ack : Nat) (line grp : List Byte) (rel : Option Scope)
  /-- SDRN: tag, offset, sync offset (11 R238) -/
  | sdrn (tag off sync : Nat)
  /-- the index add of a QNT: how many outliers (05 R99) -/
  | index (n : Nat)
  deriving DecidableEq, Repr, Inhabited

/-- An entry of a group's store queue (10 R180). -/
structure StoreOp where
  /-- the Return it belongs to -/
  ret : Nat
  lane : Nat
  /-- destination V index of a returning operation; 256 and above for none -/
  dst : Nat := 999
  tgt : Target
  act : Action
  order : MOrder := .plain
  scope : Scope := .group
  /-- virtual address or offset as the program formed it -/
  va : Nat := 0
  /-- time at which a store stalled on MOVING began (05 R99; 16 R315) -/
  since : Nat := 0
  pc : Dword := 0
  deriving DecidableEq, Repr, Inhabited

/-- Matrix, bin and accumulator operations held by the array (08 R151). -/
inductive MatKind where
  /-- minor 0 to 6, slot, bin A, bin B, accumulator, start step (07 R147) -/
  | mma (minor slot a b zd : Nat)
  /-- bytes to a bin: (offset, data) pieces (08 R155) -/
  | fill (bin : Nat) (ps : List (Nat × List Byte))
  | release (first k : Nat)
  | zst (m zd bin : Nat)
  | zld (zd bin : Nat)
  | zclr (zd : Nat)
  deriving DecidableEq, Repr, Inhabited

/-- An operation at the array (07 R133, R147). -/
structure MatOp where
  id : Nat
  gid : Nat
  /-- the Return that counts it in TL -/
  ret : Nat
  kind : MatKind
  /-- its instruction's address (07 Table 7.1 MOP) -/
  pc : Dword := 0
  /-- next step: sum unit, row, column (07 R147) -/
  dep : Nat := 0
  row : Nat := 0
  col : Nat := 0
  /-- it stopped, or was held behind a stopped operation: its tile stays its own until it completes (22 R376) -/
  pinned : Bool := false
  deriving DecidableEq, Repr, Inhabited

/-- A queued entry of a Q register with the operations that hold it (07 R137). -/
structure QEntry where
  val : Word
  by_ : Nat
  /-- ids of array operations that must complete first -/
  held : List Nat := []
  /-- pushed by a sequencer context during a stop: it waits behind no older entry (22 R376) -/
  exempt : Bool := false
  deriving DecidableEq, Repr, Inhabited

/-- Trap state of a sequencer context and its stopped operation (07 Table 7.1, 18 Table 18.1). -/
structure SeqState where
  stvec : Dword := 0
  stpc : Dword := 0
  stnext : Dword := 0
  stcode : Word := 0
  stdetail : Dword := 0
  staddr : Dword := 0
  stparc : BitVec 96 := 0
  inHandler : Bool := false
  stopped : Option MatOp := none
  /-- number above every operation issued before the stop (07 R137; 22 R376) -/
  stopMark : Nat := 0
  /-- the trap of the stopped operation not yet taken: code, DETAIL, ADDR (07 R150) -/
  due : Option (Nat × Nat × Nat) := none
  /-- after a YIELD: the contexts that issue once first (15 R289) -/
  yieldTo : List Nat := []
  deriving DecidableEq, Repr, Inhabited

/-- A trap to be delivered (17 Table 17.1). -/
structure Trap where
  code : Nat
  detail : Nat := 0
  addr : Nat := 0
  /-- HANDLE for a record of another context, PROT for USER, NCALLERR cause 2: freezes (17 Table 17.1) -/
  freezes : Bool := false
  /-- the allocation handle that a freeze record of HANDLE names (16 R326) -/
  handle : Option Nat := none
  /-- POISON for an error that arose in the core's own register files (17 R346) -/
  file : Bool := false
  deriving DecidableEq, Repr, Inhabited

/-- Why a group issues nothing until the driver acts (13 R266, 17 R331, R337). -/
inductive Hold where
  /-- replayable at its instruction (KIND 0x01) -/
  | replay
  /-- a class-D trap (KIND 0x02): the trap, the instruction as it issued, nested -/
  | trap (t : Trap) (i : Issue) (nested : Bool)
  deriving DecidableEq, Repr, Inhabited

/-- A fault record written or waiting (17 R335, R337). -/
structure FaultRec where
  die : Nat
  gen : Nat := 0
  bytes : List Byte
  /-- group held with it, 0 for none -/
  gid : Nat := 0
  /-- groups held by a fault of the same page and generation (17 R337) -/
  more : List Nat := []
  /-- copy held with it -/
  job : Option Nat := none
  /-- CPYM held with it: cluster, Return -/
  park : Option (Nat × Nat) := none
  /-- WIDX at which it was written -/
  slot : Nat := 0
  /-- DISP kept for THAW (17 R338) -/
  disp : Option Nat := none
  deriving DecidableEq, Repr, Inhabited

/-- A guest group's home (15 Table 15.2). -/
structure GuestInfo where
  homeNode : Nat
  homeGid : Nat
  homeCore : Nat
  homeSlot : Nat
  hops : Nat
  flags : BitVec 6 := 0
  khandle : Nat
  seq : Nat
  w64 : Bool := false
  /-- home lane of each guest lane, where it differs (cellar core) -/
  homeLane : Tab Nat := []
  smask : Nat := 0
  vmask : Nat := 0
  /-- FLAGS of the home's launch record, its class, and whether its kernel is cellar-eligible (13 Table 13.6; 15 R300) -/
  lflags : Nat := 0
  cls : Nat := 0
  cellarOk : Bool := false
  deriving DecidableEq, Repr, Inhabited

/-- A group of a core, a guest group, the group of a cellar call's core, or a sequencer context (02 R28, 07 Table 7.1, 14 R272). -/
structure Group where
  kind : Kind := .core
  width : Nat := 32
  ctx : Nat := 0
  /-- team of a core group or a sequencer context; 0 for none -/
  tid : Nat := 0
  role : Nat := 0
  /-- number in team order (13 R262) -/
  number : Nat := 0
  /-- logical core, cellar core or sequencer cluster -/
  place : Nat := 0
  /-- group slot of the core, or context of the sequencer -/
  slot : Nat := 0
  vAlloc : Nat := 256
  sAlloc : Nat := 32
  tAlloc : Nat := 8
  fibres : Tab Fibre := []
  /-- V registers by lane * 256 + physical index -/
  v : Tab VLane := []
  sregs : Tab Word := []
  /-- tile rows by tile * 32 + row -/
  tiles : Tab (List Byte) := []
  lx : Word := 0
  fpmode : Word := 0
  fpflags : Word := 0
  ld : Nat := 0
  st : Nat := 0
  cp : Nat := 0
  tl : Nat := 0
  returns : List Return := []
  stores : List StoreOp := []
  /-- age by PC (13 R264) -/
  ages : List (Dword × Nat) := []
  /-- lanes of FMASK still in the handler (17 R334) -/
  handler : Nat := 0
  /-- traps of other batches that wait for the handler (17 R334) -/
  heldTraps : List (Trap × Issue) := []
  hold : Option Hold := none
  /-- batches closed by SEAL and not yet acquired: (number, scope) (10 R188) -/
  batches : List (Nat × Scope) := []
  sealNext : Nat := 1
  /-- copies of the group that have not ended: queue, index, batch (10 R188); queue 256 stands for the shelf, 512 and above for a refused packet -/
  copies : List (Nat × Nat × Nat) := []
  crateSeq : Nat := 0
  guest : Option GuestInfo := none
  /-- cellar call and core index k -/
  call : Option (Nat × Nat) := none
  seq : SeqState := {}
  /-- cellar: the core's fibres have all ended, or it trapped (14 R279) -/
  ended : Bool := false
  /-- it has a ready batch, and since when it has been ready and unissued (13 R265) -/
  wasReady : Bool := false
  readySince : Nat := 0
  /-- a matrix poison trap due at the next boundary: DETAIL, ADDR (08 R159) -/
  poisonDue : Option (Nat × Nat) := none
  deriving DecidableEq, Repr, Inhabited

/-- A mapped larder window (09 R164, R165): registers, valid bits and write masks by line. -/
structure LWindow where
  a : Word := 0
  b : Word := 0
  /-- the global address that its first line maps: the pool record's BASE and POFF as the window was mapped (09 R165, R166) -/
  base : Nat := 0
  /-- larder lines whose valid bit is set -/
  valid : List Nat := []
  /-- where a line of this module was read from and whether its page may be written, by larder line, until TLBINV removes the translation (16 R316,
  R318) -/
  places : Tab (Target × Bool) := []
  /-- larder offsets whose write-mask bit is set -/
  dirty : List Nat := []
  deriving DecidableEq, Repr, Inhabited

/-- A watch subscription (10 R190, R191; 12 R252). -/
structure Sub where
  slot : Nat
  va : Nat
  seen : Bool := true
  /-- remote subscription's tag -/
  tag : Nat := 0
  remote : Bool := false
  /-- registered, or the request is still under way -/
  live : Bool := true
  /-- UNWATCH under way: the groups and Returns that await it -/
  ending : List (Nat × Nat) := []
  /-- the home has removed it: the count of the last write before (12 R253) -/
  last : Option Nat := none
  /-- remote pushes held before the answer (12 R252): (q, value) -/
  heldPushes : List (Nat × Nat) := []
  lastQ : Nat := 0
  deriving DecidableEq, Repr, Inhabited

/-- A team's phase (13 R263, R267): a pending team is counted in its grid, and a retired one is no more. -/
inductive Phase where
  | resident | swapped
  deriving DecidableEq, Repr, Inhabited

/-- A team (02 R28, 13 R262). -/
structure Team where
  phase : Phase := .resident
  ctx : Nat := 0
  grid : Nat := 0
  cls : Nat := 0
  /-- linear index (13 R261) -/
  index : Nat := 0
  core : Nat := 0
  larderSize : Nat := 0
  larder : Memory := []
  /-- 64-bit words of the larder that carry poison (17 R344) -/
  larderPoison : List Nat := []
  lmap : Tab LWindow := []
  subs : List Sub := []
  queues : Tab (List QEntry) := []
  qregs : Nat := 0
  /-- accumulator rows by z * 128 + row: words, current and as of the last completed unit (07 R146) -/
  z : Tab (List Word) := []
  zLast : Tab (List Word) := []
  zSteps : Tab Word := []
  /-- 64-bit words of the accumulators that carry poison: (z * 128 + row) * 64 + word (17 R344) -/
  zBad : List Nat := []
  zAlloc : Nat := 0
  binBase : Nat := 0
  binQuota : Nat := 0
  claimed : List Nat := []
  barriers : Tab Nat := []
  bargArrived : Nat := 0
  groups : List Nat := []
  seqGid : Nat := 0
  /-- order of becoming non-resident (13 R263) -/
  queuedAt : Nat := 0
  /-- its swap image's device address and size (17 R341); size 0 for none -/
  image : Nat := 0
  imageSize : Nat := 0
  /-- its context's swap area had no room for its image (13 R268) -/
  noRoom : Bool := false
  /-- its image met an error that ends it (17 R342) -/
  spoiled : Bool := false
  /-- the sequencer context's operations while the team is out, oldest first (08 R161; 17 Table 17.7), and the one that was running between sum
  units (07 R150) -/
  savedOps : List MatOp := []
  savedRun : Option MatOp := none
  /-- since when it has fitted nowhere while non-resident (13 R269) -/
  noFit : Option Nat := none
  /-- a stall on MOVING of its save, or of its grid's completion word as it retires: the page or address, and when it began (13 R261; 16 R315) -/
  stall : Option (Nat × Nat) := none
  /-- its waiting SDRNs while it is out: group, return, tag, offset, sync offset (11 R238; 13 R269) -/
  savedDrains : List (Nat × Nat × Nat × Nat × Nat) := []
  /-- 64-bit words of its bins that carry poison while it is out, from its bin base (17 R344) -/
  savedBinPoison : List Nat := []
  /-- copies saved with the image, to be queued again (13 R269): packet, batch, issuing group, queue, index, shape record -/
  savedCopies : List (List Byte × Nat × Nat × Nat × Nat × List Byte) := []
  /-- copy bytes that have landed and are not yet counted into a sync word (09 R167): copy, word, bytes -/
  arrivals : List (Nat × Nat × Nat) := []
  /-- start of a save whose operations are being resolved, and whether it is a swap (13 R267, R269; 17 R340) -/
  saving : Option (Nat × Bool) := none
  /-- the save under way is PREEMPT's, which a freeze does not hold back (16 R325) -/
  ordered : Bool := false
  deriving DecidableEq, Repr, Inhabited

/-- A grid (13 R260, R261, R270). -/
structure Grid where
  ctx : Nat := 0
  cls : Nat := 0
  /-- the launch record's 256 bytes as read (13 Table 13.4) -/
  launch : List Byte := []
  /-- the eight format slots as read (05 R97) -/
  slots : List Byte := []
  /-- the kernel's S and V crate masks as read at acceptance (04 R78) -/
  smask : Nat := 0
  vmask : Nat := 0
  /-- accepted, with dependence words still unsatisfied (13 R261) -/
  waiting : Bool := false
  /-- the dependence words not yet satisfied: address, translation as held, awaited value -/
  deps : List (Nat × Option Target × Nat) := []
  /-- stalls on MOVING of its dependence words' walks, by address: when each began (13 R261; 16 R315) -/
  stalls : Tab Nat := []
  teams : Nat := 0
  retired : Nat := 0
  unplaced : Nat := 0
  /-- order in which its teams became pending (13 R263) -/
  queuedAt : Nat := 0
  /-- since when its next pending team has fitted nowhere (13 R269) -/
  noFit : Option Nat := none
  bargPhase : Nat := 0
  /-- an aggregate's children: PARAM, GRIDX, first team, retired count, DONE (13 R270) -/
  children : List (Nat × Nat × Nat × Nat × Nat) := []
  open_ : Bool := false
  openedAt : Nat := 0
  /-- the die whose core issued the LAUNCH instruction; none for a packet (13 R261) -/
  byDie : Option Nat := none
  /-- queue that holds the launch -/
  queue : Nat := 0
  done : Bool := false
  deriving DecidableEq, Repr, Inhabited

/-- A byte held in an L1 (09 R172): its value, whether its write-mask bit is set, the context that brought it and the virtual address by which
it did, and whether its word has an uncorrectable error (17 R344). -/
structure L1Byte where
  val : Byte
  dirty : Bool := false
  ctx : Nat := 0
  va : Nat := 0
  bad : Bool := false
  deriving DecidableEq, Repr, Inhabited

/-- A write-combining entry (10 R196) for a remote line. -/
structure WcEntry where
  line : Nat
  ctx : Nat
  /-- bytes held, by offset in the line: the byte mask and the data -/
  cells : Tab Byte := []
  opened : Nat := 0
  age : Nat := 0
  /-- gid that opened it -/
  gid : Nat := 0
  deriving DecidableEq, Repr, Inhabited

/-- A TLB entry: context, virtual page base of the local address, page size, entry (16 R317). -/
structure TlbEntry where
  ctx : Nat
  base : Nat
  size : Nat
  pte : Dword
  deriving DecidableEq, Repr, Inhabited

/-- A run in progress on an issue slot (03 R48, 13 R265): its group, its batch, where the batch stands, the instructions issued. -/
structure Run where
  gid : Nat := 0
  mask : Nat := 0
  pc : Dword := 0
  count : Nat := 0
  /-- fibres of the batch that stand past a SKP (15 R287) -/
  skip : Nat := 0
  /-- the group's ages once the run has completed (13 R264) -/
  ages : List (Dword × Nat) := []
  deriving DecidableEq, Repr, Inhabited

/-- A logical core (01 R12). -/
structure Core where
  /-- run at each of the four issue slots; gid 0 for none (13 R265) -/
  slots : Tab Run := []
  /-- by device address -/
  l1 : Tab L1Byte := []
  wc : List WcEntry := []
  /-- guest groups (01 R13): gid by guest slot -/
  guests : Tab Nat := []
  out : Bool := false
  /-- its first-level TLB of 64 entries (16 R317) -/
  tlb : List TlbEntry := []
  /-- its 64 KiB instruction cache: 64-byte sectors by device address / 64, in order of arrival (01 R13; 03 R47) -/
  icache : List (Nat × List Byte) := []
  /-- when its register files last had uncorrectable errors (17 R346) -/
  fileErrors : List Nat := []
  /-- suspect (17 R346): the teams that are being saved, or have been, until the core is retired -/
  retiring : Option (List Nat) := none
  deriving DecidableEq, Repr, Inhabited

/-- What an engine or a shelf has read of a copy's source (10 R187): bytes by source address, whether 64-byte units of them carry poison, and
the lines requested from another module. -/
structure SrcBuf where
  bytes : Tab Byte := []
  bad : List Nat := []
  /-- units among them whose poison the driver has had reported and let through (17 R338) -/
  known : List Nat := []
  asked : List Nat := []
  deriving DecidableEq, Repr, Inhabited

/-- A shelf slot (01 R13, 11 R237). -/
structure ShelfSlot where
  tag : Nat
  mask : Nat
  grid : Nat
  data : List Byte
  /-- its 64-byte units that carry poison -/
  bad : List Nat := []
  order : Nat := 0
  deriving DecidableEq, Repr, Inhabited

/-- A CPYM that reads its source or is ready to be parked (11 R237): it has a slot reserved. -/
structure Park where
  gid : Nat
  ret : Nat
  /-- the fibre's earlier accesses are performed, so its source may be read (10 R187) -/
  armed : Bool := false
  ctx : Nat := 0
  tid : Nat := 0
  grid : Nat := 0
  tag : Nat := 0
  mask : Nat := 0
  /-- the source is in the team's larder -/
  lar : Bool := false
  src : Nat := 0
  len : Nat := 0
  buf : SrcBuf := {}
  /-- held at a fault: its record is out (17 R338) -/
  stuck : Bool := false
  /-- a stall on MOVING: its page, and when it began (16 R315) -/
  since : Option (Nat × Nat) := none
  deriving DecidableEq, Repr, Inhabited

/-- A waiting SDRN (11 R238). -/
structure Drain where
  gid : Nat
  ret : Nat
  tag : Nat
  off : Nat
  sync : Nat
  deriving DecidableEq, Repr, Inhabited

/-- A cluster (01 R13). -/
structure Cluster where
  bins : Memory := []
  /-- 64-bit words of the bins that carry poison: (bin * 32768 + offset) / 8 (17 R344) -/
  binPoison : List Nat := []
  /-- operations issued and not yet accepted, in issue order (07 R133) -/
  ops : List MatOp := []
  running : Option MatOp := none
  lastServed : Nat := 0
  /-- 1 + the context of its sequencer that issued last (07 R136) -/
  lastIssued : Nat := 0
  shelf : Tab ShelfSlot := []
  parks : List Park := []
  drains : List Drain := []
  matrixOut : Bool := false
  deriving DecidableEq, Repr, Inhabited

/-- Who holds a line of device memory exclusively (09 R173; 10 R187). -/
inductive Owner where
  | die (d : Nat)
  | engine (e : Nat)
  deriving DecidableEq, Repr, Inhabited

/-- A home slice's directory entry of a line (09 R173): the dies whose L2s hold a copy, and the owner. -/
structure DirEntry where
  sharers : BitVec 8 := 0
  owner : Option Owner := none
  deriving DecidableEq, Repr, Inhabited

/-- A die (01 R11). -/
structure Die where
  fbbase : Dword := 0
  fbPend : Option Dword := none
  drop : Nat := 0
  gen : Nat := 0
  ridx : Nat := 0
  widx : Nat := 0
  /-- records written in the current generation with what they hold -/
  records : List FaultRec := []
  /-- records waiting for room (17 R337) -/
  waiting : List FaultRec := []
  loft : Memory := []
  loftPoison : List Nat := []
  /-- lines of device memory that the die's L2 slices hold, its own and copies of other dies', in order of arrival (01 R15, R26) -/
  l2 : List Nat := []
  tlb : List TlbEntry := []
  spares : Tab Nat := []
  deriving DecidableEq, Repr, Inhabited

/-- A memory stack (01 R19). -/
structure Stack where
  hmaskCh : Word := 0
  hmaskPc : Word := 0
  chPend : Option Word := none
  pcPend : Option Word := none
  err : Bool := false
  ways : Nat := 0
  /-- a conversion held pending: ways, and the queue whose command it is (09 R174, R177) -/
  wayPend : Option (Nat × Nat) := none
  scratch : Memory := []
  /-- 64-byte sectors of the scratch that carry poison (17 R344) -/
  scratchPoison : List Nat := []
  /-- rows spared by channel * 128 + bank, and the banks with no spare row left (17 R345) -/
  spared : Tab Nat := []
  banksOut : List Nat := []
  callQueue : List Nat := []
  deriving DecidableEq, Repr, Inhabited

/-- A cellar core (01 R20, 14 R278, R280). -/
structure Cellar where
  out : Bool := false
  /-- gid of the group of a call; 0 for none -/
  gid : Nat := 0
  /-- guest groups held -/
  guests : List Nat := []
  store : List Byte := []
  /-- kernel whose image the store holds: context, handle (15 R302), and the virtual address of the image -/
  image : Option (Nat × Nat) := none
  imageBase : Nat := 0
  /-- 64-bit words of the store that carry poison (17 R344) -/
  storePoison : List Nat := []
  boxes : Tab (List Byte) := []
  /-- 64-bit words of the dumbwaiters that carry poison: 8 × dumbwaiter + word (17 R344) -/
  boxPoison : List Nat := []
  wake : BitVec 4 := 0
  deriving DecidableEq, Repr, Inhabited

/-- A context's state (16 R309). -/
inductive CtxPhase where
  | free | active | frozen | closing
  deriving DecidableEq, Repr, Inhabited

/-- A context (16 R310, 09 R168). -/
structure Ctx where
  phase : CtxPhase := .free
  /-- descriptor bytes (16 Table 16.1) -/
  desc : List Byte := []
  /-- loft window by die: base, size -/
  loft : Tab (Nat × Nat) := []
  /-- swap areas in use: offset, size (17 R341) -/
  swap : List (Nat × Nat) := []
  /-- the first freeze event and its record's fields -/
  freeze : Nat := 0
  /-- when it was frozen: no timer of its teams has run since (16 R325) -/
  frozenAt : Nat := 0
  deriving DecidableEq, Repr, Inhabited

/-- A privileged command whose completion waits (16 R318, R328; 12 R246). -/
structure PrivCmd where
  kind : Nat
  ctx : Nat
  status : Nat
  bytes : List Byte := []
  /-- lines or entries done (17 R347, R348) -/
  pos : Nat := 0
  deriving DecidableEq, Repr, Inhabited

/-- A work queue (13 R256, 16 R328). -/
structure WQueue where
  used : Bool := false
  ctx : Nat := 0
  cls : Nat := 0
  priv : Bool := false
  entries : Nat := 0
  ring : Nat := 0
  kinds : Nat := 0
  /-- held on an unreadable header or slot: cause, address (13 R258) -/
  held : Option (Nat × Nat) := none
  heldAt : Nat := 0
  /-- where the header lies, as last translated -/
  hdr : Option Target := none
  /-- a refusal that awaits the packet of a launch already refused: its cause (13 R261) -/
  refuse : Option Nat := none
  /-- the N8's read for the queue that stalls on MOVING: its address, and when it began (16 R315) -/
  since : Option (Nat × Nat) := none
  /-- the home of WIDX has serialised a write since the last try (13 R258) -/
  poked : Bool := false
  /-- a launch held by its dependence words, which holds the queue -/
  launch : Nat := 0
  /-- a COPY waiting for an engine, or a packet's walk on MOVING -/
  cmd : Option PrivCmd := none
  deriving DecidableEq, Repr, Inhabited

/-- A copy at an engine or waiting for one (11 R232, 10 R187). -/
structure CopyJob where
  id : Nat
  queue : Nat
  slot : Nat
  ctx : Nat
  /-- the 64-byte packet -/
  pkt : List Byte
  /-- issuing group and batch; 0 from the host or a peer -/
  gid : Nat := 0
  batch : Nat := 0
  tid : Nat := 0
  /-- shape record of a tile copy as checked -/
  shape : List Byte := []
  /-- bytes done -/
  pos : Nat := 0
  counted : Nat := 0
  engine : Option Nat := none
  /-- held at a fault: its record is out (17 R338) -/
  stuck : Bool := false
  startedAt : Nat := 0
  buf : SrcBuf := {}
  /-- unanswered writes to another module; the bytes that they have landed, and whether one was refused, so that all are sent again -/
  flying : Nat := 0
  lands : Nat := 0
  redo : Bool := false
  /-- a stall on MOVING: its page, and when it began (16 R315) -/
  since : Option (Nat × Nat) := none
  /-- the event whose destination sectors DISP 0 has written poisoned (17 R338) -/
  spoil : Option Nat := none
  deriving DecidableEq, Repr, Inhabited

/-- A copy engine (11 R232, 16 R325). -/
structure Engine where
  job : Option CopyJob := none
  withdrawn : Bool := false
  deriving DecidableEq, Repr, Inhabited

/-- A cellar call (14 R276 to R279). -/
structure Call where
  gid : Nat := 0
  tid : Nat := 0
  ctx : Nat := 0
  stack : Nat := 0
  cores : Nat := 0
  msg : List Byte := []
  slots : List Byte := []
  /-- page translations held for the call: virtual page base, page size, device address (16 R318) -/
  pages : List (Nat × Nat × Nat) := []
  image : Nat := 0
  imageSize : Nat := 0
  /-- the image's page translations, held until the call starts: virtual page base, page size, entry (14 R278) -/
  imagePages : List (Nat × Nat × Nat) := []
  statusOff : Nat := 0
  started : Bool := false
  members : List Nat := []
  first : Option (Nat × Nat × List Byte) := none
  fpflags : BitVec 6 := 0
  aborted : Bool := false
  deriving DecidableEq, Repr, Inhabited

/-- A crate under way within the module or arriving (15 R301, R302). -/
structure Crate where
  id : Nat
  bytes : List Byte
  /-- destination: die for a core, cellar core's stack for a cellar destination -/
  die : Nat := 0
  stack : Nat := 0
  toCellar : Bool := false
  ret : Bool := false
  endNotice : Bool := false
  /-- gid that it left, on this module; 0 for another module -/
  fromGid : Nat := 0
  /-- the packet it came by from another module -/
  req : Option Packet := none
  ctx : Nat := 0
  sentAt : Nat := 0
  /-- sent to another module and not yet answered -/
  sent : Bool := false
  /-- P index that a GO sets or clears; 99 for migration on touch -/
  goP : Nat := 99
  /-- lanes of the group that it left -/
  lanes : Nat := 0
  /-- FPFLAGS raised since its fibres left home, on an onward hop within this module (15 R301) -/
  flags : BitVec 6 := 0
  /-- the die that it leaves, or of the gateway by which it came -/
  srcDie : Nat := 0
  deriving DecidableEq, Repr, Inhabited

/-- What a request to another module was sent for. -/
inductive ReqUse where
  /-- lanes of LDG or LDP in one event: return, lanes, size, P index of LDP (10 R186; 11 R206, R210) -/
  | load (ret : Nat) (lanes : List Nat) (z : Size) (p : Option Nat)
  /-- a row of TLOAD (08 R152) -/
  | row (ret row tile : Nat)
  /-- an atomic: return, lane, bytes, physical V index; no-return forms write nothing (11 R219) -/
  | atom (ret lane n phys : Nat) (nr : Bool)
  /-- an instruction's atomics on one line in one packet: return, lanes with their physical V indices, bytes (12 R255) -/
  | reduce (ret : Nat) (lanes : List (Nat × Nat)) (n : Nat) (nr : Bool)
  /-- a write-combining drain or a release store (10 R196): the Return counted in ST, 0 for none -/
  | drain (ret : Nat)
  /-- MCST: return, acknowledgement offset, members, and this module's own answer where it is one (11 R228; 12 R251) -/
  | mcst (ret ack : Nat) (members : List Nat) (own : Option Nat)
  /-- WATCH: return, lane, slot, P index (12 R252) -/
  | sub (ret lane slot pidx : Nat)
  | unsub (ret slot : Nat)
  /-- a line of a larder window (09 R165): team, window, larder line, the lowest lane whose access touches it -/
  | fill (tid win line lane : Nat)
  | crate (id : Nat)
  /-- a source line of a copy (11 R232): job, line -/
  | copyRead (job line : Nat)
  /-- a destination line of a copy: job, bytes -/
  | copyWrite (job n : Nat)
  /-- a source line of a CPYM (11 R237): cluster, its Return, line -/
  | parkRead (cluster ret line : Nat)
  deriving DecidableEq, Repr, Inhabited

/-- Whether a request is on the wire. -/
inductive ReqHold where
  | sent
  /-- behind an earlier write of its line (12 R248) -/
  | line
  /-- answered NOMAP or NONRES: sent again after 4 µs (12 R249) -/
  | retry
  /-- until ROUTESET completes (12 R246) -/
  | route
  /-- the link to the die of its port is down (01 R11; 17 R344) -/
  | cut
  deriving DecidableEq, Repr, Inhabited

/-- A request to another module awaiting its answer (12 R243, R249). -/
structure Req where
  tag : Nat
  pkt : Packet
  use : ReqUse
  gid : Nat := 0
  core : Nat := 0
  die : Nat := 0
  ctx : Nat := 0
  sentAt : Nat := 0
  /-- FTMO in effect when it was sent (09 R177) -/
  ftmo : Nat := 1000
  hold : ReqHold := .sent
  /-- the batch of an access in progress at its instruction -/
  issue : Issue := {}
  /-- of a window's line: bytes of its own core's earlier stores, by offset (10 R180, R196) -/
  fwd : Tab Byte := []
  /-- of a multicast: the payload of its last MACK, which did not count every member (12 R251) -/
  got : List Byte := []
  deriving DecidableEq, Repr, Inhabited

/-- A pegboard subscription at a home slice (10 R190, 11 R224, 12 R252). -/
structure Peg where
  /-- device address of the 8-byte word -/
  pa : Nat
  /-- virtual address by which another module named it -/
  va : Nat := 0
  count : Nat := 0
  tid : Nat := 0
  slot : Nat := 0
  /-- subscriber on another module: node, tag -/
  node : Nat := 0
  tag : Nat := 0
  remote : Bool := false
  ctx : Nat := 0
  deriving DecidableEq, Repr, Inhabited

/-- A push under way to a local slot (10 R190), or a remote push to be resent (12 R252). -/
structure Push where
  tid : Nat := 0
  slot : Nat := 0
  q : Nat := 0
  val : Nat := 0
  remote : Bool := false
  node : Nat := 0
  tag : Nat := 0
  va : Nat := 0
  ctx : Nat := 0
  ended : Bool := false
  sentAt : Nat := 0
  /-- the home die of the word, which sends it -/
  die : Nat := 0
  deriving DecidableEq, Repr, Inhabited

/-- A fabric port (12 R245, 16 R329, R330). -/
structure Port where
  up : Bool := true
  keyIn : List Byte := []
  keyOut : List Byte := []
  pendIn : Option (List Byte × Nat) := none
  pendOut : Option (List Byte × Nat) := none
  cntIn : Nat := 0
  cntOut : Nat := 0
  fails : Nat := 0
  spared : Nat := 0
  deriving DecidableEq, Repr, Inhabited

/-- A race shadow record of a 64-byte sector (10 Table 10.11). -/
structure Shadow where
  wtag : BitVec 16 := 0
  rtag : BitVec 16 := 0
  wv : Bool := false
  rv : Bool := false
  shr : Bool := false
  wunk : Bool := false
  scope : BitVec 3 := 0
  intv : BitVec 25 := 0
  deriving DecidableEq, Repr, Inhabited

/-- An access by the host link (19 R358, R359). -/
inductive HostAcc where
  /-- n bytes of device memory at a host physical address -/
  | read (hpa n : Nat)
  | write (hpa : Nat) (data : List Byte)
  /-- BAR0: offset, width in bytes -/
  | regRead (off width : Nat)
  | regWrite (off width : Nat) (v : Dword)
  deriving DecidableEq, Repr, Inhabited

/-- An input from outside the module, or what its agents do next (log 1). -/
inductive Act where
  /-- a group issues the next instruction of a batch: group, PC -/
  | issue (gid : Nat) (pc : Dword)
  /-- a step of the module -/
  | event (i : Instr)
  /-- an uncorrectable error in a 64-byte sector of device memory (17 R344) -/
  | poison (sector : Nat)
  /-- an uncorrectable error in a 64-bit word of a die's loft (17 R344) -/
  | loftError (die word : Nat)
  /-- an uncorrectable error in a 64-bit word of a cluster's bins (17 R344) -/
  | binError (cluster word : Nat)
  /-- an uncorrectable error in a lane of a group's V file (17 R344) -/
  | laneError (gid lane phys : Nat)
  /-- the instruction of a batch reads an S, T or P register whose file has an uncorrectable error (17 R344): group, PC, the register, its lane or
  tile row -/
  | fileError (gid : Nat) (pc : Dword) (r : RegRef) (lane : Nat)
  /-- an uncorrectable error in a 64-bit word of a team's larder (17 R344) -/
  | larderError (tid word : Nat)
  /-- an uncorrectable error in a 64-bit word of an accumulator of a team, of an L1, of a cellar core's program store, or in a 64-byte unit of a
  shelf slot (17 R344) -/
  | zError (tid word : Nat)
  | l1Error (core word : Nat)
  | storeError (cellar word : Nat)
  | shelfError (cluster slot unit : Nat)
  /-- an uncorrectable error in a 64-byte sector of a stack's scratch, or in a 64-bit word of a cellar core's full dumbwaiter (17 R344) -/
  | scratchError (stack sector : Nat)
  | boxError (cellar word : Nat)
  /-- an uncorrectable error that the host reports for a 64-byte sector of its memory (19 R358) -/
  | hostError (sector : Nat)
  /-- a residue retry that succeeded, after how many attempts, at the unit that WHO names (17 R343, Table 17.6) -/
  | retried (who attempts : Nat)
  /-- a corrected error or a residue retry that only its counter shows: its number (17 R343, R344, Table 17.9) -/
  | counted (k : Nat)
  /-- a host store to host memory (19 R358) -/
  | hostWrite (pa : Nat) (data : List Byte)
  /-- the host sets its HDM decoder's base (19 R358) -/
  | hdmBase (hpa : Nat)
  /-- a read of BAR0, of any width (19 R359) -/
  | regRead (off width : Nat)
  /-- a write of BAR0 of another width than 8 (19 R359) -/
  | regWrite (off width : Nat) (v : Dword)
  /-- an access of the host that waits is tried again (17 R344; 19 R357) -/
  | hostGoes (k : Nat)
  /-- the boot code that runs ends (19 R362) -/
  | bootEnds
  /-- sensor values: power in W, temperature in degrees (19 R364) -/
  | sensors (power temp : Nat)
  deriving DecidableEq, Repr, Inhabited

/-- One turn of the agenda: clock ticks that pass first, then an act. -/
structure Turn where
  dt : Nat := 0
  act : Act
  deriving DecidableEq, Repr

/-- The module. -/
structure State where
  /-- RDCLK count: 4 GHz ticks since module reset (01 R25) -/
  now : Nat
  cur : Issue
  groups : Tab Group
  teams : Tab Team
  grids : Tab Grid
  cores : Tab Core
  clusters : Tab Cluster
  dies : Tab Die
  memStacks : Tab Stack
  cellars : Tab Cellar
  ctxs : Tab Ctx
  queues : Tab WQueue
  calls : Tab Call
  jobs : List CopyJob
  engines : Tab Engine
  crates : List Crate
  reqs : List Req
  pegs : List Peg
  pushes : List Push
  ports : Tab Port
  /-- links inside the package and to the host that are down: their traffic waits (17 R344) -/
  down : List Link
  /-- device memory at the stacks (01 R19) -/
  mem : Memory
  /-- dirty bytes held in the L2s above the stacks (10 R198): listed bytes stand for the memory's -/
  l2 : List Host.Cell
  /-- the home slices' directory entries by line; an unlisted line has no copy and no owner (09 R173) -/
  dir : Tab DirEntry
  /-- poisoned 64-byte sectors of device memory, ascending (17 R344) -/
  poison : List Nat
  hostMem : Memory
  /-- 64-byte sectors of host memory that the host reports as uncorrectable errors, ascending (19 R358) -/
  hostPoison : List Nat
  /-- host physical address of the module's first byte, which the host sets in its HDM decoder (19 R358) -/
  hdmBase : Nat
  /-- accesses of the host that wait for a link or for a copy engine's line, oldest first (10 R187; 17 R344; 19 R357) -/
  hostWaits : List HostAcc
  /-- race shadow records by sector (10 R202), interval counters by D-instance: ((context * 8 + D) * 2^32 + instance) -/
  shadow : Tab Shadow
  /-- pages whose RACE attribute has been seen set, by context and virtual base: their records have been reset since (10 R203) -/
  raceOn : List (Nat × Nat)
  intervals : Tab Nat
  nodeid : BitVec 19
  porten : BitVec 32
  ftmo : Nat
  wcage : Nat
  routeTable : Nat
  routeHeld : Bool
  /-- by node, the values that its entry has lost since the last ROUTESET (12 R246) -/
  routeOld : Tab (List Nat)
  q0ring : Dword
  q0ctl : Dword
  bootstat : Dword
  herr : Bool
  hstatWidth : Nat
  hstatRate : Nat
  pwrcap : BitVec 16
  power : Nat
  temp : Nat
  /-- clock of the 4 GHz domains in MHz (19 R364) -/
  clock : Nat
  clockAt : Nat
  clearSince : Option Nat
  thermalStop : Bool
  /-- when the thermal stop began (19 R364) -/
  stoppedAt : Nat
  /-- MSI-X vectors due, and when each last sent (19 R361) -/
  msiDue : List Nat
  msiAt : Tab Nat
  fusedMin : Nat
  boot : BootInput
  resyncCounters : Tab Nat
  /-- arriving packets that wait: behind one of their flow and line, at a link that is down or a line that a copy engine owns, or on MOVING, with
  the start of that stall (12 R248; 16 R315; 17 R344) -/
  inbox : List (Packet × Option Nat)
  /-- packets sent by port (12 R243) -/
  wire : List Packet
  /-- messages to the host: (kind, value) -/
  hostOut : List (Nat × Nat)
  /-- management answers (19 R363, R365) -/
  mgmtOut : List (List Byte)
  agenda : List Turn
  fresh : Nat
  nextId : Nat
  deriving DecidableEq, Repr

/-- Why a run stops with a fault: nothing in this model does, for the spec names a trap or a record for every failure. -/
inductive Fault where
  /-- No meaning raises it; safe. -/
  | none
  deriving DecidableEq, Repr

/-- Why a step has no meaning. -/
inductive Refusal where
  /-- An arm of `exec` that is not modelled yet; safe: the model stops where the hardware goes on. -/
  | notModelled (mnemonic : String)
  deriving DecidableEq, Repr

/-- The module at reset, before its boot code runs (19 R362; INVENTORY.md '## State'). -/
def State.reset : State where
  now := 0
  cur := {}
  groups := []
  teams := []
  grids := []
  cores := []
  clusters := []
  dies := []
  memStacks := []
  cellars := []
  ctxs := []
  queues := []
  calls := []
  jobs := []
  engines := []
  crates := []
  reqs := []
  pegs := []
  pushes := []
  ports := []
  down := []
  mem := []
  l2 := []
  dir := []
  poison := []
  hostMem := []
  hostPoison := []
  hdmBase := 0
  hostWaits := []
  shadow := []
  raceOn := []
  intervals := []
  nodeid := 0x7FFFF
  porten := 0
  ftmo := 1000
  wcage := 1000
  routeTable := 0
  routeHeld := false
  routeOld := []
  q0ring := 0
  q0ctl := 0
  bootstat := 0
  herr := false
  hstatWidth := 0
  hstatRate := 0
  pwrcap := 8000
  power := 0
  temp := 0
  clock := 4000
  clockAt := 0
  clearSince := none
  thermalStop := false
  stoppedAt := 0
  msiDue := []
  msiAt := []
  fusedMin := 0
  boot := {}
  resyncCounters := []
  inbox := []
  wire := []
  hostOut := []
  mgmtOut := []
  agenda := []
  fresh := 0
  nextId := 1

end Sys2Proof.Machine
end

