-- ==== Sys2Proof/Machine/Access.lean ====
section
/-! DEFINITION. Named access to the parts of the state: groups, fibres, registers, teams, grids, units. -/
namespace Sys2Proof.Machine

/-! ### Units by number -/

/-- Group `gid`. -/
def State.grp (s : State) (gid : Nat) : Group := tget {} s.groups gid
/-- Group `gid` changed. -/
def State.setG (s : State) (gid : Nat) (f : Group → Group) : State := { s with groups := tmod {} s.groups gid f }
/-- The issuing group. -/
def State.g (s : State) : Group := s.grp s.cur.gid
/-- The issuing group changed. -/
def State.modG (s : State) (f : Group → Group) : State := s.setG s.cur.gid f
/-- Team `tid`. -/
def State.team (s : State) (tid : Nat) : Team := tget {} s.teams tid
/-- Team `tid` changed. -/
def State.setT (s : State) (tid : Nat) (f : Team → Team) : State := { s with teams := tmod {} s.teams tid f }
/-- The issuing group's team. -/
def State.tm (s : State) : Team := s.team s.g.tid
/-- The issuing group's team changed. -/
def State.modT (s : State) (f : Team → Team) : State := s.setT s.g.tid f
/-- Grid `n`. -/
def State.grid (s : State) (n : Nat) : Grid := tget {} s.grids n
/-- Grid `n` changed. -/
def State.setGrid (s : State) (n : Nat) (f : Grid → Grid) : State := { s with grids := tmod {} s.grids n f }
/-- Logical core `n`. -/
def State.core (s : State) (n : Nat) : Core := tget {} s.cores n
/-- Logical core `n` changed. -/
def State.setC (s : State) (n : Nat) (f : Core → Core) : State := { s with cores := tmod {} s.cores n f }
/-- Cluster `n`. -/
def State.cluster (s : State) (n : Nat) : Cluster := tget {} s.clusters n
/-- Cluster `n` changed. -/
def State.setCl (s : State) (n : Nat) (f : Cluster → Cluster) : State := { s with clusters := tmod {} s.clusters n f }
/-- Die `n`. -/
def State.die (s : State) (n : Nat) : Die := tget {} s.dies n
/-- Die `n` changed. -/
def State.setD (s : State) (n : Nat) (f : Die → Die) : State := { s with dies := tmod {} s.dies n f }
/-- Stack `n`. -/
def State.stack (s : State) (n : Nat) : Stack := tget {} s.memStacks n
/-- Stack `n` changed. -/
def State.setS (s : State) (n : Nat) (f : Stack → Stack) : State := { s with memStacks := tmod {} s.memStacks n f }
/-- Cellar core `n`. -/
def State.cellar (s : State) (n : Nat) : Cellar := tget {} s.cellars n
/-- Cellar core `n` changed. -/
def State.setCe (s : State) (n : Nat) (f : Cellar → Cellar) : State := { s with cellars := tmod {} s.cellars n f }
/-- Context `n`. -/
def State.ctx (s : State) (n : Nat) : Ctx := tget {} s.ctxs n
/-- Context `n` changed. -/
def State.setX (s : State) (n : Nat) (f : Ctx → Ctx) : State := { s with ctxs := tmod {} s.ctxs n f }
/-- Work queue `n`; queue 0 is privileged from reset (16 R328). -/
def State.queue (s : State) (n : Nat) : WQueue := tget {} s.queues n
/-- Work queue `n` changed. -/
def State.setQ (s : State) (n : Nat) (f : WQueue → WQueue) : State := { s with queues := tmod {} s.queues n f }
/-- Call `n`. -/
def State.call (s : State) (n : Nat) : Call := tget {} s.calls n
/-- Call `n` changed. -/
def State.setCall (s : State) (n : Nat) (f : Call → Call) : State := { s with calls := tmod {} s.calls n f }
/-- Copy engine `n`. -/
def State.engine (s : State) (n : Nat) : Engine := tget {} s.engines n
/-- Copy engine `n` changed. -/
def State.setE (s : State) (n : Nat) (f : Engine → Engine) : State := { s with engines := tmod {} s.engines n f }
/-- Port `n`. -/
def State.port (s : State) (n : Nat) : Port := tget {} s.ports n
/-- Port `n` changed. -/
def State.setP (s : State) (n : Nat) (f : Port → Port) : State := { s with ports := tmod {} s.ports n f }

/-- One of the sixteen counters that RESYNC reports raised (17 Table 17.9; log 17). -/
def State.tally (s : State) (k : Nat) : State := { s with resyncCounters := tmod 0 s.resyncCounters k (· + 1) }

/-- A number not yet used, for a new group, team, grid, call, return or job (log 1). -/
def State.newId (s : State) : Nat × State := (s.nextId, { s with nextId := s.nextId + 1 })

/-- One of n outcomes that the spec leaves open, by a free value (log 2). -/
def State.pick (s : State) (n : Nat) : Nat × State :=
  ((Config.freeValue s.fresh).toNat % n, { s with fresh := s.fresh + 1 })

/-! ### Where things stand (01 R12 to R20) -/

/-- The cluster of a logical core: eight cores to a cluster (01 R12). -/
def clusterOfCore (core : Nat) : Nat := core / 8
/-- The die of a logical core: 128 cores to a die (01 R12). -/
def dieOfCore (core : Nat) : Nat := core / 128
/-- The die of a cluster: 16 clusters to a die (01 R12). -/
def dieOfCluster (c : Nat) : Nat := c / 16
/-- The stack of a device address: PA bits 39:36 (01 R15). -/
def stackOf (pa : Nat) : Nat := pa / 2 ^ 36 % 16
/-- The die that owns a device address: two stacks to a die (01 R15). -/
def dieOfPa (pa : Nat) : Nat := stackOf pa / 2
/-- The stack of a cellar core: 32 cores to a stack (01 R20). -/
def stackOfCellar (c : Nat) : Nat := c / 32

/-- The core whose larder, L1 and buffers a group uses. -/
def Group.coreOf (g : Group) : Nat := g.place

/-- The die a group stands on. -/
def Group.die (g : Group) : Nat :=
  match g.kind with
  | .core => dieOfCore g.place
  | .sequencer => dieOfCluster g.place
  | .cellar => stackOfCellar g.place / 2

/-- The cluster a group uses. -/
def Group.cluster (g : Group) : Nat :=
  match g.kind with
  | .core => clusterOfCore g.place
  | .sequencer => g.place
  | .cellar => 0

/-- The group is a guest (15 R301). -/
def Group.isGuest (g : Group) : Bool := g.guest.isSome

/-! ### Fibres and registers (02 R28 to R36) -/

/-- The fibre in a lane. -/
def Group.fib (g : Group) (l : Nat) : Fibre := tget {} g.fibres l
/-- The group with a lane's fibre changed. -/
def Group.setF (g : Group) (l : Nat) (f : Fibre → Fibre) : Group := { g with fibres := tmod {} g.fibres l f }
/-- The lanes of a mask, ascending. -/
def Group.lanes (g : Group) (mask : Nat) : List Nat := lanesOf g.width mask
/-- The lanes of the issuing batch, ascending. -/
def State.batch (s : State) : List Nat := s.g.lanes s.cur.mask
/-- The lanes that hold a fibre at home. -/
def Group.liveLanes (g : Group) : List Nat := (List.range g.width).filter fun l => (g.fib l).life == .live
/-- The lanes whose fibre has not ended: at home or away. -/
def Group.unended (g : Group) : List Nat := (List.range g.width).filter fun l => (g.fib l).life != .free

/-- The window base of a lane's fibre (02 R32). -/
def Group.wb (g : Group) (l : Nat) : Nat := 8 * (g.fib l).wb8.toNat
/-- Physical index of V field r for the fibre in lane l (02 R32). -/
def Group.phys (g : Group) (l : Nat) (r : Reg) : Nat := g.wb l + r.toNat
/-- A lane of a physical V register (02 R31). -/
def Group.vlane (g : Group) (l p : Nat) : VLane := tget {} g.v (l * 256 + p)
/-- The value of a lane of a physical V register. -/
def Group.vval (g : Group) (l p : Nat) : Word := (g.vlane l p).val
/-- A lane of a physical V register written; a lane outside the file is never named (02 R33). -/
def Group.vput (g : Group) (l p : Nat) (x : VLane) : Group := { g with v := tput g.v (l * 256 + p) x }
/-- A lane of a V register written with a value that carries no error (02 R44). -/
def Group.vset (g : Group) (l p : Nat) (w : Word) : Group := g.vput l p { val := w }
/-- Consecutive V registers of a lane written. -/
def Group.vsets (g : Group) (l p : Nat) : List Word → Group
  | [] => g
  | w :: ws => (g.vset l p w).vsets l (p + 1) ws
/-- Every V register of a lane zeroed, with no poison (02 R29). -/
def Group.vzero (g : Group) (l : Nat) : Group := { g with v := g.v.filter fun e => e.1 / 256 != l }
/-- S register i (02 R34). -/
def Group.sreg (g : Group) (i : Nat) : Word := tget 0 g.sregs i
/-- S register i written. -/
def Group.sset (g : Group) (i : Nat) (w : Word) : Group := { g with sregs := tput g.sregs i w }
/-- Consecutive S registers written. -/
def Group.ssets (g : Group) (i : Nat) : List Word → Group
  | [] => g
  | w :: ws => (g.sset i w).ssets (i + 1) ws
/-- An S pair as 64 bits, low half first (05 R83). -/
def Group.spair (g : Group) (i : Nat) : Dword := g.sreg (i + 1) ++ g.sreg i
/-- A lane's V pair as 64 bits (05 R83). -/
def Group.vpair (g : Group) (l p : Nat) : Dword := g.vval l (p + 1) ++ g.vval l p
/-- P register i of the fibre in lane l. -/
def Group.pbit (g : Group) (l i : Nat) : Bool := (g.fib l).preds.getLsbD i
/-- A bit of a 16-bit word set or cleared. -/
def setBit16 (w : BitVec 16) (i : Nat) (b : Bool) : BitVec 16 :=
  if b then w ||| BitVec.ofNat 16 (2 ^ i) else w &&& ~~~(BitVec.ofNat 16 (2 ^ i))
/-- P register i of the fibre in lane l written. -/
def Group.pset (g : Group) (l i : Nat) (b : Bool) : Group :=
  g.setF l fun f => { f with preds := setBit16 f.preds i b }
/-- Row r of tile t: 32 bytes (02 R31). -/
def Group.trow (g : Group) (t r : Nat) : List Byte := tget (List.replicate 32 0) g.tiles (t * 32 + r)
/-- Row r of tile t written. -/
def Group.tsetRow (g : Group) (t r : Nat) (bs : List Byte) : Group := { g with tiles := tput g.tiles (t * 32 + r) bs }
/-- The 1,024 bytes of tile t. -/
def Group.tile (g : Group) (t : Nat) : List Byte := (List.range 32).flatMap fun r => g.trow t r
/-- The 1,024 bytes of tile t written. -/
def Group.tset (g : Group) (t : Nat) (bs : List Byte) : Group :=
  (List.range 32).foldl (fun g r => g.tsetRow t r ((bs.drop (32 * r)).take 32)) g
/-- Apply an update for each lane of a list. -/
def Group.forLanes (g : Group) (ls : List Nat) (f : Group → Nat → Group) : Group := ls.foldl f g

/-- The value of a counter (02 R43). -/
def Group.ctr (g : Group) : Ctr → Nat
  | .ld => g.ld | .st => g.st | .cp => g.cp | .tl => g.tl
/-- A counter changed. -/
def Group.setCtr (g : Group) (c : Ctr) (f : Nat → Nat) : Group :=
  match c with
  | .ld => { g with ld := f g.ld } | .st => { g with st := f g.st }
  | .cp => { g with cp := f g.cp } | .tl => { g with tl := f g.tl }
/-- A register's scoreboard bit: some operation under way will write it (02 R42). -/
def Group.pending (g : Group) (r : RegRef) : Bool := g.returns.any fun q => q.regs.contains r
/-- A return begun: its counter rises by one (02 R43). -/
def Group.begin (g : Group) (r : Return) : Group :=
  let g := match r.ctr with | some c => g.setCtr c (· + 1) | none => g
  { g with returns := g.returns ++ [r] }
/-- A return's record. -/
def Group.ret? (g : Group) (id : Nat) : Option Return := g.returns.find? fun r => r.id == id
/-- A return changed. -/
def Group.setRet (g : Group) (id : Nat) (f : Return → Return) : Group :=
  { g with returns := g.returns.map fun r => if r.id = id then f r else r }
/-- A return with nothing left ends: its counter falls and its scoreboard bits clear (02 R42, R43). -/
def Group.settle (g : Group) (id : Nat) : Group :=
  match g.ret? id with
  | some r =>
    if r.lanes.isEmpty && r.left = 0 then
      let g := match r.ctr with | some c => g.setCtr c (· - 1) | none => g
      { g with returns := g.returns.filter fun q => q.id != id }
    else g
  | none => g
/-- One of a return's separately performed events is done. -/
def Group.oneDone (g : Group) (id : Nat) : Group := (g.setRet id fun r => { r with left := r.left - 1 }).settle id
/-- A register write of a return lands (02 R42); a freed lane discards it (15 R292). -/
def Group.land (g : Group) : RegWrite → Group
  | .v l p x => if (g.fib l).life = .free then g else g.vput l p x
  | .s i w => g.sset i w
  | .p l i b => if (g.fib l).life = .free then g else g.pset l i b
  | .tile t r bs => g.tsetRow t r bs

/-- A return lane has landed: its writes are made and it leaves the return. -/
def Group.landLane (g : Group) (ret lane : Nat) (ws : List RegWrite) : Group :=
  ((ws.foldl Group.land g).setRet ret fun r => { r with lanes := r.lanes.filter fun x => x.lane != lane }).settle ret

/-! ### Launch record fields (13 Tables 13.4, 13.5) -/

/-- A field of a grid's launch record. -/
def Grid.fld (g : Grid) (off n : Nat) : Nat := fieldAt g.launch off n
/-- User trap vector (13 Table 13.4). -/
def Grid.trapvec (g : Grid) : Nat := g.fld 0x80 8
/-- Trap window in V registers: 0 means 16 (13 Table 13.4). -/
def Grid.trapwin (g : Grid) : Nat := if g.fld 0x2F 1 = 0 then 16 else g.fld 0x2F 1
/-- FLAGS (13 Table 13.6). -/
def Grid.flags (g : Grid) : Nat := g.fld 0x22 2
/-- The grid of the issuing group. -/
def State.gr (s : State) : Grid := s.grid s.tm.grid
/-- The issuing group is a guest of another module's launch. -/
def State.foreign (s : State) : Bool := match s.g.guest with | some i => i.homeGid == 0 | none => false
/-- The grid whose launch the issuing group's fibres belong to: a guest's is its home's. -/
def State.launch (s : State) : Grid :=
  match s.g.guest with
  | some i => s.grid (s.team (s.grp i.homeGid).tid).grid
  | none => s.gr
/-- A format slot's 64 bytes: of the grid, or of the call on a cellar core (05 R96, R97; 14 R275). -/
def State.slotBytes (s : State) (k : Nat) : List Byte :=
  match s.g.call with
  | some (c, _) => sliceAt (s.call c).slots (64 * k) 64
  | none => sliceAt s.launch.slots (64 * k) 64

end Sys2Proof.Machine
end

