-- ==== Sys2Proof/Machine/Float.lean ====
section
/-! DEFINITION. Floating-point values and exact arithmetic on them, rounded to the bit (05 R79 to R95, 06 R103). Flags are a number of
six bits: 1 NX, 2 UF, 4 OF, 8 DZ, 16 NV, 32 OUTFULL (02 Table 2.5). -/
namespace Sys2Proof.Machine

/-- A format: exponent bits, fraction bits, and whether it is F8E4 (05 Table 5.1, R80). -/
structure Fmt where
  eb : Nat
  mb : Nat
  e4 : Bool := false
  deriving DecidableEq, Repr

/-- 05 Table 5.1. -/
def fF32 : Fmt := ⟨8, 23, false⟩
/-- 05 Table 5.1. -/
def fF16 : Fmt := ⟨5, 10, false⟩
/-- 05 Table 5.1. -/
def fBF16 : Fmt := ⟨8, 7, false⟩
/-- 05 Table 5.1. -/
def fF64 : Fmt := ⟨11, 52, false⟩
/-- 05 Table 5.1. -/
def fF8E4 : Fmt := ⟨4, 3, true⟩
/-- 05 Table 5.1. -/
def fF8E5 : Fmt := ⟨5, 2, false⟩

/-- Exponent bias. -/
def Fmt.bias (f : Fmt) : Int := 2 ^ (f.eb - 1) - 1
/-- Position of the sign bit. -/
def Fmt.sbit (f : Fmt) : Nat := f.eb + f.mb
/-- Encoding of the first magnitude that is not finite (R80). -/
def Fmt.infBits (f : Fmt) : Nat := if f.e4 then 0x7F else (2 ^ f.eb - 1) * 2 ^ f.mb
/-- Encoding of the greatest finite magnitude. -/
def Fmt.maxBits (f : Fmt) : Nat := f.infBits - 1
/-- The canonical quiet NaN (05 Table 5.1). -/
def Fmt.qnan (f : Fmt) : Nat := if f.e4 then 0x7F else f.infBits + 2 ^ (f.mb - 1)
/-- An encoding with a sign. -/
def Fmt.signed (f : Fmt) (s : Bool) (w : Nat) : Nat := w + b2n s * 2 ^ f.sbit

/-- A value: a NaN with sign, fraction and signalling mark; an infinity; or ±m × 2^e. -/
inductive FV where
  | nan (s : Bool) (frac : Nat) (sig : Bool)
  | inf (s : Bool)
  | fin (s : Bool) (m : Nat) (e : Int)
  deriving DecidableEq, Repr

/-- The modes that govern a result (02 Table 2.4, 05 R91). -/
structure FpMode where
  daz : Bool := false
  ftz : Bool := false
  rmode : Rnd := .rne
  narrowRne : Bool := false
  nanprop : Bool := false
  unfused : Bool := false
  legacy : Bool := false
  deriving DecidableEq, Repr

/-- FPMODE's fields (02 Table 2.4). -/
def fpModeOf (w : Word) : FpMode where
  daz := w.getLsbD 0
  ftz := w.getLsbD 1
  rmode := match w.toNat / 4 % 4 with | 0 => .rne | 1 => .rz | 2 => .rd | _ => .ru
  narrowRne := w.getLsbD 4
  nanprop := w.getLsbD 5
  unfused := w.getLsbD 6
  legacy := w.getLsbD 7

/-- The modes of operations away from the issuing core (05 R93). -/
def fpAway : FpMode := {}

/-- Read an encoding (05 R79, R80); DAZ reads a denormal as zero of its sign (R90). -/
def unpack (f : Fmt) (daz : Bool) (w : Nat) : FV :=
  let s := bitOf w f.sbit
  let ex := w / 2 ^ f.mb % 2 ^ f.eb
  let fr := w % 2 ^ f.mb
  if f.e4 then
    if ex = 15 ∧ fr = 7 then .nan s fr false
    else if ex = 0 then .fin s (if daz then 0 else fr) (1 - f.bias - f.mb)
    else .fin s (2 ^ f.mb + fr) (ex - f.bias - f.mb)
  else if ex = 2 ^ f.eb - 1 then
    if fr = 0 then .inf s else .nan s fr (fr < 2 ^ (f.mb - 1))
  else if ex = 0 then .fin s (if daz then 0 else fr) (1 - f.bias - f.mb)
  else .fin s (2 ^ f.mb + fr) (ex - f.bias - f.mb)

/-- The value is a zero. -/
def FV.isZero : FV → Bool | .fin _ m _ => m == 0 | _ => false
/-- The value is a NaN. -/
def FV.isNan : FV → Bool | .nan _ _ _ => true | _ => false
/-- The value is a signalling NaN. -/
def FV.isSig : FV → Bool | .nan _ _ g => g | _ => false
/-- The value's sign. -/
def FV.sign : FV → Bool | .nan s _ _ => s | .inf s => s | .fin s _ _ => s
/-- The value with its sign inverted where n is set. -/
def FV.neg (n : Bool) : FV → FV
  | .nan s f g => .nan s f g
  | .inf s => .inf (s != n)
  | .fin s m e => .fin (s != n) m e

/-- Number of bits of m. -/
def bitLen (m : Nat) : Nat := if m = 0 then 0 else m.log2 + 1

/-- Whether a discarded part rounds the magnitude up (05 R87): quotient, remainder of 2^k, and whether more lies below. -/
def roundsUp (mode : Rnd) (s : Bool) (q rem pow : Nat) (sticky : Bool) : Bool :=
  let exact := rem == 0 && !sticky
  match mode with
  | .dflt | .rne => decide (pow < 2 * rem) || (2 * rem == pow && (sticky || q % 2 == 1))
  | .rna => decide (pow ≤ 2 * rem)
  | .rz => false
  | .rd => s && !exact
  | .ru => !s && !exact

/-- ±(m, with more below if sticky) × 2^e rounded to a multiple of 2^k: the multiple and whether it is inexact. With sticky, m holds
more bits than the result, so k > e. -/
def roundAt (mode : Rnd) (s : Bool) (m : Nat) (e k : Int) (sticky : Bool) : Nat × Bool :=
  if k ≤ e then (m * 2 ^ (e - k).toNat, sticky)
  else
    let pow := 2 ^ (k - e).toNat
    let q := m / pow
    let rem := m % pow
    (if roundsUp mode s q rem pow sticky then q + 1 else q, rem != 0 || sticky)

/-- The encoding and flags of ±(m, sticky) × 2^e, nonzero, rounded once to a format (05 R87 to R90, R95 for F8E4). -/
def roundPack (f : Fmt) (mode : Rnd) (ftz : Bool) (s : Bool) (m : Nat) (e : Int) (sticky : Bool) : Nat × Nat :=
  let emin := 1 - f.bias
  let ue := e + bitLen m - (f.mb + 1)
  let u := roundAt mode s m e ue sticky
  let tiny : Bool := if ue + f.mb < emin then decide (¬ (u.1 = 2 ^ (f.mb + 1) ∧ ue + f.mb + 1 = emin)) else false
  if tiny && ftz then (f.signed s 0, 3)
  else
    let k := max ue (emin - f.mb)
    let r := roundAt mode s m e k sticky
    let mag := if r.1 < 2 ^ f.mb then r.1 else ((k + f.mb + f.bias) * 2 ^ f.mb).toNat + (r.1 - 2 ^ f.mb)
    if f.infBits ≤ mag then
      if f.e4 then (f.signed s f.maxBits, 5)
      else
        let toMax := match mode with
          | .rz => true | .rd => !s | .ru => s | _ => false
        (f.signed s (if toMax then f.maxBits else f.infBits), 5)
    else (f.signed s mag, (if r.2 then 1 else 0) ||| (if tiny && r.2 then 2 else 0))

/-- A NaN carried to a format with its quiet bit set (05 R81). -/
def quietNan (src dst : Fmt) (s : Bool) (frac : Nat) : Nat :=
  if dst.e4 then dst.signed s 0x7F
  else
    let fr := if src.mb ≤ dst.mb then frac * 2 ^ (dst.mb - src.mb) else frac / 2 ^ (src.mb - dst.mb)
    dst.signed s (dst.infBits + (fr ||| 2 ^ (dst.mb - 1)))

/-- The NaN that a result is, from the operands in order (05 R81). -/
def nanFrom (md : FpMode) (dst : Fmt) : List (Fmt × FV) → Nat
  | [] => dst.qnan
  | (f, .nan s fr _) :: l => if md.nanprop then quietNan f dst s fr else nanFrom md dst l
  | _ :: l => nanFrom md dst l

/-- NV for a signalling operand (05 R81). -/
def sigFlag (l : List (Fmt × FV)) : Nat := if l.any (fun p => p.2.isSig) then 16 else 0

/-- A finite term as an integer multiple of 2^e. -/
def signedInt (s : Bool) (m : Nat) : Int := if s then -(m : Int) else m

/-- A term of an exact sum: finite ±m × 2^e, or an infinity. -/
inductive Term where
  | fin (s : Bool) (m : Nat) (e : Int)
  | inf (s : Bool)
  /-- an invalid product, 0 × ∞ -/
  | bad
  deriving DecidableEq, Repr

/-- A value as a term; a NaN is handled before. -/
def FV.term : FV → Term
  | .fin s m e => .fin s m e
  | .inf s => .inf s
  | .nan _ _ _ => .bad

/-- The exact product of two values that are not NaN (06 R103). -/
def mulTerm (a b : FV) : Term :=
  match a, b with
  | .fin s m e, .fin t n k => .fin (s != t) (m * n) (e + k)
  | .inf s, .inf t => .inf (s != t)
  | .inf s, .fin t n _ => if n = 0 then .bad else .inf (s != t)
  | .fin s m _, .inf t => if m = 0 then .bad else .inf (s != t)
  | _, _ => .bad

/-- The term negated where n is set. -/
def Term.neg (n : Bool) : Term → Term
  | .fin s m e => .fin (s != n) m e
  | .inf s => .inf (s != n)
  | .bad => .bad

/-- The least exponent of the finite terms. -/
def minExp : List Term → Int → Int
  | [], e => e
  | .fin _ m k :: l, e => minExp l (if m = 0 then e else min e k)
  | _ :: l, e => minExp l e

/-- Exact sum of the finite terms, as a multiple of 2^e. -/
def sumInt (e : Int) : List Term → Int
  | [] => 0
  | .fin s m k :: l => signedInt s m * 2 ^ (k - e).toNat + sumInt e l
  | _ :: l => sumInt e l

/-- The sign of an exact zero sum (06 R103, 05 R141): the terms' sign when every term is a zero of one sign, otherwise + (− under RD). -/
def zeroSign (mode : Rnd) (ts : List Term) : Bool :=
  if ts.all (fun t => match t with | .fin s m _ => s && m == 0 | _ => false) then true
  else if ts.all (fun t => match t with | .fin s m _ => !s && m == 0 | _ => false) then false
  else mode == .rd

/-- Terms whose sum is invalid: 0 × ∞, or infinities of both signs (05 R94). -/
def invalidSum (ts : List Term) : Bool :=
  ts.any (fun t => t == .bad) || (ts.any (fun t => t == .inf false) && ts.any fun t => t == .inf true)

/-- An exact sum of terms rounded once (05 R88 to R90; 06 R103): ∞ − ∞ and 0 × ∞ are invalid. -/
def sumRound (f : Fmt) (mode : Rnd) (ftz : Bool) (ts : List Term) : Nat × Nat :=
  if invalidSum ts then (f.qnan, 16)
  else if ts.any (fun t => t == .inf false) then (f.infBits, 0)
  else if ts.any (fun t => t == .inf true) then (f.signed true f.infBits, 0)
  else
    let e := minExp ts 10000
    let x := sumInt e ts
    if x = 0 then (f.signed (zeroSign mode ts) 0, 0)
    else roundPack f mode ftz (x < 0) x.natAbs e false

/-- An operation on operands: NaNs first, then the exact terms (05 R81, 06 R103). -/
def fpOp (md : FpMode) (dst : Fmt) (mode : Rnd) (ops : List (Fmt × FV)) (ts : List Term) : Nat × Nat :=
  if ops.any (fun p => p.2.isNan) then
    (nanFrom md dst ops, sigFlag ops)
  else sumRound dst mode md.ftz ts

/-- a + b, or a − b (06 R117). -/
def fAdd (f : Fmt) (md : FpMode) (sub : Bool) (a b : Nat) : Nat × Nat :=
  let x := unpack f md.daz a
  let y := unpack f md.daz b
  fpOp md f md.rmode [(f, x), (f, y)] [x.term, (y.neg sub).term]

/-- a × b (06 R117). A product of zero keeps the exclusive OR of the signs. -/
def fMul (f : Fmt) (md : FpMode) (a b : Nat) : Nat × Nat :=
  let x := unpack f md.daz a
  let y := unpack f md.daz b
  fpOp md f md.rmode [(f, x), (f, y)] [mulTerm x y]

/-- ±(a × b) ± c with a and b in one format and c and the result in another (06 R122); FMA_UNFUSED rounds the product first (05 R91). -/
def fFma (fi fo : Fmt) (md : FpMode) (np nc : Bool) (a b c : Nat) : Nat × Nat :=
  let x := unpack fi md.daz a
  let y := unpack fi md.daz b
  let z := unpack fo md.daz c
  let ops := [(fi, x), (fi, y), (fo, z)]
  let p := sumRound fo md.rmode md.ftz [mulTerm x y]
  if ops.any (fun p => p.2.isNan) then
    -- beside a NaN addend the product is invalid or, unfused, rounded with its flags (05 R91, R94)
    let fl := if x.isNan || y.isNan then 0 else if md.unfused then p.2 else if mulTerm x y == .bad then 16 else 0
    (nanFrom md fo ops, sigFlag ops ||| fl)
  else if md.unfused then
    match unpack fo false p.1 with
    | .nan _ _ _ => (fo.qnan, p.2)
    | v =>
      let r := sumRound fo md.rmode md.ftz [(v.neg np).term, (z.neg nc).term]
      (r.1, p.2 ||| r.2)
  else sumRound fo md.rmode md.ftz [(mulTerm x y).neg np, (z.neg nc).term]

/-- c + Σ aᵢ × bᵢ, exact, rounded once to F32 (06 R123). Under NANPROP the elements of a stand first, then those of b, then c, and the terms that
hold no NaN are invalid or not among themselves (DEDUCED, log 98). -/
def fDot (f : Fmt) (md : FpMode) (ps : List (Nat × Nat)) (c : Nat) : Nat × Nat :=
  let xs := ps.map fun p => (unpack f md.daz p.1, unpack f md.daz p.2)
  let z := unpack fF32 md.daz c
  let ops := (xs.map fun p => (f, p.1)) ++ (xs.map fun p => (f, p.2)) ++ [(fF32, z)]
  if ops.any (fun p => p.2.isNan) then
    let ts := (xs.filter fun p => !p.1.isNan && !p.2.isNan).map (fun p => mulTerm p.1 p.2) ++ (if z.isNan then [] else [z.term])
    (nanFrom md fF32 ops, sigFlag ops ||| (if invalidSum ts then 16 else 0))
  else sumRound fF32 md.rmode md.ftz ((xs.map fun p => mulTerm p.1 p.2) ++ [z.term])

/-- A value that is not NaN as a comparison key: −0 and +0 are one value. -/
def FV.key (lo : Int) : FV → Int
  | .fin s m e => signedInt s m * 2 ^ (e - lo).toNat
  | .inf s => signedInt s (2 ^ 5000)
  | .nan _ _ _ => 0

/-- Least exponent of any format's values. -/
def expFloor : Int := -1100

/-- a < b by value; false with a NaN; −0 is not below +0. -/
def fvLt (a b : FV) : Bool := !a.isNan && !b.isNan && decide (a.key expFloor < b.key expFloor)
/-- a = b by value; false with a NaN. -/
def fvEq (a b : FV) : Bool := !a.isNan && !b.isNan && decide (a.key expFloor = b.key expFloor)

/-- An operand as read: a denormal that DAZ zeroed is zero of its sign, anything else its bits. -/
def asRead (f : Fmt) (w : Nat) (x : FV) : Nat := if x.isZero then f.signed x.sign 0 else w % 2 ^ (f.sbit + 1)

/-- An operand that FMIN or FMAX selects, as its result: a NaN's bits as read, and a value under R90, so that FTZ makes a tiny one zero with UF
and NX (05 R90, R91; 06 R103, log 9). -/
def selected (f : Fmt) (md : FpMode) (w : Nat) (x : FV) : Nat × Nat :=
  match x with
  | .fin s m e => if m = 0 then (f.signed s 0, 0) else roundPack f md.rmode md.ftz s m e false
  | .inf _ => (w % 2 ^ (f.sbit + 1), 0)
  | .nan _ _ _ => (w % 2 ^ (f.sbit + 1), 0)

/-- FMIN or FMAX (05 R92). -/
def fMinMax (f : Fmt) (md : FpMode) (isMax : Bool) (a b : Nat) : Nat × Nat :=
  let x := unpack f md.daz a
  let y := unpack f md.daz b
  let fl := sigFlag [(f, x), (f, y)]
  let less := fvLt x y || (!md.legacy && fvEq x y && x.sign && !y.sign)
  let more := fvLt y x || (!md.legacy && fvEq x y && y.sign && !x.sign)
  let first := !x.isNan && (if y.isNan then !md.legacy else if isMax then more else less)
  if !md.legacy && x.isNan && y.isNan then (nanFrom md f [(f, x), (f, y)], fl)
  else
    let r := if first then selected f md a x else selected f md b y
    (r.1, fl ||| r.2)

/-- FCMP's result and flag (06 R119). -/
def fCmp (m : FcmpForm) (md : FpMode) (a b : Nat) : Bool × Nat :=
  let x := unpack fF32 md.daz a
  let y := unpack fF32 md.daz b
  let un := x.isNan || y.isNan
  let ordered := match m with | .lt | .le | .gt | .ge => true | _ => false
  let r := match m with
    | .eq => fvEq x y
    | .ne => un || !fvEq x y
    | .lt => fvLt x y
    | .le => fvLt x y || fvEq x y
    | .gt => fvLt y x
    | .ge => fvLt y x || fvEq x y
    | .un => un
    | .ord => !un
  (r, if x.isSig || y.isSig || (ordered && un) then 16 else 0)

/-- The class mask of an F32 (06 R120). -/
def fClass (w : Nat) : Nat :=
  match unpack fF32 false w with
  | .nan _ _ g => if g then 1 else 2
  | .inf s => if s then 4 else 512
  | .fin s m _ =>
    if m = 0 then (if s then 32 else 64)
    else if m < 2 ^ 23 then (if s then 16 else 128) else (if s then 8 else 256)

/-- A finite value rounded to an integer, and whether it is inexact (05 R87). -/
def roundInt (mode : Rnd) (s : Bool) (m : Nat) (e : Int) : Int × Bool :=
  let r := roundAt mode s m e 0 false
  (signedInt s r.1, r.2)

/-- FRNDN, FRNDZ, FRNDD (06 R120): integral, never inexact; FTZ does not meet an integral result. -/
def fRound (md : FpMode) (mode : Rnd) (w : Nat) : Nat × Nat :=
  let x := unpack fF32 md.daz w
  match x with
  | .nan _ _ _ => (nanFrom md fF32 [(fF32, x)], sigFlag [(fF32, x)])
  | .inf s => (fF32.signed s fF32.infBits, 0)
  | .fin s m e =>
    let r := roundAt mode s m e 0 false
    if m = 0 ∨ r.1 = 0 then (fF32.signed s 0, 0)
    else if 0 ≤ e then (w, 0)
    else ((roundPack fF32 .rne false s r.1 0 false).1, 0)

/-- FSCALE: a × 2^n (06 R120). -/
def fScale (md : FpMode) (w : Nat) (n : Int) : Nat × Nat :=
  let x := unpack fF32 md.daz w
  match x with
  | .nan _ _ _ => (nanFrom md fF32 [(fF32, x)], sigFlag [(fF32, x)])
  | .inf s => (fF32.signed s fF32.infBits, 0)
  | .fin s m e =>
    if m = 0 then (fF32.signed s 0, 0)
    else roundPack fF32 md.rmode md.ftz s m (e + clampInt (-1000) 1000 n) false

/-- Integer square root: the fuel bounds the bits. -/
def isqrt : Nat → Nat → Nat
  | 0, _ => 0
  | k + 1, n =>
    let r := 2 * isqrt k (n / 4)
    if (r + 1) * (r + 1) ≤ n then r + 1 else r

/-! ### Correctly rounded transcendental functions (06 R121): fixed point with 512 fraction bits (log 8) -/

/-- Fraction bits of the fixed-point values. -/
def fpx : Nat := 512
/-- π × 2^512, rounded down. -/
def piFix : Nat := 42121870893450636219446821484559388105255997313489254605594685088103805782276098919793885372247726346443771296916333485327292916625599161542353774203832599

/-- Σ rᵏ / k! × 2^512 for k below the fuel, from term k = i. -/
def expSum (r : Nat) : Nat → Nat → Nat → Nat
  | 0, _, _ => 0
  | fuel + 1, i, term => term + expSum r fuel (i + 1) (term * r / 2 ^ fpx / (i + 1))

/-- e^r × 2^512 for r below 1. -/
def expFix (r : Nat) : Nat := expSum r 120 0 (2 ^ fpx)

/-- Σ z^(2k+1) / (2k+1) × 2^512. -/
def atanhSum (z2 : Nat) : Nat → Nat → Nat → Nat
  | 0, _, _ => 0
  | fuel + 1, i, p => p / (2 * i + 1) + atanhSum z2 fuel (i + 1) (p * z2 / 2 ^ fpx)

/-- ln(n / d) × 2^512 for 1 ≤ n / d ≤ 2, by 2 atanh((n − d) / (n + d)). -/
def lnFix (n d : Nat) : Nat :=
  let z := (n - d) * 2 ^ fpx / (n + d)
  2 * atanhSum (z * z / 2 ^ fpx) 180 0 z

/-- ln 2 × 2^512. -/
def ln2Fix : Nat := lnFix 2 1

/-- Alternating Σ (−1)^k x^(2k + o) / (2k + o)! × 2^512, first term given. -/
def altSum (x2 : Nat) : Nat → Nat → Nat → Int
  | 0, _, _ => 0
  | fuel + 1, i, t => (t : Int) - altSum x2 fuel (i + 2) (t * x2 / 2 ^ fpx / ((i + 1) * (i + 2)))

/-- sin x × 2^512 for 0 ≤ x < 1. -/
def sinFix (x : Nat) : Int := altSum (x * x / 2 ^ fpx) 70 1 x
/-- cos x × 2^512 for 0 ≤ x < 1. -/
def cosFix (x : Nat) : Int := altSum (x * x / 2 ^ fpx) 70 0 (2 ^ fpx)

/-- A fixed-point result that is known not to be a representable value, rounded to nearest even F32 (06 R121). -/
def packFix (md : FpMode) (s : Bool) (x : Nat) (e : Int) : Nat × Nat :=
  roundPack fF32 .rne md.ftz s (x / 2 ^ 64) (e - fpx + 64) true

/-- m × 2^e as 512-bit fixed point, for e ≥ −512. -/
def toFix (m : Nat) (e : Int) : Nat := m * 2 ^ (e + fpx).toNat

/-- FEXP2 of ±m × 2^e, nonzero. -/
def exp2Fin (md : FpMode) (s : Bool) (m : Nat) (e : Int) : Nat × Nat :=
  if 8 < e + bitLen m then roundPack fF32 .rne md.ftz false 1 (if s then -1000 else 1000) false
  else
    let x := signedInt s (toFix m e)
    let k := x / 2 ^ fpx
    let fr := (x % 2 ^ fpx).toNat
    if fr = 0 then roundPack fF32 .rne md.ftz false 1 k false
    else packFix md false (expFix (fr * ln2Fix / 2 ^ fpx)) k

/-- FLOG2 of m × 2^e, positive. -/
def log2Fin (md : FpMode) (m : Nat) (e : Int) : Nat × Nat :=
  let l := bitLen m - 1
  let k := e + l
  if m = 2 ^ l then
    (if k = 0 then (0, 0) else roundPack fF32 .rne md.ftz (k < 0) k.natAbs 0 false)
  else
    let fr := lnFix m (2 ^ l) * 2 ^ fpx / ln2Fix
    let x := k * 2 ^ fpx + fr
    packFix md (x < 0) x.natAbs 0

/-- Quadrant and remainder of m × 2^e by π/2, remainder in [−π/4, π/4] as 512-bit fixed point. -/
def reducePi (m : Nat) (e : Int) : Nat × Int :=
  let a := toFix m e
  let q := (2 * a + piFix / 2) / piFix
  (q % 4, (a : Int) - (q * piFix / 2 : Nat))

/-- FSIN or FCOS of ±m × 2^e, nonzero. -/
def sinCosFin (md : FpMode) (cos : Bool) (s : Bool) (m : Nat) (e : Int) : Nat × Nat :=
  let (q, r) := reducePi m e
  let q := if cos then q + 1 else q
  let v := if q % 2 = 0 then (if r < 0 then -sinFix r.natAbs else sinFix r.natAbs) else cosFix r.natAbs
  let v := if q % 4 < 2 then v else -v
  let v := if s && !cos then -v else v
  packFix md (v < 0) v.natAbs 0

/-- FTANH of ±m × 2^e, nonzero: (e^2x − 1) / (e^2x + 1). -/
def tanhFin (md : FpMode) (s : Bool) (m : Nat) (e : Int) : Nat × Nat :=
  if 6 < e + bitLen m then packFix md s (2 ^ fpx - 2 ^ 80) 0
  else
    let y := 2 * toFix m e
    let k := y / ln2Fix
    let ex := expFix (y % ln2Fix) * 2 ^ k
    packFix md s ((ex - 2 ^ fpx) * 2 ^ fpx / (ex + 2 ^ fpx)) 0

/-- The FTRANS functions (06 Table 6.1). -/
inductive Trans where
  | rcp | rsq | sqrt | exp2 | log2 | sin | cos | tanh
  deriving DecidableEq, Repr

/-- A positive m × 2^e square root with at least 120 bits: mantissa, exponent, inexact. -/
def sqrtFin (m : Nat) (e : Int) : Nat × Int × Bool :=
  let m' := if e % 2 = 0 then m * 2 ^ 240 else 2 * m * 2 ^ 240
  let e' := if e % 2 = 0 then e else e - 1
  let r := isqrt 200 m'
  (r, e' / 2 - 120, r * r != m')

/-- 1 / (m × 2^e): mantissa, exponent, inexact. -/
def rcpFin (m : Nat) (e : Int) : Nat × Int × Bool :=
  (2 ^ 300 / m, -300 - e, 2 ^ 300 % m != 0)

/-- FTRANS (06 R121): the exact result rounded to nearest even, with Table 6.1's special inputs. -/
def fTrans (t : Trans) (md : FpMode) (w : Nat) : Nat × Nat :=
  let x := unpack fF32 md.daz w
  let inf (s : Bool) := fF32.signed s fF32.infBits
  let one := 0x3F800000
  let rp (s : Bool) (r : Nat × Int × Bool) := roundPack fF32 .rne md.ftz s r.1 r.2.1 r.2.2
  match x with
  | .nan _ _ _ => (nanFrom md fF32 [(fF32, x)], sigFlag [(fF32, x)])
  | .inf s =>
    match t with
    | .rcp => (fF32.signed s 0, 0)
    | .rsq => if s then (fF32.qnan, 16) else (0, 0)
    | .sqrt => if s then (fF32.qnan, 16) else (inf false, 0)
    | .exp2 => if s then (0, 0) else (inf false, 0)
    | .log2 => if s then (fF32.qnan, 16) else (inf false, 0)
    | .sin | .cos => (fF32.qnan, 16)
    | .tanh => (fF32.signed s one, 0)
  | .fin s m e =>
    if m = 0 then
      match t with
      | .rcp => (inf s, 8)
      | .rsq => (inf s, 8)
      | .sqrt => (fF32.signed s 0, 0)
      | .exp2 => (one, 0)
      | .log2 => (inf true, 8)
      | .sin => (fF32.signed s 0, 0)
      | .cos => (one, 0)
      | .tanh => (fF32.signed s 0, 0)
    else
      match t with
      | .rcp => rp s (rcpFin m e)
      | .rsq =>
        if s then (fF32.qnan, 16)
        else
          let q := sqrtFin m e
          if q.2.2 then
            -- 1/√a = √(1/a): the square root of a quotient that is not exact
            let r := isqrt 420 (2 ^ 800 / (if e % 2 = 0 then m else 2 * m))
            roundPack fF32 .rne md.ftz false r (-400 - (if e % 2 = 0 then e else e - 1) / 2) true
          else rp false (rcpFin q.1 q.2.1)
      | .sqrt => if s then (fF32.qnan, 16) else rp false (sqrtFin m e)
      | .exp2 => exp2Fin md s m e
      | .log2 => if s then (fF32.qnan, 16) else log2Fin md m e
      | .sin => sinCosFin md false s m e
      | .cos => sinCosFin md true s m e
      | .tanh => tanhFin md s m e

/-! ### Conversions (05 R95, 06 R124) -/

/-- A type's floating-point format. -/
def fmtOf : NumType → Fmt
  | .f32 => fF32 | .f16 => fF16 | .bf16 => fBF16 | .f64 => fF64 | .f8e4 => fF8E4 | .f8e5 => fF8E5 | _ => fF32
/-- Bits of a type. -/
def typeBits : NumType → Nat
  | .f32 | .i32 | .n32 => 32 | .f16 | .bf16 | .i16 | .n16 => 16 | .f64 | .i64 | .n64 => 64 | .f8e4 | .f8e5 | .i8 | .n8 => 8
/-- The integer type is signed. -/
def typeSigned : NumType → Bool | .i32 | .i16 | .i8 | .i64 => true | _ => false
/-- The value of an integer encoding. -/
def intOf (t : NumType) (w : Nat) : Int := if typeSigned t then sextInt (typeBits t) w else (w % 2 ^ typeBits t : Nat)
/-- Limits of an integer type. -/
def intMin (t : NumType) : Int := if typeSigned t then -(2 ^ (typeBits t - 1)) else 0
/-- Limits of an integer type. -/
def intMax (t : NumType) : Int := if typeSigned t then 2 ^ (typeBits t - 1) - 1 else 2 ^ typeBits t - 1

/-- The rounding mode of a conversion (05 R88 cases 1, 3, 4). -/
def cvtMode (md : FpMode) (r : Rnd) (dst : NumType) : Rnd :=
  if r != .dflt then r
  else if typeBits dst < 16 then (if md.narrowRne then .rne else .rna) else md.rmode

/-- CVT's result, low bits of the destination type, and flags (06 R124). -/
def convert (md : FpMode) (r : Rnd) (src dst : NumType) (w : Nat) : Nat × Nat :=
  let mode := cvtMode md r dst
  if isFloat src then
    let fs := fmtOf src
    let x := unpack fs md.daz w
    if isFloat dst then
      let fd := fmtOf dst
      match x with
      | .nan _ _ g => (nanFrom md fd [(fs, x)], if g then 16 else 0)
      | .inf s => if fd.e4 then (fd.signed s fd.maxBits, 16) else (fd.signed s fd.infBits, 0)
      | .fin s m e => if m = 0 then (fd.signed s 0, 0) else roundPack fd mode md.ftz s m e false
    else
      match x with
      | .nan _ _ _ => (0, 16)
      | .inf s => (toBits (typeBits dst) (if s then intMin dst else intMax dst), 16)
      | .fin s m e =>
        let q := roundInt mode s m e
        if q.1 < intMin dst then (toBits (typeBits dst) (intMin dst), 16)
        else if intMax dst < q.1 then (toBits (typeBits dst) (intMax dst), 16)
        else (toBits (typeBits dst) q.1, if q.2 then 1 else 0)
  else
    let v := intOf src w
    if isFloat dst then
      let fd := fmtOf dst
      if v = 0 then (0, 0) else roundPack fd mode md.ftz (v < 0) v.natAbs 0 false
    else (toBits (typeBits dst) (clampInt (intMin dst) (intMax dst) v), 0)

/-! ### Operations away from the core (05 R93) -/

/-- round_rne(a + b) in a format, canonical NaN, denormals kept (11 R214, R218). -/
def addAway (f : Fmt) (a b : Nat) : Nat := (fAdd f fpAway false a b).1
/-- minimumNumber or maximumNumber, −0 below +0, both NaN canonical (11 R214, R218). -/
def minMaxAway (f : Fmt) (isMax : Bool) (a b : Nat) : Nat := (fMinMax f fpAway isMax a b).1
/-- The larger magnitude as a non-negative F32; a NaN gives the canonical NaN (11 R214). -/
def maxAbsAway (a b : Nat) : Nat :=
  if (unpack fF32 false a).isNan || (unpack fF32 false b).isNan then fF32.qnan
  else max (a % 2 ^ 31) (b % 2 ^ 31)

end Sys2Proof.Machine
end

