-- ==== Sys2Proof/Machine/AtomOps.lean ====
section
/-! DEFINITION. What atomics and loft bank operations compute (11 R214, R216, R218; 09 R170; 05 R93). -/
namespace Sys2Proof.Machine

/-- The value an atomic writes (11 R218); none for a CAS that does not write. `bits` is 32, or 64 when wide. -/
def atomNew (op : AtomOp) (bits old v v2 : Nat) : Option Nat :=
  let lim := 2 ^ bits
  match op with
  | .add => some ((old + v) % lim)
  | .minI => some (if sextInt bits v < sextInt bits old then v else old)
  | .maxI => some (if sextInt bits old < sextInt bits v then v else old)
  | .minN => some (min old v)
  | .maxN => some (max old v)
  | .and => some (old &&& v)
  | .or => some (old ||| v)
  | .xor => some (old ^^^ v)
  | .xchg => some v
  | .cas => if old = v then some v2 else none
  | .faddF32 => some (addAway fF32 old v)
  | .fmaxF32 => some (minMaxAway fF32 true old v)
  | .faddBf16x2 => some (addAway fBF16 (old % 65536) (v % 65536) + 65536 * addAway fBF16 (old / 65536) (v / 65536))
  | .incw => some (if v ≤ old then 0 else old + 1)
  | .decw => some (if old = 0 ∨ v < old then v else old - 1)
  | .fmaxabsF32 => some (maxAbsAway old v)

/-- Bits 477:0 of an exact cell as the integer A (09 Table 9.4). -/
def cellSum (c : Nat) : Int := sextInt 478 c

/-- An exact cell after an add of a value of the type (09 R170). Reserved bits are written as zero. -/
def cellAdd (t : XaddType) (c v : Nat) : Nat :=
  let f := match t with | .f32 => fF32 | .f16 => fF16 | .bf16 => fBF16
  let flags := c / 2 ^ 478 % 16
  match unpack f false (v % 2 ^ (f.sbit + 1)) with
  | .nan _ _ _ => c % 2 ^ 478 + (flags ||| 1) * 2 ^ 478
  | .inf s => c % 2 ^ 478 + (flags ||| (if s then 4 else 2)) * 2 ^ 478
  | .fin s m e =>
    let x := cellSum c + signedInt s (m * 2 ^ (e + 149).toNat)
    let ovf := x < -(2 ^ 477) || (2 ^ 477 : Int) ≤ x
    toBits 478 x + (flags ||| (if ovf then 8 else 0)) * 2 ^ 478

/-- The F32 that XRD returns (09 R170). -/
def cellRead (c : Nat) : Nat :=
  let fl := c / 2 ^ 478 % 16
  if bitOf fl 0 || bitOf fl 3 || (bitOf fl 1 && bitOf fl 2) then fF32.qnan
  else if bitOf fl 1 then fF32.infBits
  else if bitOf fl 2 then fF32.signed true fF32.infBits
  else
    let a := cellSum c
    if a = 0 then 0 else (roundPack fF32 .rne false (decide (a < 0)) a.natAbs (-149) false).1

/-- Bytes of the loft block a bank operation acts on: a word, or an exact cell (11 R213). -/
def lopBytes : LopOp → Nat
  | .xadd _ => 64 | .xrd => 64 | .fill => 64
  | .addF32 => 4 | .addI32 => 4 | .maxabsF32 => 4 | .minF32 => 4 | .xchr => 4

/-- One bank step: the new contents of the block and the value returned (11 R214, R216). -/
def lopStep (op : LopOp) (old v : Nat) : Nat × Nat :=
  match op with
  | .addF32 => (addAway fF32 old v, old)
  | .addI32 => ((old + v) % 2 ^ 32, old)
  | .maxabsF32 => (maxAbsAway old v, old)
  | .minF32 => (minMaxAway fF32 false old v, old)
  | .xchr => (v, old)
  | .xadd t => (cellAdd t old v, 0)
  | .xrd => (0, cellRead old)
  | .fill => (packNat (2 ^ 32) (List.replicate 16 v), 0)

end Sys2Proof.Machine
end

