-- ==== Sys2Proof/Machine/Home.lean ====
section
/-! DEFINITION. The home slices: reads, writes and atomics at the point of coherence, the pegboards' pushes, routes to other
modules (09 R172, R173; 10 R178, R190; 12 R245, R246). -/
namespace Sys2Proof.Machine

/-! ### Routes and packets (12 R244 to R246) -/

/-- A field of a context's descriptor (16 Table 16.1). -/
def Ctx.fld (c : Ctx) (off n : Nat) : Nat := fieldAt c.desc off n
/-- The context's system key; 0 for none (12 R244). -/
def Ctx.skey (c : Ctx) : Nat := c.fld 0x58 2

/-- The L2's byte at an address, where an L2 holds it modified (10 R198). -/
def l2get : List Host.Cell → Nat → Option Byte
  | [], _ => none
  | (j, b) :: l, a => if j = a then some b else l2get l a

/-- The byte at a device physical address as the home slice serves it (09 R173). -/
def State.homeByte (s : State) (a : Nat) : Byte := (l2get s.l2 a).getD (mread s.mem a)

/-- Bytes from an address as the home slices serve them. -/
def State.homeRead (s : State) (a : Nat) : Nat → List Byte
  | 0 => []
  | n + 1 => s.homeByte a :: s.homeRead (a + 1) n

/-- A little-endian field at a device address. -/
def State.homeField (s : State) (a n : Nat) : Nat := leNat (s.homeRead a n)

/-- Some byte of the range lies in a poisoned sector (17 R344). -/
def State.homePoison (s : State) (a n : Nat) : Bool := s.poison.any fun q => decide (a / 64 ≤ q ∧ q ≤ (a + n - 1) / 64 ∧ 0 < n)

/-- A port whose link is up and which software has enabled (12 R245; 19 Table 19.1 PORTEN); one whose flit counter has run out sends nothing (16
R330). -/
def State.portLive (s : State) (p : Nat) : Bool :=
  let k := s.port p
  k.up && s.porten.getLsbD p && (decide (k.cntOut < 2 ^ 48) || k.pendOut.isSome)

/-- The route entry of a node as it stands in the table (12 R246). -/
def State.routeEntry (s : State) (node : Nat) : Nat := s.homeField (s.routeTable + 4 * node) 4

/-- The entry that a request for a node goes by: as it stands, or, where it has changed since the last ROUTESET, as it stood before, chosen request by
request (12 R246; log 2). -/
def State.routeLook (s : State) (node : Nat) : Nat × State :=
  match tget [] s.routeOld node with
  | [] => (s.routeEntry node, s)
  | old => let (k, s) := s.pick (old.length + 1); ((s.routeEntry node :: old).getD k 0, s)

/-- The entries that a write changes are old from then on (12 R246). -/
def State.noteRoutes (s : State) (cs : List Host.Cell) : State :=
  if s.routeTable = 0 then s
  else
    let ns := cs.filterMap fun c => if s.routeTable ≤ c.1 ∧ c.1 < s.routeTable + 2 ^ 21 then some ((c.1 - s.routeTable) / 4) else none
    { s with routeOld := ns.foldl (fun t n => let l := tget [] t n; if l.contains (s.routeEntry n) then t else tput t n (l ++ [s.routeEntry n])) s.routeOld }

/-- Two bits of the route hash: the XOR of bits 2k+1:2k for k = 0 to 5 (12 R245). -/
def routeHash (node va : Nat) : Nat :=
  let x := node ^^^ va / 256 % 2 ^ 37
  (x % 4) ^^^ (x / 4 % 4) ^^^ (x / 16 % 4) ^^^ (x / 64 % 4) ^^^ (x / 256 % 4) ^^^ (x / 1024 % 4)

/-- The port that a request for a node leaves by under an entry; none when no byte of the four is live (12 R245, R246). -/
def State.routePort (s : State) (e node va : Nat) : Option Nat :=
  if s.routeTable = 0 then none
  else
    let h := routeHash node va
    firstSome (fun k =>
      let b := e / 256 ^ ((h + k) % 4) % 256
      if b / 128 = 1 && b / 32 % 4 = 0 && s.portLive (b % 32) then some (b % 32) else none) [0, 1, 2, 3]

/-- A context may send to a node by some port: it has a key, the module has a node ID, a route is live (12 R241, R244, R245). -/
def State.sendPort (s : State) (ctx node va : Nat) : Option Nat × State :=
  let (e, s) := s.routeLook node
  (if s.nodeid = 0x7FFFF ∨ (s.ctx ctx).skey = 0 then none else s.routePort e node va, s)

/-- The distinct elements of a list, in order of first appearance. -/
def distinct : List Nat → List Nat
  | [] => []
  | a :: l => a :: (distinct l).filter (· != a)

/-- The SRC field of a packet from a die (12 Table 12.1). -/
def State.srcField (s : State) (die : Nat) : Nat := s.nodeid.toNat + 2 ^ 24 * die

/-- The number of a die pair (log 15): pairs in ascending order of the lower die, then of the higher (01 R11). -/
def diePair (a b : Nat) : Nat :=
  let x := min a b
  let y := max a b
  x * (15 - x) / 2 + (y - x - 1)

/-- The link between two dies is down, so traffic between them waits (17 R344). -/
def State.cut (s : State) (a b : Nat) : Bool := a != b && s.down.contains (.ucie (diePair a b))

/-- The path from a die to host memory is down: the CXL link stands at die 0 (01 R11, R23). -/
def State.hostCut (s : State) (die : Nat) : Bool := s.cut die 0 || s.down.contains .cxl

/-- The link from a die to where a target is performed is down. -/
def State.cutTo (s : State) (die : Nat) (t : Target) : Bool :=
  match t with
  | .larder _ => false
  | .scratch k _ => s.cut die (k / 2)
  | .loft d _ => s.cut die d
  | .dev pa _ => s.cut die (dieOfPa pa)
  | .host _ => s.hostCut die
  | .remote _ => false
  | .held _ => false

/-- The 256-byte flits that a packet fills (12 R242; log 18). -/
def flitsOf (p : Packet) : Nat := (32 + p.payload.length + 255) / 256

/-- A port sends n flits: its counter rises with each, and a pending key takes effect at the flit whose counter is its switch counter (16 R329,
R330). -/
def Port.sends (k : Port) (n : Nat) : Port :=
  match k.pendOut with
  | some (key, sw) =>
    if k.cntOut ≤ sw ∧ sw < k.cntOut + n then { k with keyOut := key, pendOut := none, cntOut := k.cntOut + n - sw } else { k with cntOut := k.cntOut + n }
  | none => { k with cntOut := k.cntOut + n }

/-- n more flits leave no nonce to be used again: the counter stays at or below 2^48, or a pending key takes effect among them (16 R330). -/
def Port.fits (k : Port) (n : Nat) : Bool := decide (k.cntOut + n ≤ 2 ^ 48) || k.pendOut.isSome

/-- A packet put on a port (12 R243). One that does not fit before the counter runs out is cut off there, and never arrives whole (16 R330). -/
def State.emit (s : State) (p : Packet) : State :=
  if (s.port p.port).fits (flitsOf p) then State.setP { s with wire := s.wire ++ [p] } p.port fun k => k.sends (flitsOf p)
  else s.setP p.port fun k => { k with cntOut := 2 ^ 48 }

/-- The port by which a die can send to a node: the route's, where no link inside the package on the way is down (01 R11; 17 R344). -/
def State.portFrom (s : State) (die ctx node va : Nat) : Option Nat × State :=
  match s.sendPort ctx node va with
  | (some p, s) => (if s.cut die (p / 4) then none else some p, s)
  | (none, s) => (none, s)

/-! ### L2 slices and directory (01 R15, R26; 09 R173) -/

/-- The slice of its die in which a line stands: the home slice's number, and for a copy on another die the same number (01 R15; log 101). -/
def l2Slice (line : Nat) : Nat := 24 * (line / 2 ^ 28 % 2) + line % 2 ^ 28 % 24
/-- The home die of a line (01 R15). -/
def lineDie (line : Nat) : Nat := dieOfPa (256 * line)
/-- Lines that a 2 MiB slice holds (01 R15). -/
def sliceLines : Nat := 8192

/-- A line's directory entry (09 R173). -/
def State.dirOf (s : State) (line : Nat) : DirEntry := tget {} s.dir line
/-- A line's directory entry set; one with no copy and no owner is none. -/
def State.setDir (s : State) (line : Nat) (e : DirEntry) : State :=
  { s with dir := if e = {} then tdel s.dir line else tput s.dir line e }

/-- Dirty bytes of a line go to its stack (09 R173). -/
def State.l2Back (s : State) (line : Nat) : State :=
  { s with mem := (s.l2.filter fun c => c.1 / 256 == line).foldl (fun m c => mwrite m c.1 c.2) s.mem, l2 := s.l2.filter fun c => c.1 / 256 != line }

/-- A line leaves a die's L2: a home slice writes it back, another die's copy leaves the directory. -/
def State.l2Evict (s : State) (die line : Nat) : State :=
  let s := s.setD die fun k => { k with l2 := k.l2.filter (· != line) }
  if lineDie line = die then s.l2Back line
  else s.setDir line { s.dirOf line with sharers := (s.dirOf line).sharers &&& ~~~(BitVec.ofNat 8 (2 ^ die)), owner := none }

/-- A line is held by a die's L2; a full slice first gives up a line that the spec does not name (log 2). -/
def State.l2Hold (s : State) (die line : Nat) : State :=
  if (s.die die).l2.contains line then s
  else
    let mine := (s.die die).l2.filter fun l => l2Slice l == l2Slice line
    let s := if mine.length < sliceLines then s else (let (n, s) := s.pick mine.length; s.l2Evict die ((mine.drop n).headD 0))
    s.setD die fun k => { k with l2 := k.l2 ++ [line] }

/-- A die reads bytes under a policy: its L2 holds the lines after, and the directory knows it (09 R173). -/
def State.l2Read (s : State) (die pol pa n : Nat) : State :=
  if 2 ≤ pol ∨ n = 0 then s
  else
    ((List.range ((pa + n - 1) / 256 + 1 - pa / 256)).map (· + pa / 256)).foldl (fun s line =>
      let s := s.l2Hold die line
      if lineDie line = die then s
      else s.setDir line { s.dirOf line with sharers := (s.dirOf line).sharers ||| BitVec.ofNat 8 (2 ^ die),
                                             owner := match (s.dirOf line).owner with | some (.engine e) => some (.engine e) | _ => none }) s

/-- A write of a line is performed at its home: every copy but the writing die's own goes first, and that die is then the owner; an engine that owns
the line stays its owner until it has written it (09 R173; 10 R187). -/
def State.l2Written (s : State) (writer : Option Nat) (line : Nat) : State :=
  let e := s.dirOf line
  let keep := fun d => writer == some d && e.sharers.getLsbD d
  let gone := (List.range 8).filter fun d => e.sharers.getLsbD d && !keep d
  let s := gone.foldl (fun s d => s.setD d fun k => { k with l2 := k.l2.filter (· != line) }) s
  let own := match writer with | some d => keep d | none => false
  s.setDir line
    { sharers := BitVec.ofNat 8 (maskOf ((List.range 8).filter keep)),
      owner := match e.owner with | some (.engine x) => some (.engine x) | _ => if own then writer.map .die else none }

/-- Some line of a range is owned by a copy engine, whose write every other access awaits (10 R187). -/
def State.recalls (s : State) (pa n : Nat) : Bool :=
  s.dir.any fun e => decide (pa / 256 ≤ e.1 ∧ e.1 ≤ (pa + n - 1) / 256 ∧ 0 < n) && (match e.2.owner with | some (.engine _) => true | _ => false)

/-! ### Pegboards (10 R190; 11 R224) -/

/-- A push of a subscription's latest write: to a local slot, or to another module (10 R190; 12 R252). -/
def State.sendPush (s : State) (p : Peg) (val : Nat) : State :=
  if p.remote then
    match s.portFrom (dieOfPa p.pa) p.ctx p.node p.va with
    | (some port, s) =>
      s.emit { kind := 8, src := s.srcField (dieOfPa p.pa), ckey := (s.ctx p.ctx).skey, dest := p.node, port := port,
               va := BitVec.ofNat 64 p.va,
               aux := BitVec.ofNat 64 (p.tag + 2 ^ 32 * (p.count % 2 ^ 32)), payload := leBytes 8 val }
    | (none, s) =>
      -- only the latest push not yet sent is kept (12 R252)
      { s with pushes := (s.pushes.filter fun q => !(q.remote && q.node == p.node && q.va == p.va && q.tag == p.tag && !q.ended)) ++
                 [{ q := p.count, val := val, remote := true, node := p.node, tag := p.tag, va := p.va, ctx := p.ctx, sentAt := s.now,
                    die := dieOfPa p.pa }] }
  else { s with pushes := s.pushes ++ [{ tid := p.tid, slot := p.slot, q := p.count, val := val, die := dieOfPa p.pa }] }

/-- Count and push one subscription's word if the write changed one of its 8 bytes (10 R190). -/
def State.pegOne (old s : State) (p : Peg) : Peg × State :=
  if old.homeRead p.pa 8 = s.homeRead p.pa 8 then (p, s)
  else
    let p := { p with count := p.count + 1 }
    (p, s.sendPush p (s.homeField p.pa 8))

/-- Every subscription is counted and pushed after a write (10 R190). -/
def State.pegAll (old : State) : List Peg → State → List Peg × State
  | [], s => ([], s)
  | p :: ps, s =>
    let (p, s) := State.pegOne old s p
    let (ps, s) := State.pegAll old ps s
    (p :: ps, s)

/-- The subscriptions of a state served after its predecessor's write. -/
def State.pegged (old s : State) : State :=
  let (ps, s) := State.pegAll old s.pegs s
  { s with pegs := ps }

/-! ### Writes at the home (09 R173; 10 R178) -/

/-- The cells of a line's bytes under a byte mask. -/
def cellsOf (pa mask : Nat) : List Byte → List Host.Cell
  | [] => []
  | b :: bs => if mask % 2 = 1 then (pa, b) :: cellsOf (pa + 1) (mask / 2) bs else cellsOf (pa + 1) (mask / 2) bs

/-- Every byte of bytes, as a mask. -/
def fullMask (bs : List Byte) : Nat := 2 ^ bs.length - 1

/-- The L2's list with a byte set, ascending. -/
def l2put : List Host.Cell → Host.Cell → List Host.Cell
  | [], c => [c]
  | d :: l, c => if c.1 < d.1 then c :: d :: l else if c.1 = d.1 then c :: l else d :: l2put l c

/-- Cells placed in the L2 above the stack (policies 0 and 1), or in the stack itself (policy 2 and CR) (09 R173). -/
def State.homePut (s : State) (pol : Nat) (cs : List Host.Cell) : State :=
  if pol ≤ 1 then { s with l2 := cs.foldl l2put s.l2 }
  else
    { s with mem := cs.foldl (fun m c => mwrite m c.1 c.2) s.mem,
             l2 := s.l2.filter fun d => !(cs.any fun c => c.1 == d.1) }

/-- The sectors that cells cover whole, which take new check bits (17 R344). -/
def coversSector (cs : List Host.Cell) (q : Nat) : Bool :=
  (List.range 64).all fun i => cs.any fun c => c.1 == 64 * q + i

/-- The work queues whose write index a write touches are noticed (13 R258). -/
def State.pokeQueues (s : State) (hit : Target → Bool) : State :=
  { s with queues := s.queues.map fun e =>
      match e.2.hdr with
      | some h => if hit h then (e.1, { e.2 with poked := true }) else e
      | none => e }

/-- A write's cells meet the n bytes of a device word. -/
def devHit (cs : List Host.Cell) (n : Nat) (t : Target) : Bool :=
  match t with | .dev pa _ => cs.any fun c => decide (pa ≤ c.1 ∧ c.1 < pa + n) | _ => false
/-- A write's cells meet the n bytes of a word of host memory. -/
def hostHit (cs : List Host.Cell) (n : Nat) (t : Target) : Bool :=
  match t with | .host pa => cs.any fun c => decide (pa ≤ c.1 ∧ c.1 < pa + n) | _ => false

/-- A dependence word has reached its value (13 R261); a word without a translation has not. -/
def State.depMet (s : State) (d : Nat × Option Target × Nat) : Bool :=
  let ok (v : Nat) : Bool := decide ((v + 2 ^ 32 - d.2.2) % 2 ^ 32 < 2 ^ 31)
  match d.2.1 with
  | some (.dev pa _) => ok (s.homeField pa 4)
  | some (.host pa) => ok (leNat (mreads s.hostMem pa 4))
  | _ => false

/-- A write at a home has the dependence words among its bytes examined; one that is satisfied is awaited no more (13 R261; log 106). -/
def State.pokeDeps (s : State) (hit : Target → Bool) : State :=
  { s with grids := s.grids.map fun e =>
      if e.2.waiting then
        (e.1, { e.2 with deps := e.2.deps.filter fun d => !((match d.2.1 with | some t => hit t | none => false) && s.depMet d) })
      else e }

/-- The L2s after a write of cells at their home: the home slice holds the lines of a cached page, and the other copies are gone (09 R173). -/
def State.l2Note (s : State) (pol : Nat) (cs : List Host.Cell) (writer : Option Nat) : State :=
  (distinct (cs.map (·.1 / 256))).foldl (fun s line =>
    let s := if thas s.dir line then s.l2Written writer line else s
    if pol ≤ 1 then s.l2Hold (lineDie line) line else s) s

/-- A write at the home slices: one event (10 R178, R190; 17 R344), made by a die's L2 or by none. A cellar call's core (policy 3) writes its stack
below the L2s, and no slice sees it (01 R16). -/
def State.homeCells (s : State) (pol : Nat) (cs : List Host.Cell) (writer : Option Nat := none) : State :=
  let s := s.noteRoutes cs
  if cs.isEmpty then s
  else if pol = 3 then
    { s with mem := cs.foldl (fun m c => mwrite m c.1 c.2) s.mem, poison := s.poison.filter fun q => !coversSector cs q }
  else
    let t := (s.homePut pol cs).l2Note pol cs writer
    let t := { t with poison := t.poison.filter fun q => !coversSector cs q }
    ((State.pegged s t).pokeQueues (devHit cs 8)).pokeDeps (devHit cs 4)

/-- Bytes under a mask written at the home. -/
def State.homeWrite (s : State) (pol pa : Nat) (bs : List Byte) (mask : Nat) (writer : Option Nat := none) : State :=
  s.homeCells pol (cellsOf pa mask bs) writer

/-- Whole bytes written at the home by the N8 itself, uncached. -/
def State.homeStore (s : State) (pa : Nat) (bs : List Byte) : State := s.homeCells 2 (cellsOf pa (fullMask bs) bs)

/-- A little-endian field written at the home by the N8 itself. -/
def State.homeSet (s : State) (pa n v : Nat) : State := s.homeStore pa (leBytes n v)

/-- A sector joins an ascending list of them. -/
def withSector (l : List Nat) (q : Nat) : List Nat := (l.filter (· < q)) ++ q :: l.filter (q < ·)

/-- Sectors marked poisoned, ascending (17 R344, R236). -/
def State.poisonSectors (s : State) (qs : List Nat) : State :=
  { s with poison := qs.foldl withSector s.poison }

/-- An atomic at the home: the old value, whether it met poison, and what follows (11 R218 to R220). A write that changes
nothing is still a write; a poisoned word is left as it stands. A cellar call's core (policy 3) works at its stack (01 R16). -/
def State.homeAtomic (s : State) (pol pa n : Nat) (op : AtomOp) (v v2 : Nat) : Nat × Bool × State :=
  let old := if pol = 3 then leNat (mreads s.mem pa n) else s.homeField pa n
  if s.homePoison pa n then (old, true, s)
  else
    match atomNew op (8 * n) old v v2 with
    | some w => (old, false, s.homeCells pol (cellsOf pa (2 ^ n - 1) (leBytes n w)))
    | none => (old, false, s)

/-! ### Scratch (09 R174; 17 R344) -/

/-- Some byte of the range lies in a poisoned sector of the scratch. -/
def Stack.scratchBad (k : Stack) (off n : Nat) : Bool := k.scratchPoison.any fun q => decide (off / 64 ≤ q ∧ q ≤ (off + n - 1) / 64 ∧ 0 < n)
/-- Bytes written to the scratch; a sector that they cover whole takes new check bits. -/
def Stack.scratchWrite (k : Stack) (off : Nat) (bs : List Byte) : Stack :=
  { k with scratch := mwrites k.scratch off bs,
           scratchPoison := k.scratchPoison.filter fun q => !decide (off ≤ 64 * q ∧ 64 * q + 64 ≤ off + bs.length) }

/-! ### Host memory (16 R313; 19 R358) -/

/-- A field of host memory. -/
def State.hostRead (s : State) (pa n : Nat) : List Byte := mreads s.hostMem pa n
/-- Some byte of the range lies in a sector that the host reports in error (19 R358). -/
def State.hostBad (s : State) (pa n : Nat) : Bool := s.hostPoison.any fun q => decide (pa / 64 ≤ q ∧ q ≤ (pa + n - 1) / 64 ∧ 0 < n)
/-- Cells written to host memory; a sector that they cover whole is in error no more (17 R344). -/
def State.hostCells (s : State) (cs : List Host.Cell) : State :=
  let t := { s with hostMem := cs.foldl (fun m (c : Host.Cell) => mwrite m c.1 c.2) s.hostMem, hostPoison := s.hostPoison.filter fun q => !coversSector cs q }
  (t.pokeQueues (hostHit cs 8)).pokeDeps (hostHit cs 4)
/-- Bytes under a mask written to host memory. -/
def State.hostWrite (s : State) (pa : Nat) (bs : List Byte) (mask : Nat) : State := s.hostCells (cellsOf pa mask bs)
/-- An atomic on host memory, taken exclusively by the host link: the old value, whether it met an error that the host reports, which it leaves as it
stands, and what follows (11 R219, R220; 19 R358). -/
def State.hostAtomic (s : State) (pa n : Nat) (op : AtomOp) (v v2 : Nat) : Nat × Bool × State :=
  let old := leNat (s.hostRead pa n)
  if s.hostBad pa n then (old, true, s)
  else
    match atomNew op (8 * n) old v v2 with
    | some w => (old, false, s.hostWrite pa (leBytes n w) (2 ^ n - 1))
    | none => (old, false, s)

end Sys2Proof.Machine
end

