-- ==== Sys2Proof/Machine/Translate.lean ====
section
/-! DEFINITION. Translation: the three-level walk, the entry checks, permissions and the dies' TLBs (16 R312 to R317). -/
namespace Sys2Proof.Machine

/-- What an access does (16 R316). -/
inductive Acc where
  | read | write | fetch
  deriving DecidableEq, Repr

/-- How a walk ends (16 R313 to R315): a leaf with its page size, a failure with the reason code of 17 Table 17.2 and the level of
the deciding entry, or a stall on MOVING. -/
inductive Walk where
  | leaf (pte size level : Nat)
  | bad (reason level : Nat)
  | moving (level : Nat)
  deriving DecidableEq, Repr

/-- ADDR of an entry (16 Table 16.2). -/
def pteAddr (e : Nat) : Nat := e / 2 ^ 13 % 2 ^ 39 * 2 ^ 13
/-- Bit k of an entry. -/
def pteBit (e k : Nat) : Bool := bitOf e k
/-- POLICY of an entry (16 Table 16.2). -/
def ptePolicy (e : Nat) : Nat := e / 2 ^ 11 % 4

/-- The first row of 16 R314 that an entry matches, by reason: 1 NOMAP, 2 NONRES, 8 WALK_FORMAT. -/
def pteCheck (e level size : Nat) : Option Nat :=
  let leaf := pteBit e 1
  if !pteBit e 0 then some 1
  else if leaf && pteBit e 8 then some 2
  else if !leaf && (pteBit e 8 || ptePolicy e != 0 || pteBit e 10 || pteBit e 9 || pteBit e 6 || pteBit e 5 || pteBit e 3 || pteBit e 2
      || decide (2 ^ 40 ≤ pteAddr e)) then some 8
  else if level = 3 && !leaf then some 8
  else if leaf && pteAddr e % size != 0 then some 8
  else if leaf && (ptePolicy e == 3 || (pteBit e 9 && pteBit e 10)) then some 8
  else if leaf && !pteBit e 9 && decide (2 ^ 40 ≤ pteAddr e) then some 8
  else if e / 2 ^ 52 % 2 ^ 12 != 0 then some 8
  else none

/-- The walk's levels: number, lowest index bit, entries (16 R313). -/
def walkLevels : List (Nat × Nat × Nat) := [(1, 35, 1024), (2, 25, 1024), (3, 16, 512)]

/-- The walk of a die from a table (16 R313 to R315): a write stalls at a leaf with MOVING, any access at a table pointer with MOVING. A walk whose
entry stands behind a link that is down waits, as level 0 (01 R11; 17 R344). -/
def State.walkFrom (s : State) (die : Nat) (write : Bool) (va : Nat) : List (Nat × Nat × Nat) → Nat → Walk
  | [], _ => .bad 8 3
  | (lv, lo, n) :: ls, table =>
    let a := table + 8 * (va / 2 ^ lo % n)
    let e := s.homeField a 8
    if s.cut die (dieOfPa a) then .moving 0 else
    match pteCheck e lv (2 ^ lo) with
    | some r => .bad r lv
    | none =>
      if pteBit e 1 then (if write && pteBit e 7 then .moving lv else .leaf e (2 ^ lo) lv)
      else if pteBit e 7 then .moving lv
      else s.walkFrom die write va ls (pteAddr e)

/-- The walk of a local address in a context by a die (16 R313). -/
def State.walk (s : State) (die ctx va : Nat) (write : Bool) : Walk := s.walkFrom die write va walkLevels ((s.ctx ctx).fld 0 8)

/-- The entry of a TLB that holds a local address for a context (16 R317). -/
def tlbHit (tlb : List TlbEntry) (ctx va : Nat) : Option TlbEntry := tlb.find? fun t => t.ctx == ctx && t.base == va % 2 ^ 45 / t.size * t.size

/-- The TLB entry of a die that holds a local address for a context (16 R317). -/
def State.tlbFind (s : State) (die ctx va : Nat) : Option TlbEntry := tlbHit (s.die die).tlb ctx va

/-- The entry that a die's agent translates by: its core's first-level TLB, where it has one, then the die's (16 R317). -/
def State.tlbLook (s : State) (die : Nat) (core : Option Nat) (ctx va : Nat) : Option TlbEntry :=
  match core with
  | some c => (match tlbHit (s.core c).tlb ctx va with | some t => some t | none => s.tlbFind die ctx va)
  | none => s.tlbFind die ctx va

/-- A walk through the TLBs: an entry held stands for the tables, but a write re-reads an entry held with MOVING (16 R315, R317). -/
def State.lookup (s : State) (die ctx va : Nat) (write : Bool) (core : Option Nat := none) : Walk :=
  match s.tlbLook die core ctx va with
  | some t => if write && pteBit t.pte.toNat 7 then s.walk die ctx va write else .leaf t.pte.toNat t.size 0
  | none => s.walk die ctx va write

/-- A TLB of n entries with one more, the oldest going first (log 88). -/
def tlbPut (n : Nat) (tlb : List TlbEntry) (t : TlbEntry) : List TlbEntry := (if tlb.length < n then tlb else tlb.drop 1) ++ [t]

/-- The die's TLB after a translation: a valid leaf is held, of 16,384 at most (16 R317). -/
def State.tlbFill (s : State) (die ctx va : Nat) : State :=
  match s.tlbFind die ctx va, s.walk die ctx va false with
  | none, .leaf e size _ =>
    s.setD die fun d =>
      { d with tlb := tlbPut 16384 d.tlb { ctx := ctx, base := va % 2 ^ 45 / size * size, size := size, pte := BitVec.ofNat 64 e } }
  | _, _ => s

/-- A core's first-level TLB of 64 entries takes what its die's TLB holds (16 R317). -/
def State.coreTlbFill (s : State) (core ctx va : Nat) : State :=
  match tlbHit (s.core core).tlb ctx va, s.tlbFind (dieOfCore core) ctx va with
  | none, some t => s.setC core fun c => { c with tlb := tlbPut 64 c.tlb t }
  | _, _ => s

/-- Several translations held, by the die and by a core of it. -/
def State.tlbFills (s : State) (die ctx : Nat) (vas : List Nat) (core : Option Nat := none) : State :=
  vas.foldl (fun s va => let s := s.tlbFill die ctx va; match core with | some c => s.coreTlbFill c ctx va | none => s) s

/-- Where a leaf puts an address (16 Table 16.2; 09 R173: CR counts as policy 0b10). -/
def leafTarget (e size va : Nat) : Target :=
  let pa := pteAddr e + va % size
  if pteBit e 9 then .host pa else .dev pa (if pteBit e 10 then 2 else ptePolicy e)

/-- Bits 63:45 of an address (16 R312). -/
def nodeOf (va : Nat) : Nat := va / 2 ^ 45 % 2 ^ 19
/-- The address is homed on this module (09 R171). -/
def State.isLocal (s : State) (va : Nat) : Bool := nodeOf va == 0x7FFFF || nodeOf va == s.nodeid.toNat

/-- The outcome of translating one access (16 R314 to R316). -/
inductive Xl where
  | ok (t : Target) (pte : Nat)
  /-- no translation: reason and level -/
  | replay (reason level : Nat)
  /-- permission refused; whether USER was -/
  | prot (user : Bool)
  | moving (level : Nat)
  deriving DecidableEq, Repr

/-- The permission an access needs on a leaf (16 R316); `user` is false for an access the N8 makes for itself. -/
def permits (e : Nat) (acc : Acc) (user : Bool) : Option Bool :=
  if user && !pteBit e 4 then some true
  else
    match acc with
    | .read => none
    | .write => if pteBit e 2 then none else some false
    | .fetch => if pteBit e 3 then none else some false

/-- Translate a local address for a context through a die, by an agent that may have a core's first-level TLB (16 R312 to R317). -/
def State.xlate (s : State) (die ctx va : Nat) (acc : Acc) (user : Bool) (core : Option Nat := none) : Xl :=
  match s.lookup die ctx va (acc == .write) core with
  | .bad r l => .replay r l
  | .moving l => .moving l
  | .leaf e size _ =>
    match permits e acc user with
    | some u => .prot u
    | none => .ok (leafTarget e size va) e

/-- Ticks of the 4 GHz clock in a microsecond (01 R25). -/
def usTicks : Nat := 4000
/-- A stall on MOVING ends after 100 µs as a page that is not resident (16 R315). -/
def movingLimit : Nat := 100 * usTicks

/-- A translation whose stall on MOVING began at a given time (16 R315): a stall past 100 µs counts as NONRES; a walk behind a link that is down
waits on. -/
def State.xlateSince (s : State) (die ctx va : Nat) (acc : Acc) (user : Bool) (since : Nat) (core : Option Nat := none) : Xl :=
  match s.xlate die ctx va acc user core with
  | .moving l => if l = 0 ∨ s.now < since + movingLimit then .moving l else .replay 2 l
  | x => x

end Sys2Proof.Machine
end

