-- ==== Sys2Proof/Machine/Faults.lean ====
section
/-! DEFINITION. Fault buffers, records, events and freezing (17 R335 to R337, R381; 16 R324 to R326; 19 R361). -/
namespace Sys2Proof.Machine

/-- Vector v becomes due (19 R361). -/
def State.raise (s : State) (v : Nat) : State := if s.msiDue.contains v then s else { s with msiDue := s.msiDue ++ [v] }

/-- A fault record's 32 bytes (17 Table 17.2). -/
def faultBytes (kind code ctx : Nat) (nested : Bool) (who pc addr detail : Nat) : List Byte :=
  record [(1, kind), (1, code), (1, ctx % 64 + 64 * b2n nested), (1, 0), (4, who), (8, pc), (8, addr), (8, detail)]

/-- FBBASE.EN of a die (17 Table 17.3). -/
def Die.fbEn (d : Die) : Bool := d.fbbase.getLsbD 0
/-- The ring's base (17 Table 17.3). -/
def Die.fbRing (d : Die) : Nat := bitsOf d.fbbase.toNat 39 17 * 2 ^ 17
/-- The buffer is full, or counts as full (17 R337). -/
def Die.fbFull (d : Die) : Bool := !d.fbEn || (d.widx + 65536 - d.ridx) % 65536 == 4096

/-- A record written at WIDX, which then advances; the host is signalled (17 R336; 19 R361). -/
def State.fbWrite (s : State) (r : FaultRec) : State :=
  let d := s.die r.die
  let s := s.homeStore (d.fbRing + 32 * (d.widx % 4096)) r.bytes
  (s.setD r.die fun d => { d with widx := (d.widx + 1) % 65536, records := d.records ++ [{ r with gen := d.gen, slot := d.widx }] }).raise r.die

/-- KIND, context and page of a replayable record, by which duplicates are known (17 R337). -/
def FaultRec.page (r : FaultRec) : Option (Nat × Nat) :=
  if fieldAt r.bytes 0 1 = 1 then some (fieldAt r.bytes 2 1 % 64, fieldAt r.bytes 0x10 8 / 65536) else none

/-- A record joined by the group of another of its page (17 R337). -/
def FaultRec.join (r q : FaultRec) : FaultRec := if r.page = q.page && r.disp.isNone then { r with more := r.more ++ [q.gid] } else r

/-- A die's fault ring stands behind a link that is down (01 R11; 17 R344). -/
def State.fbCut (s : State) (die : Nat) : Bool := s.cut die (dieOfPa (s.die die).fbRing)

/-- A record that holds an agent: it waits for room, or for a link, behind the records that already wait; a second replayable record of a page in one
generation is not written, and its group is replayed with the first (17 R337). -/
def State.postHeld (s : State) (r : FaultRec) : State :=
  let d := s.die r.die
  if r.page.isSome && (d.records ++ d.waiting).any (fun q => q.page == r.page && q.disp.isNone) then
    s.setD r.die fun d => { d with records := d.records.map fun q => q.join r, waiting := d.waiting.map fun q => q.join r }
  else if d.fbFull || s.fbCut r.die || !d.waiting.isEmpty then s.setD r.die fun d => { d with waiting := d.waiting ++ [r] }
  else s.fbWrite r

/-- A record that holds nothing: dropped and counted where the ring is full (17 R337); behind a link that is down it waits. -/
def State.postLoose (s : State) (die : Nat) (bytes : List Byte) : State :=
  if (s.die die).fbFull then (s.setD die fun d => { d with drop := min 0xFFFF (d.drop + 1) }).tally 11
  else if s.fbCut die then s.setD die fun d => { d with waiting := d.waiting ++ [{ die := die, bytes := bytes }] }
  else s.fbWrite { die := die, bytes := bytes }

/-- An event's two records (17 R335, R381). -/
def State.postEvent (s : State) (die ctx q code : Nat) (data : List Byte) : State :=
  let who := q % 256 + 256 * (code % 65536)
  let data := padTo 48 data
  let head (k : Nat) := record [(1, k), (1, 0), (1, ctx % 64), (1, 0), (4, who)]
  (s.postLoose die (head 7 ++ data.take 24)).postLoose die (head 8 ++ data.drop 24)

/-- A hardware event (17 Table 17.6). -/
def State.postHw (s : State) (die code who detail : Nat) : State := s.postLoose die (faultBytes 6 code 0 false who 0 0 detail)

/-- WHO of a group: its logical core, eight times its cluster for a sequencer (18 Table 18.1 LCORE), or its cellar core, then slot, die and agent
kind (17 Table 17.2). -/
def Group.who (g : Group) : Nat :=
  (match g.kind with | .core => g.place | .sequencer => 8 * g.place | .cellar => g.place) % 1024 + 1024 * (g.slot % 64) + 65536 * g.die +
    2 ^ 19 * (match g.kind with | .core => 0 | .sequencer => 2 | .cellar => 3)

/-- WHO of a copy engine (17 Table 17.2): engine 4d + e. -/
def engineWho (e : Nat) : Nat := e % 1024 + 65536 * (e / 4) + 2 ^ 19

/-- A lost write (KIND 0x04) of a group: the code is the reason of 11 R229. -/
def State.lostWrite (s : State) (gid reason va : Nat) (detail : Nat := 0) : State :=
  let g := s.grp gid
  s.postLoose g.die (faultBytes 4 reason g.ctx false g.who 0 va detail)

/-- A freeze event: a record of KIND 0xF0, and the context is frozen unless it already is (16 R324 to R327). -/
def State.freezeCtx (s : State) (die ctx event master who pc addr detail : Nat) (gid : Nat := 0) : State :=
  let s := s.postHeld { die := die, gid := gid, bytes := record [(1, 0xF0), (1, event), (1, ctx % 64), (1, master), (4, who % 2 ^ 19), (8, pc), (8, addr),
      (8, detail)] }
  s.setX ctx fun c => if c.phase = .active then { c with phase := .frozen, freeze := event, frozenAt := s.now } else c

/-- A group of a frozen or closing context, or under thermal stop, stands at its instruction boundary (16 R325; 19 R364). -/
def State.stopped (s : State) (gid : Nat) : Bool :=
  let g := s.grp gid
  s.thermalStop || (s.ctx g.ctx).phase != .active || g.hold.isSome

/-- The group becomes replayable at its instruction: it is held, and a KIND 0x01 record goes to its die (13 R266; 17 R335).
DETAIL holds the reason and the level of the entry that decided. -/
def State.makeReplayable (s : State) (gid pc addr reason level : Nat) : State :=
  let g := s.grp gid
  let s := s.setG gid fun g =>
    { g with hold := some .replay, fibres := g.fibres.map fun e =>
        if e.2.wait = .none || e.2.pc.toNat = pc then (e.1, { e.2 with wait := .none, waitSince := s.now }) else e }
  s.postHeld { die := g.die, gid := gid, bytes := faultBytes 1 (if reason = 8 then 0x15 else 0x08) g.ctx false g.who pc addr (reason + 256 * level) }

/-- Why an instruction does not take its effect now: a trap, a fault that makes its group replayable (address, reason, level), a wait, or
a guest fibre's return home. Each is turned into a next state by `State.halt` (Ops). -/
inductive Stop where
  | trap (t : Trap)
  | replay (addr reason level : Nat)
  | block (w : Wait)
  | home
  deriving DecidableEq, Repr

/-- The first failing check of a list of lanes, in the list's order (11 R205). -/
def firstStop {α β : Type} (f : α → Except Stop β) : List α → Except Stop (List β)
  | [] => .ok []
  | a :: l =>
    match f a with
    | .error e => .error e
    | .ok b => match firstStop f l with | .error e => .error e | .ok bs => .ok (b :: bs)

/-- A check that passes, or stops. -/
def need (ok : Bool) (st : Stop) : Except Stop Unit := if ok then .ok () else .error st

/-- Trap codes (17 Table 17.1). -/
def tUNIMPL : Nat := 1
/-- ILLEGAL. -/
def tILLEGAL : Nat := 2
/-- UNAVAIL. -/
def tUNAVAIL : Nat := 3
/-- REGIDX. -/
def tREGIDX : Nat := 4
/-- BOUNDS. -/
def tBOUNDS : Nat := 5
/-- ALIGN. -/
def tALIGN : Nat := 6
/-- NONUNI. -/
def tNONUNI : Nat := 7
/-- PROT. -/
def tPROT : Nat := 9
/-- HANDLE. -/
def tHANDLE : Nat := 0xA
/-- POISON. -/
def tPOISON : Nat := 0xB
/-- MMETA. -/
def tMMETA : Nat := 0xC
/-- MIGREF. -/
def tMIGREF : Nat := 0xD
/-- COPYARG. -/
def tCOPYARG : Nat := 0xE
/-- BKPT. -/
def tBKPT : Nat := 0x10
/-- USER. -/
def tUSER : Nat := 0x11
/-- RACE. -/
def tRACE : Nat := 0x12
/-- SLOT. -/
def tSLOT : Nat := 0x13
/-- NCALLERR. -/
def tNCALLERR : Nat := 0x14

/-- A trap of a memory check (11 R207): code, cause, lane and address. -/
def memTrap (code cause lane addr : Nat) : Stop := .trap { code := code, detail := lane + 256 * cause, addr := addr, freezes := code == tHANDLE }
/-- PROT with cause 7 (11 R207): bit 16 and a freeze where USER was refused (16 R316, R324). -/
def protTrap (user : Bool) (lane addr : Nat) : Stop :=
  .trap { code := tPROT, detail := lane + 256 * 7 + 65536 * b2n user, addr := addr, freezes := user }

end Sys2Proof.Machine
end

