-- ==== Sys2Proof/Machine/CorePath.lean ====
section
/-! DEFINITION. A core's path to memory: larder bytes and watch slots, L1, write-combining buffer, requests to other modules, and the
group store queues (09 R163, R172; 10 R180, R191, R196; 12 R243 to R249). -/
namespace Sys2Proof

/-- A scope beyond the core: CLUSTER or wider (11 R222). -/
def Scope.beyond (c : Scope) : Bool := decide (2 ≤ Machine.scopeCode c)
/-- The order releases. -/
def MOrder.rel : MOrder → Bool | .release => true | .acqRel => true | _ => false
/-- The order acquires. -/
def MOrder.acq : MOrder → Bool | .acquire => true | .acqRel => true | _ => false

end Sys2Proof

namespace Sys2Proof.Machine

/-! ### Larder bytes (09 R163, R165) -/

/-- Two byte ranges meet. -/
def overlaps (a n b m : Nat) : Bool := decide (a < b + m ∧ b < a + n)

/-- Bytes of a team's larder. -/
def Team.lread (t : Team) (off n : Nat) : List Byte := mreads t.larder off n

/-- The larder bytes meet a word that carries poison (17 R344). -/
def Team.lbad (t : Team) (off n : Nat) : Bool := t.larderPoison.any fun w => overlaps off n (8 * w) 8

/-- LEN, OFF and WB of a window (09 Table 9.2). -/
def LWindow.len (w : LWindow) : Nat := bitsOf w.a.toNat 21 11
/-- OFF (09 Table 9.2). -/
def LWindow.off (w : LWindow) : Nat := bitsOf w.a.toNat 10 0
/-- WB (09 Table 9.2). -/
def LWindow.wb (w : LWindow) : Bool := w.a.getLsbD 31
/-- POFF (09 Table 9.3). -/
def LWindow.poff (w : LWindow) : Nat := bitsOf w.b.toNat 31 12
/-- POOL (09 Table 9.3). -/
def LWindow.pool (w : LWindow) : Nat := bitsOf w.b.toNat 11 0
/-- The window covers a larder line. -/
def LWindow.covers (w : LWindow) (line : Nat) : Bool := decide (w.off ≤ line ∧ line < w.off + w.len)

/-- The mapped window that covers a larder line (09 R164). -/
def Team.window (t : Team) (line : Nat) : Option (Nat × LWindow) :=
  firstSome (fun n => let w := tget {} t.lmap n; if w.covers line then some (n, w) else none) [0, 1, 2, 3]

/-- The range meets some mapped window (11 R223, R236). -/
def Team.meetsWindow (t : Team) (off n : Nat) : Bool :=
  [0, 1, 2, 3].any fun k => let w := tget {} t.lmap k; w.len != 0 && overlaps off n (256 * w.off) (256 * w.len)

/-- Bytes written to a team's larder in one larder step; a byte of a window line sets its mask bit (09 R165). -/
def Team.lwrite (t : Team) (off : Nat) (bs : List Byte) : Team :=
  let t := { t with larder := mwrites t.larder off bs,
                    larderPoison := t.larderPoison.filter fun w => !(decide (off ≤ 8 * w ∧ 8 * w + 8 ≤ off + bs.length)) }
  (List.range bs.length).foldl (fun t i =>
    match t.window ((off + i) / 256) with
    | some (n, w) =>
      if !w.dirty.contains (off + i) then
        { t with lmap := tput t.lmap n { w with dirty := w.dirty ++ [off + i] } } else t
    | none => t) t

/-- A larder read of bytes of a watch slot sets its SEEN bit (10 R191). -/
def Team.sees (t : Team) (off n : Nat) : Team :=
  { t with subs := t.subs.map fun u => if overlaps off n u.slot 16 then { u with seen := true } else u }

/-- A push applied to a slot as one larder step (10 R191). -/
def Team.applyPush (t : Team) (slot q val : Nat) : Team :=
  match t.subs.find? fun u => u.slot == slot with
  | none => t
  | some u =>
    let seq := leNat (t.lread (slot + 8) 4)
    let ovr := leNat (t.lread (slot + 12) 4)
    let d := (q + 2 ^ 32 - seq) % 2 ^ 32
    if d = 0 ∨ 2 ^ 31 ≤ d then t
    else
      let t := t.lwrite slot (leBytes 8 val ++ leBytes 4 q ++ leBytes 4 (ovr + d + 2 ^ 32 - b2n u.seen))
      { t with subs := t.subs.map fun w => if w.slot = slot then { w with seen := false, lastQ := q } else w }

/-- Bytes counted into a sync word as one larder step (09 R167). -/
def Team.countSync (t : Team) (w n : Nat) : Team :=
  let target := leNat (t.lread w 4)
  let count := leNat (t.lread (w + 4) 4) + n
  if target ≠ 0 ∧ target ≤ count then
    t.lwrite (w + 4) (leBytes 4 (count - target) ++ leBytes 4 (leNat (t.lread (w + 8) 4) + 1))
  else t.lwrite (w + 4) (leBytes 4 count)

/-! ### L1 (09 R172, R173) -/

/-- A byte as a core reads it under policy 0: its L1, else the home. -/
def State.l1Byte (s : State) (core a : Nat) : Byte :=
  match (s.core core).l1.find? fun e => e.1 == a with
  | some e => e.2.val
  | none => s.homeByte a

/-- Bytes as a core reads them under a cache policy: 0 through its L1, 1 and 2 at the home, 3 (a cellar call) at the stack (09 R173;
10 R198). -/
def State.readDev (s : State) (core pol a : Nat) : Nat → List Byte
  | 0 => []
  | n + 1 => (if pol = 0 then s.l1Byte core a else if pol = 3 then mread s.mem a else s.homeByte a) :: s.readDev core pol (a + 1) n

/-- The bytes meet poison at their home, or in the L1 that holds them (17 R344). -/
def State.devPoison (s : State) (core pol a n : Nat) : Bool :=
  (List.range n).any fun i =>
    if pol = 0 && thas (s.core core).l1 (a + i) then (tget { val := 0 } (s.core core).l1 (a + i)).bad else s.homePoison (a + i) 1

/-- The L1 holds every byte of a sector. -/
def Core.holdsSector (c : Core) (q : Nat) : Bool := (List.range 64).all fun i => thas c.l1 (64 * q + i)

/-- Sectors that n bytes from an address touch. -/
def sectorsOf (a n : Nat) : List Nat := (List.range ((a + n - 1) / 64 + 1 - a / 64)).map (· + a / 64)

/-- The lines of ascending device addresses. -/
def linesOf : List Nat → List Nat
  | [] => []
  | a :: l => match linesOf l with | b :: ls => if b = a / 256 then b :: ls else a / 256 :: b :: ls | [] => [a / 256]

/-- The lines that an L1 holds. -/
def Core.l1Lines (c : Core) : List Nat := linesOf (c.l1.map (·.1))

/-- What becomes of a masked byte that an L1 would write back. -/
inductive L1Fate where
  | goes | stays
  /-- permission refused; whether USER was -/
  | lost (user : Bool)
  deriving DecidableEq, Repr

/-- A masked byte's write-back (11 R206; 16 R315): held while the link, a copy engine's ownership, MOVING or a page without a valid leaf keeps it, lost
where permission is refused. A write-back for TLBINV goes by the translation that brought the byte (`old`; 16 R318). -/
def State.l1Fate (s : State) (core : Nat) (old : Bool) (a : Nat) (b : L1Byte) : L1Fate :=
  let die := dieOfCore core
  if s.cut die (dieOfPa a) || s.recalls a 1 then .stays
  else if old then .goes
  else
    match s.xlate die b.ctx b.va .write true (some core) with
    | .ok _ _ => .goes
    | .prot u => .lost u
    | .replay _ _ => .stays
    | .moving _ => .stays

/-- The record of write-back bytes of a core that permission refused, and the freeze where USER was (11 R206; 16 R316, R324). -/
def State.l1Lost (s : State) (core ctx va : Nat) (user : Bool) : State :=
  let who := core % 1024 + 65536 * dieOfCore core
  let detail := 256 * 7 + 65536 * b2n user
  let s := s.postLoose (dieOfCore core) (faultBytes 4 3 ctx false who 0 va detail)
  if user then s.freezeCtx (dieOfCore core) ctx 3 0 who 0 va detail else s

/-- One line's masked bytes among those chosen written back as one event at its home. The L1 gives up their sectors, but for bytes still masked: what
stood beside them may be older than they are, and no read may see a part of each (10 R185). Bytes that permission refuses are discarded (09 R172;
11 R206). -/
def State.l1BackLine (s : State) (core : Nat) (p : Nat → L1Byte → Bool) (line : Nat) (old : Bool := false) : State :=
  let mine := (s.core core).l1.filter fun e => e.1 / 256 == line && e.2.dirty && p e.1 e.2
  let fates := mine.map fun e => (e, s.l1Fate core old e.1 e.2)
  let goes := (fates.filter fun x => x.2 == .goes).map (·.1)
  let lost := fates.filterMap fun x => match x.2 with | .lost u => some (x.1, u) | _ => none
  let s := s.homeCells 0 (goes.map fun e => (e.1, e.2.val)) (some (dieOfCore core))
  let s := s.poisonSectors (distinct ((goes.filter fun e => e.2.bad).map (·.1 / 64)))
  let s := s.setC core fun c =>
    { c with l1 := c.l1.filter fun e =>
        !(lost.any fun x => x.1.1 == e.1) &&
        (!(goes.any fun x => x.1 / 64 == e.1 / 64) || (e.2.dirty && !(goes.any fun x => x.1 == e.1))) }
  match lost with
  | (e, u) :: _ => s.l1Lost core e.2.ctx (e.2.va / 256 * 256) u
  | [] => s

/-- The chosen dirty bytes of a core's L1 written back, line by line (09 R172). -/
def State.l1Back (s : State) (core : Nat) (p : Nat → L1Byte → Bool) (old : Bool := false) : State :=
  let lines := linesOf (((s.core core).l1.filter fun e => e.2.dirty && p e.1 e.2).map (·.1))
  lines.foldl (fun s l => s.l1BackLine core p l old) s

/-- Every dirty byte of a core's L1 written back: a release beyond the core (09 R172; 11 R222). -/
def State.l1BackAll (s : State) (core : Nat) : State := s.l1Back core fun _ _ => true
/-- Some chosen byte of a core's L1 is dirty. -/
def State.l1Dirty (s : State) (core : Nat) (p : Nat → L1Byte → Bool) : Bool := (s.core core).l1.any fun e => e.2.dirty && p e.1 e.2
/-- A core's L1 copies of the chosen bytes dropped. -/
def State.l1Drop (s : State) (core : Nat) (p : Nat → L1Byte → Bool) : State :=
  s.setC core fun c => { c with l1 := c.l1.filter fun e => !p e.1 e.2 }
/-- A core's clean bytes invalidated: an acquire beyond the core (09 R172; 10 R184). -/
def State.l1Acquire (s : State) (core : Nat) : State := s.l1Drop core fun _ b => !b.dirty
/-- A line written back and dropped before an access goes to its home (11 R219); a byte whose write-back is held stays. -/
def State.l1Flush (s : State) (core line : Nat) : State :=
  (s.l1Back core fun a _ => a / 256 == line).l1Drop core fun a b => a / 256 == line && !b.dirty
/-- No masked byte of a line is held back in a core's L1. -/
def State.l1Clears (s : State) (core line : Nat) : Bool :=
  (s.core core).l1.all fun e => !(e.1 / 256 == line && e.2.dirty) || s.l1Fate core false e.1 e.2 != .stays

/-- Lines that a 128 KiB L1 holds (01 R13). -/
def l1Capacity : Nat := 512

/-- An L1 has room for some lines: it holds no more than it can, or may give up enough others (01 R13). -/
def State.l1Room (s : State) (core : Nat) (keep : List Nat) : Bool :=
  let ls := (s.core core).l1Lines
  let n := (distinct (ls ++ keep)).length
  decide (n ≤ l1Capacity) || decide (n ≤ l1Capacity + (ls.filter fun l => !keep.contains l && s.l1Clears core l).length)

/-- A core's L1 gives up lines that the spec does not name until it holds no more than it can (01 R13; log 2), but not
the lines of the access under way; one whose write-back is held stays, and an access that would find no room has waited (`placeOpen`). -/
def State.l1Trim (s : State) (core : Nat) (keep : List Nat) : Nat → State
  | 0 => s
  | k + 1 =>
    let ls := (s.core core).l1Lines
    if ls.length ≤ l1Capacity then s
    else
      let (n, s) := s.pick ls.length
      match (ls.drop n ++ ls.take n).find? fun l => !keep.contains l && s.l1Clears core l with
      | some l => (s.l1Flush core l).l1Trim core keep k
      | none => s

/-- The sectors that a read of policy 0 touches are filled with what their homes hold: a sector whole, so that no read sees part of a write (10 R185);
masked bytes stay, and a poisoned sector is not filled. A sector held whole stays as it is, unless the read is one event over several (`all`;
10 R186). -/
def State.l1Fill (s : State) (core ctx a va n : Nat) (all : Bool) : State :=
  let qs := (sectorsOf a n).filter fun q => !s.poison.contains q && (all || !(s.core core).holdsSector q)
  let s := s.l2Read (dieOfCore core) 0 a (if qs.isEmpty then 0 else n)
  let bytes := qs.flatMap fun q => (List.range 64).map (· + 64 * q)
  let s := s.setC core fun c =>
    { c with l1 := bytes.foldl (fun l b =>
        if ((tget { val := 0 } l b).dirty) then l else tput l b { val := s.homeByte b, ctx := ctx, va := va + b - a }) c.l1 }
  s.l1Trim core (linesOf [a, a + n - 1]) 4

/-- Bytes stored into a core's L1 with their mask bits (09 R172). -/
def State.l1Store (s : State) (core ctx a va : Nat) (bs : List Byte) : State :=
  let s := s.setC core fun c =>
    let stale (b : Nat) : Bool := (tget { val := 0 } c.l1 b).bad && !decide (a ≤ b / 8 * 8 ∧ b / 8 * 8 + 8 ≤ a + bs.length)
    let put (l : Tab L1Byte) (b : Host.Cell) := tput l b.1 { val := b.2, dirty := true, ctx := ctx, va := va + b.1 - a, bad := stale b.1 }
    { c with l1 := (cellsOf a (fullMask bs) bs).foldl put c.l1 }
  s.l1Trim core (linesOf [a, a + bs.length - 1]) 4

/-! ### Requests to other modules (12 R243 to R249) -/

/-- The request writes at its home. -/
def ReqUse.writes : ReqUse → Bool
  | .drain _ => true
  | .atom _ _ _ _ _ => true
  | .reduce _ _ _ _ => true
  | .load _ _ _ _ => false
  | .row _ _ _ => false
  | .mcst _ _ _ _ => false
  | .copyRead _ _ => false
  | .copyWrite _ _ => true
  | .parkRead _ _ _ => false
  | .sub _ _ _ _ => false
  | .unsub _ _ => false
  | .fill _ _ _ _ => false
  | .crate _ => false

/-- A request goes on the wire by the port its route gives, once the link to that port's die is up; with none it is answered at once with UNREACH, as at the end of FTMO (12 R241,
R244, R245, R249). -/
def State.transmit (s : State) (r : Req) : Req × State :=
  let node := nodeOf r.pkt.va.toNat
  match s.sendPort r.ctx node r.pkt.va.toNat with
  | (some port, s) =>
    if s.cut r.die (port / 4) then ({ r with hold := .cut }, s) else
    let p := { r.pkt with src := s.srcField r.die, ckey := (s.ctx r.ctx).skey, tag := r.tag, dest := node, port := port }
    ({ r with pkt := p, hold := .sent, sentAt := s.now, ftmo := s.ftmo }, s.emit p)
  | (none, s) => ({ r with hold := .sent, sentAt := s.now, ftmo := 0 }, s)

/-- An earlier write of the same flow and line is unanswered (12 R248). -/
def State.lineBusy (s : State) (ctx va : Nat) : Bool :=
  s.reqs.any fun r => r.ctx == ctx && r.pkt.va.toNat / 256 == va / 256 && r.use.writes

/-- A request tag that no request under way carries; 0 is no tag (12 R243; log 16). -/
def State.newTag (s : State) : Nat × State :=
  let (n, s) := s.newId
  let t := n % 65535 + 1
  let used := fun t => s.reqs.any fun r => r.tag == t
  (if used t then ((List.range 65535).find? fun t => !used (t + 1)).getD 0 + 1 else t, s)

/-- A request issued: it takes a tag, and goes on the wire unless it is held (12 R246, R248). -/
def State.request (s : State) (r : Req) : State :=
  let (n, s) := s.newTag
  let r := { r with tag := n }
  if s.lineBusy r.ctx r.pkt.va.toNat then { s with reqs := s.reqs ++ [{ r with hold := .line }] }
  else if s.routeHeld then { s with reqs := s.reqs ++ [{ r with hold := .route }] }
  else
    let (r, s) := s.transmit r
    { s with reqs := s.reqs ++ [r] }

/-- Put a held request on the wire in place, or hold it while ROUTESET runs (12 R246). -/
def State.resend (s : State) (tag : Nat) : State :=
  match s.reqs.find? fun r => r.tag == tag with
  | some r =>
    let (r, s) := if s.routeHeld then ({ r with hold := .route }, s) else s.transmit r
    { s with reqs := s.reqs.map fun q => if q.tag = tag then r else q }
  | none => s

/-- A request ended; the next of its line that waited behind it is sent (12 R248). -/
def State.dropReq (s : State) (r : Req) : State :=
  let s := { s with reqs := s.reqs.filter fun q => q.tag != r.tag }
  match s.reqs.find? fun q => q.ctx == r.ctx && q.pkt.va.toNat / 256 == r.pkt.va.toNat / 256 with
  | some q => if q.hold = .line then s.resend q.tag else s
  | none => s

/-- A multicast's request. -/
def ReqUse.isMcst : ReqUse → Bool
  | .mcst _ _ _ _ => true
  | _ => false

/-- A write of a core's agents to other modules is unanswered (10 R194; 12 R248). -/
def State.coreWaits (s : State) (core : Nat) : Bool := s.reqs.any fun r => r.core == core && (r.use.writes || r.use.isMcst)

/-- A line of packets' data with its byte mask: WRITE's payload is the mask (32 bytes) and the line (12 Table 12.2). -/
def writePayload (cells : Tab Byte) : List Byte :=
  leBytes 32 (cells.foldl (fun m c => m ||| 2 ^ c.1) 0) ++ (List.range 256).map fun i => tget 0 cells i

/-! ### Write-combining buffer (10 R196) -/

/-- One entry drains as one write (10 R196). -/
def State.wcDrainOne (s : State) (core : Nat) (e : WcEntry) (ret : Nat := 0) (gid : Nat := 0) : State :=
  let s := s.setC core fun c => { c with wc := c.wc.filter fun w => !(w.line == e.line && w.ctx == e.ctx) }
  s.request { tag := 0, gid := gid, core := core, die := dieOfCore core, ctx := e.ctx, use := .drain ret,
              pkt := { kind := 2, va := BitVec.ofNat 64 (256 * e.line), payload := writePayload e.cells } }

/-- The chosen entries drain, oldest first. -/
def State.wcDrain (s : State) (core : Nat) (p : WcEntry → Bool) : State :=
  ((s.core core).wc.filter p).foldl (fun s e => s.wcDrainOne core e) s

/-- Bytes merged into an entry (10 R196). -/
def WcEntry.merge (w : WcEntry) (off : Nat) (bs : List Byte) : WcEntry :=
  { w with cells := (cellsOf off (fullMask bs) bs).foldl (fun l b => tput l b.1 b.2) w.cells }

/-- Bytes of a store to another module put in the buffer; a full buffer drains its oldest entry first, a full entry drains (10 R196). -/
def State.wcPut (s : State) (core gid va : Nat) (bs : List Byte) : State :=
  let ctx := (s.grp gid).ctx
  let line := va / 256
  let mine := fun (w : WcEntry) => w.line == line && w.ctx == ctx
  let s :=
    if (s.core core).wc.any mine then s
    else
      let s := if (s.core core).wc.length < 64 then s else
        match (s.core core).wc with | e :: _ => s.wcDrainOne core e | [] => s
      s.setC core fun c => { c with wc := c.wc ++ [{ line := line, ctx := ctx, opened := s.now, age := s.wcage, gid := gid }] }
  let s := s.setC core fun c => { c with wc := c.wc.map fun w => if mine w then w.merge (va % 256) bs else w }
  match (s.core core).wc.find? mine with
  | some w => if w.cells.length = 256 then s.wcDrainOne core w else s
  | none => s

/-- The byte that the buffer holds for an address of a context (10 R180, R196). -/
def State.wcByte (s : State) (core ctx va : Nat) : Option Byte :=
  match (s.core core).wc.find? fun w => w.line == va / 256 && w.ctx == ctx with
  | some w => if thas w.cells (va % 256) then some (tget 0 w.cells (va % 256)) else none
  | none => none

/-! ### Reading a place, with forwarding (10 R180) -/

/-- A group has a core's L1 and buffers: a core's group or guest; a sequencer and a cellar core have none. -/
def Group.hasL1 (g : Group) : Bool := g.kind == .core

/-- The first-level TLB that a group translates by (16 R317). -/
def Group.tlbCore (g : Group) : Option Nat := if g.kind == .core then some g.place else none

/-- A target as a space and an address in it. -/
def Target.spot : Target → Nat × Nat
  | .larder off => (0, off)
  | .scratch st off => (1 + st, off)
  | .loft d p => (100 + d, p)
  | .dev pa _ => (200, pa)
  | .host pa => (201, pa)
  | .remote va => (202, va)
  | .held va => (203, va)

/-- A place some bytes further on. -/
def Target.plus (t : Target) (n : Nat) : Target :=
  match t with
  | .larder o => .larder (o + n)
  | .scratch k o => .scratch k (o + n)
  | .loft d p => .loft d (p + n)
  | .dev pa pol => .dev (pa + n) pol
  | .host pa => .host (pa + n)
  | .remote va => .remote (va + n)
  | .held va => .held (va + n)

/-- The byte that a queued store holds for a place. -/
def StoreOp.holds (o : StoreOp) (sp : Nat × Nat) : Option Byte :=
  match o.act with
  | .bytes bs => let q := o.tgt.spot; if q.1 = sp.1 ∧ q.2 ≤ sp.2 ∧ sp.2 < q.2 + bs.length then some (bs.getD (sp.2 - q.2) 0) else none
  | .swinit w =>
    let q := o.tgt.spot
    let k := sp.2 - q.2
    if q.1 = sp.1 ∧ q.2 ≤ sp.2 ∧ (k < 8 ∨ (12 ≤ k ∧ k < 16)) then some (if k < 4 then BitVec.ofNat 8 (w / 256 ^ k) else 0) else none
  | _ => none

/-- The latest byte a group's queue holds for a place (10 R180). -/
def forwarded : List StoreOp → Nat × Nat → Option Byte
  | [], _ => none
  | o :: os, sp => match forwarded os sp with | some b => some b | none => o.holds sp

/-- n bytes of a place, with what a queue holds for them laid over. -/
def overlay (q : List StoreOp) (sp : Nat × Nat) : List Byte → List Byte
  | [] => []
  | b :: bs => (forwarded q sp).getD b :: overlay q (sp.1, sp.2 + 1) bs

/-- A queue holds every byte of a range. -/
def coveredBy (q : List StoreOp) (sp : Nat × Nat) (n : Nat) : Bool := (List.range n).all fun i => (forwarded q (sp.1, sp.2 + i)).isSome

/-- Exact cells and words of a die's loft (09 R168 to R170). -/
def Die.loftField (d : Die) (p n : Nat) : Nat := leNat (mreads d.loft p n)
/-- The 64-bit words of a loft range that carry poison (17 R344). -/
def Die.loftBad (d : Die) (p n : Nat) : Bool := d.loftPoison.any fun w => overlaps p n (8 * w) 8
/-- Bytes written to the loft; whole words take new check bits (17 R344). -/
def Die.loftWrite (d : Die) (p : Nat) (bs : List Byte) : Die :=
  { d with loft := mwrites d.loft p bs, loftPoison := d.loftPoison.filter fun w => !(decide (p ≤ 8 * w ∧ 8 * w + 8 ≤ p + bs.length)) }

/-- Bytes that a group reads at a place carry an uncorrectable error, where a queue does not hold them all (17 R344). -/
def State.badAt (s : State) (gid : Nat) (q : List StoreOp) (t : Target) (n : Nat) : Bool :=
  let g := s.grp gid
  let cov := coveredBy q t.spot n
  match t with
  | .larder off => (s.team g.tid).lbad off n && !cov
  | .scratch st off => (s.stack st).scratchBad off n && !cov
  | .loft d p => (s.die d).loftBad p n && !cov
  | .dev pa pol => s.devPoison g.place (if g.hasL1 || pol = 3 then pol else max pol 1) pa n && !cov
  | .host pa => s.hostBad pa n && !cov
  | .remote _ => false
  | .held _ => false

/-- n bytes read by a group at a place with a queue's stores laid over, whether they carry an uncorrectable error, and the state with what the read
fills or marks (09 R172; 10 R191; 17 R344). `va` is the address as the program formed it; `whole` a read of several sectors as one event. -/
def State.readWith (s : State) (gid : Nat) (q : List StoreOp) (t : Target) (n : Nat) (va : Nat := 0) (whole : Bool := false) :
    List Byte × Bool × State :=
  let g := s.grp gid
  let ov (bs : List Byte) := overlay q t.spot bs
  let bad (s : State) := s.badAt gid q t n
  match t with
  | .larder off => (ov ((s.team g.tid).lread off n), bad s, s.setT g.tid fun t => t.sees off n)
  | .scratch st off => (ov (mreads (s.stack st).scratch off n), bad s, s)
  | .loft d p => (ov (mreads (s.die d).loft p n), bad s, s)
  | .dev pa pol =>
    let pol := if g.hasL1 || pol = 3 then pol else max pol 1
    let u := if pol = 0 then s.l1Fill g.place g.ctx pa va n whole else s.l2Read g.die pol pa n
    (ov (u.readDev g.place pol pa n), bad u, u)
  | .host pa => (ov (s.hostRead pa n), bad s, s)
  | .remote _ => ([], false, s)
  | .held _ => ([], false, s)

/-- n bytes read by a group at a place, its own queued stores laid over (10 R180). -/
def State.readAt (s : State) (gid : Nat) (t : Target) (n : Nat) (va : Nat := 0) (whole : Bool := false) : List Byte × Bool × State :=
  s.readWith gid (s.grp gid).stores t n va whole

/-- The global line that a window line maps (09 R165). -/
def LWindow.lineAddr (w : LWindow) (line : Nat) : Nat := (w.base + 256 * (line - w.off)) % 2 ^ 64

/-- A window's line filled with a global line's bytes, its valid bit set (09 R165); the sectors in error carry poison (17 R344). Bytes
whose mask bit is set, which the N8 itself has written, stay (log 122). `from_` is the place and whether its page may be written. -/
def Team.fillLine (t : Team) (k line : Nat) (bs : List Byte) (bad : List Nat) (from_ : Option (Target × Bool) := none) : Team :=
  let w := tget {} t.lmap k
  let cells := (cellsOf (256 * line) (fullMask bs) bs).filter fun c => !w.dirty.contains c.1
  { t with larder := cells.foldl (fun m c => mwrite m c.1 c.2) t.larder,
           larderPoison := (t.larderPoison.filter fun p => p / 32 != line) ++ bad.flatMap fun q => (List.range 8).map (· + (32 * line + 8 * q)),
           lmap := tput t.lmap k { w with valid := w.valid ++ [line],
                                          places := match from_ with | some x => tput w.places line x | none => tdel w.places line } }

/-- The sectors of a line read in order, a queue's stores laid over: the bytes, and which sectors carry an uncorrectable error. -/
def State.readSectors (s : State) (gid : Nat) (st : List StoreOp) (t : Target) (va : Nat) : List Nat → List Byte × List Nat × State
  | [] => ([], [], s)
  | q :: qs =>
    let (bs, pois, s) := s.readWith gid st (t.plus (64 * q)) 64 (va + 64 * q)
    let (rest, bad, s) := s.readSectors gid st t va qs
    (bs ++ rest, if pois then q :: bad else bad, s)

/-- The N8's own access to larder bytes of a mapped window is a larder access too, whose first touch fills the line (09 R163, R165). Where the line's
page or place cannot be reached now, the access goes on without the fill, which leaves its bytes as they are (DEDUCED, log 122). -/
def State.ownFill (s : State) (tid off n : Nat) : State :=
  ((List.range ((off + n - 1) / 256 + 1 - off / 256)).map (· + off / 256)).foldl (fun s line =>
    let t := s.team tid
    match t.window line with
    | none => s
    | some (k, w) =>
      let va := w.lineAddr line
      if w.valid.contains line || !s.isLocal va then s
      else
        match s.xlate (dieOfCore t.core) t.ctx va .read true (some t.core) with
        | .ok tgt e =>
          if s.cutTo (dieOfCore t.core) tgt || (match tgt with | .dev pa _ => s.recalls pa 256 | _ => false) then s
          else
            let (bs, bad, s) := s.readSectors (t.groups.headD 0) [] tgt va [0, 1, 2, 3]
            s.setT tid fun t => t.fillLine k line bs bad (some (tgt, pteBit e 2))
        | _ => s) s

/-- Larder bytes written by the N8 itself, as one larder step (09 R163). -/
def State.ownWrite (s : State) (tid off : Nat) (bs : List Byte) : State := (s.ownFill tid off bs.length).setT tid fun t => t.lwrite off bs

/-- Bytes counted into a sync word by the N8 as one larder step (09 R167). -/
def State.ownCount (s : State) (tid w n : Nat) : State := (s.ownFill tid w 16).setT tid fun t => t.countSync w n

/-- What a load of another module's bytes takes from its own core's earlier stores: those of a queue, then the buffer's (10 R180, R196). -/
def State.fwdBytes (s : State) (gid : Nat) (q : List StoreOp) (va n : Nat) : Tab Byte :=
  let g := s.grp gid
  (List.range n).filterMap fun i =>
    match forwarded q (202, va + i) with
    | some b => some (i, b)
    | none => (s.wcByte g.place g.ctx (va + i)).map fun b => (i, b)

/-- V writes of a lane. -/
def vWrites (lane phys : Nat) (pois : Bool) (ws : List Word) : List RegWrite :=
  (List.range ws.length).map fun k => .v lane (phys + k) { val := ws.getD k 0, pois := pois }

/-- The words an access of a size writes from its bytes (11 R208). -/
def loadWords (z : Size) (bs : List Byte) : List Word :=
  match z with
  | .b8 => [w32 (leNat bs)]
  | .b16 => [w32 (leNat bs)]
  | .b32 => [w32 (leNat bs)]
  | .s8 => [wrap32 (sextInt 8 (leNat bs))]
  | .s16 => [wrap32 (sextInt 16 (leNat bs))]
  | .b64 => [w32 (fieldAt bs 0 4), w32 (fieldAt bs 4 4)]
  | .b128 => [w32 (fieldAt bs 0 4), w32 (fieldAt bs 4 4), w32 (fieldAt bs 8 4), w32 (fieldAt bs 12 4)]

/-- A load's lane with its bytes: the value is ready, and LDP's P bit is set (11 R208, R210). -/
def LaneRet.loaded (x : LaneRet) (z : Size) (p : Option Nat) (pois : Bool) (bs : List Byte) : LaneRet :=
  { x with ready := true,
           ws := vWrites x.lane x.dst pois (loadWords z bs) ++ (match p with | some i => [.p x.lane i true] | none => []) }

/-- Lanes of a return changed by their place in a list of lanes. -/
def Group.mapLanes (g : Group) (ret : Nat) (lanes : List Nat) (f : Nat → LaneRet → LaneRet) : Group :=
  g.setRet ret fun r => { r with lanes := r.lanes.map fun x => if lanes.contains x.lane then f (lanes.findIdx (· == x.lane)) x else x }

/-! ### Store queues (10 R180) -/

/-- A lane's value of a return is known and may land (02 R42). -/
def Group.ready (g : Group) (ret lane : Nat) (ws : List RegWrite) : Group :=
  g.setRet ret fun r => { r with lanes := r.lanes.map fun l => if l.lane = lane then { l with ready := true, ws := ws } else l }

/-- The words of an atomic's result: one, or two when wide. -/
def atomWrites (lane phys n v : Nat) (pois : Bool) : List RegWrite :=
  (List.range (n / 4)).map fun k => .v lane (phys + k) { val := w32 (v / 2 ^ (32 * k)), pois := pois }

/-- What a release does before its own write: the core's dirty bytes go home, at SYSTEM scope the write-combining buffer drains (10 R182,
R196; 11 R222). -/
def State.releaseCore (s : State) (core : Nat) (c : Scope) : State :=
  if !c.beyond then s
  else
    let s := s.l1BackAll core
    if c = .system then s.wcDrain core fun _ => true else s

/-- An atomic's result at its home for its group: the lane's value becomes ready, or the count falls (11 R219, R220). -/
def State.atomDone (s : State) (gid : Nat) (o : StoreOp) (n old : Nat) (pois : Bool) : State :=
  if o.dst < 256 then s.setG gid fun g => g.ready o.ret o.lane (atomWrites o.lane o.dst n old pois)
  else
    let s := if pois then s.lostWrite gid 5 o.va else s
    s.setG gid fun g => g.oneDone o.ret

/-- The ATOMIC packet's operands: OP is the code of 11 R218, AUX the operand bytes (12 Table 12.2; log 14). -/
def atomCode : AtomOp → Nat
  | .add => 0 | .minI => 1 | .maxI => 2 | .minN => 3 | .maxN => 4 | .and => 5 | .or => 6 | .xor => 7 | .xchg => 8 | .cas => 9
  | .faddF32 => 10 | .fmaxF32 => 11 | .faddBf16x2 => 12 | .incw => 13 | .decw => 14 | .fmaxabsF32 => 15

/-- One bank step (11 R214, R216); a block that carries poison is left as it stands. -/
def Die.bankStep (d : Die) (op : LopOp) (p v : Nat) : Nat × Bool × Die :=
  let n := lopBytes op
  if d.loftBad p n && !(op == .fill) then (0, true, d)
  else
    let (new, ret) := lopStep op (d.loftField p n) v
    (ret, false, d.loftWrite p (leBytes n new))

/-- The shadow records of a page are reset where its RACE attribute has been set anew: at the first access that meets it set (10 R203). A HOST page's
records stand above the device memory's (log 28). -/
def State.raceSeen (s : State) (die ctx va : Nat) : State :=
  match s.lookup die ctx va false with
  | .leaf e size _ =>
    let base := va % 2 ^ 45 / size * size
    if !pteBit e 6 || s.raceOn.contains (ctx, base) then s
    else
      let lo := pteAddr e / 64 + (if pteBit e 9 then 2 ^ 40 else 0)
      { s with raceOn := s.raceOn ++ [(ctx, base)], shadow := s.shadow.filter fun r => !decide (lo ≤ r.1 ∧ r.1 < lo + size / 64) }
  | _ => s

/-- Sectors written by a cellar call's core have an unknown writer (10 R203). -/
def State.raceUnknown (s : State) (die ctx va pa n : Nat) : State :=
  if n = 0 then s
  else
    let s := s.raceSeen die ctx va
    { s with shadow := (sectorsOf pa n).foldl (fun t k => tput t k { tget {} t k with wunk := true }) s.shadow }

/-- Bytes of a store performed at their place (10 R180; 09 R172). A release store beyond the core goes to its home at once. -/
def State.performBytes (s : State) (gid : Nat) (o : StoreOp) (bs : List Byte) : State :=
  let g := s.grp gid
  let done (s : State) := s.setG gid fun g => g.oneDone o.ret
  match o.tgt with
  | .larder off => done (s.setT g.tid fun t => t.lwrite off bs)
  | .scratch st off => done (s.setS st fun k => k.scratchWrite off bs)
  | .loft d p => done (s.setD d fun k => k.loftWrite p bs)
  | .dev pa pol =>
    if pol = 3 then done ((s.homeCells 3 (cellsOf pa (fullMask bs) bs)).raceUnknown g.die g.ctx o.va pa bs.length)
    else if !g.hasL1 then done (s.homeWrite pol pa bs (fullMask bs) (some g.die))
    else if o.order.rel && o.scope.beyond then done ((s.l1Flush g.place (pa / 256)).homeWrite pol pa bs (fullMask bs) (some g.die))
    else if pol = 0 then done (s.l1Store g.place g.ctx pa o.va bs)
    else done (s.homeWrite pol pa bs (fullMask bs) (some g.die))
  | .host pa => done (s.hostWrite pa bs (fullMask bs))
  | .remote va =>
    if o.order.rel then
      let s := s.wcDrain g.place fun w => w.line == va / 256 && w.ctx == g.ctx
      done (s.request { tag := 0, gid := gid, core := g.place, die := g.die, ctx := g.ctx, use := .drain 0,
                        pkt := { kind := 2, flags := 1, va := BitVec.ofNat 64 va,
                                 payload := writePayload (cellsOf (va % 256) (fullMask bs) bs) } })
    else done (s.wcPut g.place gid va bs)
  | .held va => done (s.lostWrite gid 2 va)

/-- A no-return atomic with acquire order, asked of another module by the last request, leaves a mark at the head of the queue, so that nothing later
passes it (10 R184). -/
def State.awaitLast (s : State) (gid : Nat) (o : StoreOp) (nr : Bool) : State :=
  if nr && o.order.acq then
    let tag := ((s.reqs.getLast?).map (·.tag)).getD 0
    s.setG gid fun g => { g with stores := { o with act := .await tag } :: g.stores }
  else s

/-- An atomic performed at its place (11 R219). -/
def State.performAtom (s : State) (gid : Nat) (o : StoreOp) (op : AtomOp) (wide : Bool) (v v2 : Nat) : State :=
  let g := s.grp gid
  let n := if wide then 8 else 4
  let nr := decide (256 ≤ o.dst)
  match o.tgt with
  | .dev pa pol =>
    let s := if g.hasL1 then s.l1Flush g.place (pa / 256) else s
    let (old, pois, s) := s.homeAtomic pol pa n op v v2
    let s := if pol = 3 then s.raceUnknown g.die g.ctx o.va pa n else s
    let s := if g.hasL1 && o.order.acq && o.scope.beyond then s.l1Acquire g.place else s
    s.atomDone gid o n old pois
  | .host pa =>
    let (old, pois, s) := s.hostAtomic pa n op v v2
    let s := if g.hasL1 && o.order.acq && o.scope.beyond then s.l1Acquire g.place else s
    s.atomDone gid o n old pois
  | .remote va =>
    let s := s.wcDrain g.place fun w => w.line == va / 256 && w.ctx == g.ctx
    let s := s.request { tag := 0, gid := gid, core := g.place, die := g.die, ctx := g.ctx, use := .atom o.ret o.lane n o.dst nr,
                         pkt := { kind := 3, flags := b2n o.order.rel + 2 * b2n nr, op := atomCode op, va := BitVec.ofNat 64 va,
                                  aux := BitVec.ofNat 64 n, payload := leBytes n v ++ leBytes n v2 } }
    s.awaitLast gid o nr
  | _ => s.atomDone gid o n 0 false

/-- An instruction's atomics on one line of another module leave as one REDUCE packet, in lane order (12 R255). -/
def State.performReduce (s : State) (gid : Nat) (o : StoreOp) (op : AtomOp) (wide : Bool) (es : List (Nat × Nat × Nat × Nat × Nat)) : State :=
  let g := s.grp gid
  let n := if wide then 8 else 4
  let nr := decide (256 ≤ o.dst)
  match o.tgt with
  | .remote va =>
    let s := s.wcDrain g.place fun w => w.line == va / 256 && w.ctx == g.ctx
    let s := s.request { tag := 0, gid := gid, core := g.place, die := g.die, ctx := g.ctx, use := .reduce o.ret (es.map fun e => (e.1, e.2.1)) n nr,
                         pkt := { kind := 4, flags := b2n o.order.rel + 2 * b2n nr, op := atomCode op, va := BitVec.ofNat 64 (va / 256 * 256),
                                  aux := BitVec.ofNat 64 n,
                                  payload := es.flatMap fun e => leBytes 1 e.2.2.1 ++ leBytes n e.2.2.2.1 ++ leBytes n e.2.2.2.2 } }
    s.awaitLast gid o nr
  | _ => es.foldl (fun s e => s.atomDone gid { o with lane := e.1, dst := e.2.1 } n 0 false) s

/-- A bank operation performed (11 R214). -/
def State.performLop (s : State) (gid : Nat) (o : StoreOp) (op : LopOp) (v : Word) : State :=
  match o.tgt with
  | .loft d p =>
    let (ret, pois, k) := (s.die d).bankStep op p v.toNat
    let s := s.setD d fun _ => k
    let s := if o.order.acq && o.scope.beyond then s.l1Acquire (s.grp gid).place else s
    s.atomDone gid o 4 ret pois
  | _ => s.atomDone gid o 4 0 false

/-- One event of a load performed, with the stores of a queue laid over: its lanes' values are ready, or are asked of another module, with what its own core holds for them (10 R180, R186,
R196). A lane is poisoned where its own bytes carry an error (02 R44). -/
def State.performLoad (s : State) (gid : Nat) (q : List StoreOp) (o : StoreOp) (lanes : List Nat) (z : Size) (p : Option Nat) : State :=
  let n := sizeBytes z
  match o.tgt with
  | .remote va =>
    let g := s.grp gid
    let s := s.setG gid fun g => g.mapLanes o.ret lanes fun k x => { x with fwd := s.fwdBytes gid q (va + n * k) n }
    s.request { tag := 0, gid := gid, core := g.place, die := g.die, ctx := g.ctx, use := .load o.ret lanes z p,
                pkt := { kind := 1, va := BitVec.ofNat 64 va, aux := BitVec.ofNat 64 (n * lanes.length) } }
  | t =>
    let s := if o.order.acq && o.scope.beyond && (s.grp gid).hasL1 then s.l1Acquire (s.grp gid).place else s
    let (bs, _, s) := s.readWith gid q t (n * lanes.length) o.va (decide (1 < lanes.length))
    s.setG gid fun g => g.mapLanes o.ret lanes fun k x => x.loaded z p (s.badAt gid q (t.plus (n * k)) n) (sliceAt bs (n * k) n)

/-- A record store that stalled on MOVING looks at its page again (05 R99; 16 R315): where it goes, the CODE of its loss and whether USER was
refused, or none while the stall goes on. -/
def State.heldTarget (s : State) (gid va since : Nat) : Option (Except (Nat × Bool) Target) :=
  match s.xlateSince (s.grp gid).die (s.grp gid).ctx va .write true since with
  | .ok t _ => some (.ok t)
  | .moving _ => none
  | .replay r _ => some (.error (if r = 1 then 1 else 2, false))
  | .prot u => some (.error (3, u))

/-- Accesses whose effect needs the units of later chapters: they are performed by STORE_PERFORMED alone. -/
def Action.late : Action → Bool
  | .flushr _ _ _ => true
  | .watch _ _ _ => true
  | .mcst _ _ _ _ _ _ => true
  | .bytes _ => false
  | .atom _ _ _ _ => false
  | .reduce _ _ _ => false
  | .lop _ _ => false
  | .load _ _ _ => false
  | .sdrn _ _ _ => false
  | .await _ => false
  | .park => false
  | .swinit _ => false
  | .index _ => true

/-- Bytes that a queued access reads or writes at its place. -/
def StoreOp.size (o : StoreOp) : Nat :=
  match o.act with
  | .bytes bs => bs.length
  | .atom _ w _ _ => if w then 8 else 4
  | .index _ => 4
  | .load ls z _ => sizeBytes z * ls.length
  | _ => 0

/-- A release beyond the core before its own access (10 R182, R196; 11 R222; 12 R248): the core's dirty bytes go home, and at SYSTEM scope the buffer
drains and every earlier write of the core to another module has its answer. The bool says that it is done. -/
def State.releaseDone (s : State) (core : Nat) (c : Scope) : Bool × State :=
  if !c.beyond then (true, s)
  else
    let s := s.releaseCore core c
    (!s.l1Dirty core (fun _ _ => true) && !(c == .system && s.coreWaits core), s)

/-- The place of a queued access can be reached now: its link is up, no copy engine owns its line, its core's L1 has room for what it brings, the core's
own bytes of its line go home before an atomic, a stall on MOVING is over (01 R13; 10 R187; 11 R219; 16 R315; 17 R344). What the L1 holds serves
neither an acquire nor a read of several sectors as one event (10 R184, R186). A cellar call's core passes no home slice (01 R16). -/
def State.placeOpen (s : State) (gid : Nat) (o : StoreOp) : Bool :=
  let g := s.grp gid
  !s.cutTo g.die o.tgt &&
    (match o.tgt with
     | .dev pa pol =>
       let cached := g.hasL1 && pol == 0 && !(o.order.rel && o.scope.beyond)
       let room := !cached || s.l1Room g.place (linesOf [pa, pa + o.size - 1])
       (match o.act with
        | .bytes _ => room && (cached || pol == 3 || !s.recalls pa o.size)
        | .load ls _ _ =>
          let held := cached && !(o.order.acq && o.scope.beyond) && decide (ls.length ≤ 1) && (sectorsOf pa o.size).all (s.core g.place).holdsSector
          room && (held || pol == 3 || !s.recalls pa o.size)
        | .atom _ _ _ _ => (pol == 3 || !s.recalls pa o.size) && (!g.hasL1 || s.l1Clears g.place (pa / 256))
        | .index _ => (pol == 3 || !s.recalls pa o.size) && (!g.hasL1 || s.l1Clears g.place (pa / 256))
        | _ => true)
     | .held va => (s.heldTarget gid va o.since).isSome
     | _ => true)

/-- A place can be reached by an access of 32 bytes at most (`placeOpen`). -/
def State.reaches (s : State) (gid : Nat) (t : Target) (atom : Bool) : Bool :=
  s.placeOpen gid { ret := 0, lane := 0, tgt := t, act := if atom then .atom .add false 0 0 else .load [0, 0] .b128 none }

/-- The head of a store queue makes ready to be performed; the bool says that it may be. -/
def State.tryHead (s : State) (gid : Nat) (o : StoreOp) : Bool × State :=
  let g := s.grp gid
  match o.act with
  | .await tag => (!(s.reqs.any fun r => r.tag == tag), s)
  | a =>
    if a.late then (false, s)
    else if o.order.rel && g.hasL1 then
      let (ok, s) := s.releaseDone g.place o.scope
      (ok && s.placeOpen gid o, s)
    else (s.placeOpen gid o, s)

/-- Entries of a core's buffer drained for a group, counted in ST until each is performed at its home (11 R227). -/
def State.drainCounted (s : State) (gid ret : Nat) (es : List WcEntry) : State :=
  let s := s.setG gid fun g => (g.setRet ret fun r => { r with left := es.length }).settle ret
  es.foldl (fun s e => s.wcDrainOne (s.grp gid).place e ret gid) s

/-- A CPYM's source may be read (10 R187). -/
def State.armPark (s : State) (cluster ret : Nat) : State :=
  s.setCl cluster fun k => { k with parks := k.parks.map fun q => if q.ret = ret then { q with armed := true } else q }

/-- SWINIT as one larder step (11 R240). -/
def Team.swInit (t : Team) (off w : Nat) : Team := (t.lwrite off (leBytes 4 w ++ leBytes 4 0)).lwrite (off + 12) (leBytes 4 0)

/-- A queued access performed at its place. -/
def State.performAct (s : State) (gid : Nat) (o : StoreOp) : State :=
  match o.act with
  | .bytes bs => s.performBytes gid o bs
  | .atom op wide v v2 => s.performAtom gid o op wide v v2
  | .reduce op wide es => s.performReduce gid o op wide es
  | .lop op v => s.performLop gid o op v
  | .load ls z p => s.performLoad gid [] o ls z p
  | .await _ => if o.scope.beyond then s.l1Acquire (s.grp gid).place else s
  | .park => s.armPark (s.grp gid).cluster o.ret
  | .swinit w => s.setT (s.grp gid).tid fun t => t.swInit o.va w
  | .sdrn tag off sync =>
    s.setCl (s.grp gid).cluster fun k => { k with drains := k.drains ++ [{ gid := gid, ret := o.ret, tag := tag, off := off, sync := sync }] }
  | .flushr _ _ _ => s
  | .watch _ _ _ => s
  | .mcst _ _ _ _ _ _ => s
  | .index _ => s

/-- The head of a group's store queue performed (10 R180): removed, then done. A record that cannot be written after its stall is lost (05
R99). -/
def State.performStore (s : State) (gid : Nat) (o : StoreOp) : State :=
  let s := s.setG gid fun g => { g with stores := g.stores.drop 1 }
  match o.tgt with
  | .held va =>
    match s.heldTarget gid va o.since with
    | some (.ok t) => s.performAct gid { o with tgt := t }
    | some (.error (c, u)) =>
      let d := if c = 3 then o.lane % 256 + 256 * 7 + 65536 * b2n u else 0
      let s := (s.lostWrite gid c va d).setG gid fun g => g.oneDone o.ret
      if u then s.freezeCtx (s.grp gid).die (s.grp gid).ctx 3 0 (s.grp gid).who o.pc.toNat va d gid else s
    | none => s.performAct gid o
  | _ => s.performAct gid o

/-- The queue performed from its head while nothing blocks (10 R180); the bool says that it emptied. -/
def State.drainUpTo (s : State) (gid : Nat) : Nat → Bool × State
  | 0 => ((s.grp gid).stores.isEmpty, s)
  | n + 1 =>
    match (s.grp gid).stores with
    | [] => (true, s)
    | o :: _ =>
      match s.tryHead gid o with
      | (false, s) => (false, s)
      | (true, s) => (s.performStore gid o).drainUpTo gid n

/-- A group's whole store queue performed. -/
def State.drainQueue (s : State) (gid : Nat) : Bool × State := s.drainUpTo gid (s.grp gid).stores.length

end Sys2Proof.Machine
end

