-- ==== Sys2Proof/Machine/Crates.lean ====
section
/-! DEFINITION. Crates: their layout, departure, and the return home of guest fibres (10 R194; 15 R300 to R308). -/
namespace Sys2Proof.Machine

/-- A kernel's KERNTAB entry (16 R320): its 128 bytes, where the handle is in range and the entry is the context's own. -/
def State.kernEntry (s : State) (ctx kh : Nat) : Option (List Byte) :=
  let c := s.ctx ctx
  if c.fld 0x54 2 ≤ kh then none
  else
    let e := s.homeRead (c.fld 0x40 8 + 128 * kh) 128
    if fieldAt e 0 1 = ctx then some e else none

/-- VMASK of a KERNTAB entry (16 R320). -/
def kernVmask (e : List Byte) : Nat := fieldAt e 0x30 32
/-- SMASK of a KERNTAB entry (16 R320). -/
def kernSmask (e : List Byte) : Nat := fieldAt e 0x28 4
/-- CELLSIZE of a KERNTAB entry (16 R320). -/
def kernCellSize (e : List Byte) : Nat := fieldAt e 0x20 8
/-- CELLIMG of a KERNTAB entry (16 R320). -/
def kernCellImg (e : List Byte) : Nat := fieldAt e 0x18 8

/-- One fibre's block of a crate (15 Table 15.3). -/
structure CrateFibre where
  lane : Nat
  wb8 : Nat
  preds : Nat
  /-- masked V registers by physical index -/
  vs : List (Nat × VLane) := []
  deriving DecidableEq, Repr, Inhabited

/-- The fields of a crate header (15 Table 15.2). -/
structure CrateHead where
  khandle : Nat
  hops : Nat
  flags : Nat
  fpfl : Nat := 0
  pc : Nat
  homeNode : Nat
  homeCore : Nat
  homeSlot : Nat
  ctx : Nat
  seq : Nat
  fpmode : Nat := 0
  lx : Nat := 0
  addr : Nat := 0
  smask : Nat := 0
  deriving DecidableEq, Repr, Inhabited

/-- The bits set in a mask of n bits, ascending. -/
def bitsSet (n mask : Nat) : List Nat := (List.range n).filter (bitOf mask)

/-- A crate's bytes (15 R301). -/
def crateBytes (h : CrateHead) (ss : List Word) (fs : List CrateFibre) : List Byte :=
  record [(4, h.khandle), (1, fs.length), (1, h.hops), (1, h.flags), (1, h.fpfl), (8, h.pc),
    (8, h.homeNode + 2 ^ 19 * h.homeCore + 2 ^ 29 * h.homeSlot + 2 ^ 35 * h.ctx), (4, h.seq), (1, h.fpmode), (3, 0), (4, h.lx), (4, 0),
    (8, maskOf (fs.map (·.lane))), (8, h.addr), (4, h.smask), (4, 0)] ++
  ss.flatMap (fun w => leBytes 4 w.toNat) ++
  fs.flatMap fun f =>
    record [(1, f.lane), (1, f.wb8), (2, f.preds),
      (2, maskOf ((List.range f.vs.length).filter fun i => ((f.vs.drop i).headD (0, {})).2.pois)), (2, 0)] ++
    f.vs.flatMap fun e => leBytes 4 e.2.val.toNat

/-- The header of a crate's bytes (15 Table 15.2). -/
def crateHead (b : List Byte) : CrateHead :=
  let home := fieldAt b 0x10 8
  { khandle := fieldAt b 0 4, hops := fieldAt b 5 1, flags := fieldAt b 6 1, fpfl := fieldAt b 7 1, pc := fieldAt b 8 8,
    homeNode := home % 2 ^ 19, homeCore := home / 2 ^ 19 % 1024, homeSlot := home / 2 ^ 29 % 64, ctx := home / 2 ^ 35 % 64,
    seq := fieldAt b 0x18 4, fpmode := fieldAt b 0x1C 1, lx := fieldAt b 0x20 4, addr := fieldAt b 0x30 8, smask := fieldAt b 0x38 4 }

/-- The fibre blocks of a crate's bytes from an offset (15 R301). -/
def crateFibresFrom (vmask : Nat) (b : List Byte) : Nat → Nat → List CrateFibre
  | 0, _ => []
  | n + 1, off =>
    let vs := bitsSet 256 vmask
    { lane := fieldAt b off 1, wb8 := fieldAt b (off + 1) 1, preds := fieldAt b (off + 2) 2,
      vs := (List.range vs.length).map fun i =>
        ((vs.drop i).headD 0, { val := w32 (fieldAt b (off + 8 + 4 * i) 4), pois := bitOf (fieldAt b (off + 4) 2) i }) } ::
      crateFibresFrom vmask b n (off + 8 + 4 * vs.length)

/-- The S registers carried and the fibre blocks (15 R301); a return crate carries no S register, an end notice only records. -/
def crateBody (vmask : Nat) (b : List Byte) : List (Nat × Word) × List CrateFibre :=
  let h := crateHead b
  let n := fieldAt b 4 1
  let ss := if h.flags % 4 = 0 then bitsSet 32 h.smask else []
  ((List.range ss.length).map (fun i => ((ss.drop i).headD 0, w32 (fieldAt b (64 + 4 * i) 4))),
   crateFibresFrom (if bitOf h.flags 1 then 0 else vmask) b n (64 + 4 * ss.length))

/-- A lane's home lane (15 R301). -/
def Group.homeLane (g : Group) (l : Nat) : Nat :=
  match g.guest with | some i => tget l i.homeLane l | none => l

/-- The kernel handle a group runs (13 Table 13.4). -/
def State.khandle (s : State) (gid : Nat) : Nat :=
  match (s.grp gid).guest with
  | some i => i.khandle
  | none => (s.grid (s.team (s.grp gid).tid).grid).fld 0x24 4

/-- A lane as a fibre block with the registers of a V mask (15 R301). -/
def Group.block (g : Group) (vmask l : Nat) (setP : Option Nat) : CrateFibre :=
  let f := g.fib l
  { lane := g.homeLane l, wb8 := f.wb8.toNat,
    preds := (match setP with | some i => setBit16 f.preds i true | none => f.preds).toNat,
    vs := (bitsSet 256 vmask).map fun p => (p, g.vlane l p) }

/-- HOME and the rest of a group's header (15 Table 15.2). -/
def State.headOf (s : State) (gid pc hops flags seq addr : Nat) : CrateHead :=
  let g := s.grp gid
  match g.guest with
  | some i =>
    { khandle := i.khandle, hops := hops, flags := flags + 4 * b2n i.w64, pc := pc, homeNode := i.homeNode,
      homeCore := i.homeCore, homeSlot := i.homeSlot,
      ctx := g.ctx, seq := seq, fpmode := g.fpmode.toNat % 256, lx := g.lx.toNat, addr := addr, smask := i.smask }
  | none =>
    { khandle := s.khandle gid, hops := hops, flags := flags + 4 * b2n (g.width == 64), pc := pc, homeNode := s.nodeid.toNat, homeCore := g.place,
      homeSlot := g.slot, ctx := g.ctx, seq := seq, fpmode := g.fpmode.toNat % 256, lx := g.lx.toNat, addr := addr,
      smask := (s.grid (s.team g.tid).grid).smask }

/-- The V mask of a group's crates: its grid's, as read when the launch was accepted (04 R78). -/
def State.vmaskOf (s : State) (gid : Nat) : Nat :=
  match (s.grp gid).guest with
  | some i => i.vmask
  | none => (s.grid (s.team (s.grp gid).tid).grid).vmask

/-- A lane's slot freed: it reads zero until reused (02 R29; 15 R292). -/
def Group.freeLane (g : Group) (l : Nat) : Group := { (g.vzero l) with fibres := tdel g.fibres l }

/-- A guest group without fibres is gone, and its slot free (15 R302). -/
def State.dropGuest (s : State) (gid : Nat) : State :=
  let g := s.grp gid
  if g.isGuest && g.unended.isEmpty && g.returns.isEmpty && g.stores.isEmpty then
    let s := { s with groups := tdel s.groups gid }
    match g.kind with
    | .cellar => s.setCe g.place fun c => { c with guests := c.guests.filter (· != gid) }
    | .core => s.setC g.place fun c => { c with guests := c.guests.filter fun e => e.2 != gid, slots := c.slots.filter fun e => e.2.gid != gid }
    | .sequencer => s
  else s

/-- Every earlier access of a group's fibres is performed at its home, or is on its way: the queue, the L1 and the buffer are emptied; the
bool says that nothing is left (10 R194). -/
def State.flushGroup (s : State) (gid : Nat) : Bool × State :=
  let (done, s) := s.drainQueue gid
  let g := s.grp gid
  let s := if g.hasL1 then (s.l1BackAll g.place).wcDrain g.place fun _ => true else s
  (done && !s.coreWaits g.place && !(g.hasL1 && s.l1Dirty g.place fun _ _ => true), s)

/-! ### The launch of a group's fibres, and the interval counters of the race detector (10 R202; 13 Table 13.6) -/

/-- FLAGS of the launch a group's fibres belong to (13 Table 13.6). -/
def State.launchFlags (s : State) (gid : Nat) : Nat :=
  match (s.grp gid).guest with
  | some i => i.lflags
  | none => (s.grid (s.team (s.grp gid).tid).grid).flags

/-- The detection scope D that a group's launch names; none where the detector is off (13 Table 13.6). -/
def State.raceLaunch (s : State) (gid : Nat) : Option Nat :=
  let fl := s.launchFlags gid
  if bitOf fl 2 && (s.grp gid).call.isNone then some (fl / 16 % 8) else none

/-- The team of a group's fibres: a guest's is its home's. -/
def State.raceTeam (s : State) (gid : Nat) : Nat :=
  match (s.grp gid).guest with
  | some i => (s.grp i.homeGid).tid
  | none => (s.grp gid).tid

/-- The D-instance a group belongs to: 1 TEAM, 2 CLUSTER, 3 DIE, 4 MODULE (10 R202). -/
def State.raceInstance (s : State) (gid d : Nat) : Nat :=
  let g := s.grp gid
  match d with
  | 1 => s.raceTeam gid
  | 2 => (match g.kind with | .core => clusterOfCore g.place | .sequencer => g.place | .cellar => 128 + g.place)
  | 3 => g.die
  | _ => 0

/-- The table key of a D-instance's interval counter. -/
def State.intervalKey (s : State) (gid d : Nat) : Nat := ((s.grp gid).ctx * 8 + d) * 2 ^ 32 + s.raceInstance gid d

/-- A barrier, release or acquire by each of n fibres of a grid, at home, away or a sequencer context's, advances the counter of their D-instance
(10 R202); Table 10.2's mechanisms are releases and acquires too. -/
def State.raceTick (s : State) (gid n : Nat) : State :=
  match s.raceLaunch gid with
  | some d =>
    let k := s.intervalKey gid d
    { s with intervals := tput s.intervals k ((tget 0 s.intervals k + n) % 2 ^ 25) }
  | none => s

/-! ### Leaving a guest (15 R292, R306, R308) -/

/-- A return crate, or an end notice, leaves a guest (15 R292, R306, R308). It goes to a home on this module, or as a CRATE packet. A
return is a release (10 R194). An end notice carries FPFL 0, so flags raised by fibres that all end there never reach home (DEDUCED, log 116). -/
def State.leaveGuest (s : State) (gid : Nat) (lanes : List Nat) (pc : Nat) (ending : Bool) : State :=
  let g := s.grp gid
  match g.guest with
  | none => s
  | some i =>
    let s := if ending then s else s.raceTick gid lanes.length
    let seq := if ending then i.seq else (i.seq + 1) % 2 ^ 32
    let h := s.headOf gid pc 0 (if ending then 2 else 1) seq 0
    let h := { h with fpfl := if ending then 0 else (i.flags.toNat ||| g.fpflags.toNat % 64) }
    let fs := lanes.map fun l => g.block (if ending then 0 else i.vmask) l none
    let bytes := crateBytes h [] fs
    let (n, s) := s.newId
    let s := s.setG gid fun g => lanes.foldl Group.freeLane g
    let s := s.setG gid fun g => if ending then g else { g with fpflags := 0, guest := some { i with flags := 0, seq := seq } }
    let s :=
      if i.homeGid ≠ 0 then
        { s with crates := s.crates ++ [{ id := n, bytes := bytes, ret := true, endNotice := ending, fromGid := gid, ctx := g.ctx, sentAt := s.now,
                                          lanes := maskOf (fs.map (·.lane)), srcDie := g.die }] }
      else
        s.request { tag := 0, gid := gid, core := g.place, die := g.die, ctx := g.ctx, use := .crate n,
                    pkt := { kind := 10, va := BitVec.ofNat 64 (i.homeNode * 2 ^ 45), payload := bytes } }
    s.dropGuest gid

/-- Guest fibres go home before an instruction that they cannot execute there, and the event is taken at home (15 R308). -/
def State.sendHome (s : State) (gid mask pc : Nat) : State :=
  let g := s.grp gid
  let lanes := (g.lanes mask)
  let (ok, s) := s.flushGroup gid
  if !ok || (g.returns.any fun r => r.lanes.any fun l => lanes.contains l.lane) then
    s.setG gid fun g => lanes.foldl (fun g l => g.setF l fun f => { f with wait := .depart }) g
  else s.leaveGuest gid lanes pc false

end Sys2Proof.Machine
end

