-- ==== Sys2Proof/Machine/Ops.lean ====
section
/-! DEFINITION. The shared operations of every instruction: the checks before it, how it retires, how it blocks, how it takes a trap or
becomes replayable, and the return from a handler (03 R48, R62 to R65; 02 R33, R42 to R44; 17 R331 to R334; 18 R356). -/
namespace Sys2Proof.Machine

/-- The outcome type of exec. -/
abbrev Out := Host.Outcome State Fault Refusal

/-! ### Runs (03 R48) -/

/-- The issue slot on which a group's run is in progress. -/
def Core.slotOf (c : Core) (gid : Nat) : Option Nat :=
  [0, 1, 2, 3].find? fun k => (tget {} c.slots k).gid == gid && gid != 0

/-- The issuing group's slot is free again (13 R265). -/
def State.leaveSlot (s : State) : State :=
  let g := s.g
  let gid := s.cur.gid
  let s := { s with cur := {} }
  if g.kind = .core && thas s.groups gid then
    s.setC g.place fun c => { c with slots := c.slots.filter fun e => e.2.gid != gid }
  else s

/-- The run that the issuing group has on its slot. -/
def State.curRun (s : State) : Run :=
  match (s.core s.g.place).slotOf s.cur.gid with | some k => tget {} (s.core s.g.place).slots k | none => {}

/-- The issuing group's run ends: its batches' ages count it, and its slot is free (03 R48; 13 R264, R265). -/
def State.endRun (s : State) : State :=
  let ages := match s.g.kind with | .core => s.curRun.ages | .cellar => s.cur.ages | .sequencer => []
  let s := if thas s.groups s.cur.gid then s.modG fun g => { g with ages := ages, readySince := s.now } else s
  s.leaveSlot

/-- The fibres of the issuing batch each changed. -/
def State.eachFib (s : State) (f : Nat → Fibre → Fibre) : State :=
  let ls := s.batch
  s.modG fun g => g.forLanes ls fun g l => g.setF l (f l)

/-- The issuing batch stands at PCs given by lane, and waits for nothing. -/
def State.standAt (s : State) (pc : Nat → Dword) : State := s.eachFib fun l f => { f with pc := pc l, wait := .none, refused := none, fellBack := false }

/-- The run goes on at the next instruction, or ends after an E bit or the 24th instruction; fibres past a SKP that stand there rejoin
(03 R48; 15 R287). On a cellar core or a sequencer every instruction is one run (13 R264, 14 R272). -/
def State.goOn (s : State) (e : Bool) : State :=
  let g := s.g
  match (s.core g.place).slotOf s.cur.gid with
  | some k =>
    let r := tget {} (s.core g.place).slots k
    if g.kind != .core || e || decide (24 ≤ r.count + 1) then s.endRun
    else
      let back := maskOf ((g.lanes r.skip).filter fun l => (g.fib l).pc == s.cur.npc)
      let s := s.setC g.place fun c =>
        { c with slots := tput c.slots k { r with mask := s.cur.mask ||| back, skip := r.skip &&& (2 ^ 64 - 1 - back), pc := s.cur.npc,
                                                  count := r.count + 1 } }
      { s with cur := {} }
  | none => s.endRun

/-- The instruction has issued: its batch moves to the next one (15 R284). -/
def State.retire (s : State) (e : Bool) : State := (s.standAt fun _ => s.cur.npc).goOn e

/-- The instruction has issued and ends the run: a taken branch and its like (03 R48). -/
def State.retireAt (s : State) (pc : Nat → Dword) : State := (s.standAt pc).endRun

/-- A walk for an address stalls on MOVING: the instruction waits (16 R315). -/
def movingStop (va : Nat) : Stop := .block (.moving (va / 65536))
/-- A link on the way is down: the instruction waits (01 R11; 17 R344). -/
def linkStop (va : Nat) : Stop := .block (.link (va / 65536))
/-- A walk stalls, by the level at which it does: level 0 stands for a link that is down. -/
def stallStop (level va : Nat) : Stop := if level = 0 then linkStop va else movingStop va

/-- When a fibre's stall on MOVING for an address began: now, unless it stands in one. Each page's stall counts from its own start (16 R315). -/
def State.stallStart (s : State) (gid l va : Nat) : Nat :=
  let f := (s.grp gid).fib l
  if f.wait = .moving (va / 65536) then f.waitSince else s.now

/-- The instruction blocks: the batch stands at it, and the run ends (03 R48). A wait that goes on keeps its start (13 R267, 16 R315). A run
that has issued nothing is no run, and leaves the group ready since it was (13 R264, R265). -/
def State.blockOn (s : State) (w : Wait) : State :=
  let s := s.eachFib fun _ f => { f with wait := w, waitSince := if f.wait = w then f.waitSince else s.now }
  if s.curRun.count = 0 then s.leaveSlot else s.endRun

/-! ### Traps (03 R64; 17 R331 to R334) -/

/-- Class-U codes (17 Table 17.1). -/
def userClass (code : Nat) : Bool :=
  code = 1 || code = 2 || code = 3 || code = 4 || code = 5 || code = 6 || code = 7 || code = 0xC || code = 0xD || code = 0x10 || code = 0x11 ||
  code = 0x12

/-- The parcels of an instruction as 12 bytes (03 Table 3.9). -/
def parcelBytes (ps : List Parcel) : List Byte := padTo 12 (ps.flatMap fun p => leBytes 2 p.toNat)

/-- FLAGS of a trap record (03 Table 3.9): a LIT or MOD is present once it is accepted as a prefix, so one that itself fails sets no bit (DEDUCED,
log 100). -/
def trapFlags (w64 : Bool) (i : Issue) : Nat :=
  b2n w64 + 2 * b2n i.pre.lit.isSome + 4 * b2n i.pre.mod.isSome + 8 * b2n i.c16

/-- A trap record's 128 bytes (03 Table 3.9). -/
def trapRecord (g : Group) (i : Issue) (t : Trap) : List Byte :=
  record [(8, i.pc.toNat), (8, i.npc.toNat)] ++ parcelBytes i.parcels ++
  record [(1, i.parcels.length), (1, t.code), (1, trapFlags (g.width == 64) i), (1, kindCode g.kind), (8, i.mask), (8, t.detail), (8, t.addr),
    (4, g.fpmode.toNat), (4, 0)] ++
  (List.range 64).map fun l => if bitOf i.mask l then BitVec.ofNat 8 (g.fib l).wb8.toNat else 0

/-- Larder offset of a group's trap record (17 R333). -/
def State.recordAt (s : State) (gid : Nat) : Nat := (s.team (s.grp gid).tid).larderSize - 128 * ((s.grp gid).number + 1)

/-- A group's trap record is still to be written (17 R333). -/
def State.recordWaits (s : State) (gid : Nat) : Bool := (s.grp gid).stores.any fun o => o.ret == 0 && o.tgt == .larder (s.recordAt gid)

/-- Enter the user handler (17 R333): the record is written as one larder step after the group's earlier larder stores, then each fibre of
FMASK slides its window and goes to the trap vector; where earlier stores keep the record waiting, the handler waits with it. A sequencer context takes its trap registers and goes to STVEC. -/
def State.enterHandler (s : State) (gid : Nat) (i : Issue) (t : Trap) : State :=
  let g := s.grp gid
  match g.kind with
  | .sequencer =>
    s.setG gid fun g =>
      let q := { g.seq with
        stpc := i.pc, stnext := i.npc, stcode := w32 (t.code + 256 * i.parcels.length + 65536 * trapFlags false i), stdetail := BitVec.ofNat 64 t.detail,
        staddr := BitVec.ofNat 64 t.addr, stparc := BitVec.ofNat 96 (leNat (parcelBytes i.parcels)), inHandler := true }
      ({ g with seq := q }).setF 0 fun f => { f with pc := q.stvec, wait := .none }
  | _ =>
    let (done, s) := s.drainQueue gid
    let g := s.grp gid
    let gr := s.grid (s.team g.tid).grid
    let s :=
      if done then s.ownWrite g.tid (s.recordAt gid) (trapRecord g i t)
      else s.setG gid fun g => { g with stores := g.stores ++ [{ ret := 0, lane := 0, tgt := .larder (s.recordAt gid), act := .bytes (trapRecord g i t) }] }
    s.setG gid fun g =>
      ({ g with handler := i.mask }).forLanes (g.lanes i.mask) fun g l =>
        g.setF l fun f => { f with wb8 := f.wb8 + BitVec.ofNat 8 (gr.trapwin / 8), pc := BitVec.ofNat 64 gr.trapvec,
                                   wait := if done then .none else .record }

/-- A class-D trap: the group is held at the instruction, and a record of KIND 0x02 goes to the driver (17 R331, R336). -/
def State.holdTrap (s : State) (gid : Nat) (i : Issue) (t : Trap) (nested : Bool) : State :=
  let g := s.grp gid
  let s := s.setG gid fun g => { g with hold := some (.trap t i nested) }
  s.postHeld { die := g.die, gid := gid, bytes := faultBytes 2 t.code g.ctx nested g.who i.pc.toNat t.addr t.detail }

/-- Freeze event number of a class-F trap: the row of 16 R324. -/
def freezeEvent (code : Nat) : Nat := if code = 0xA then 1 else if code = 0x14 then 2 else 3

/-- A trap on a cellar core of a call: the core stops, and the call's first trap fills its status (14 R279). -/
def State.cellarTrap (s : State) (gid : Nat) (i : Issue) (t : Trap) : State :=
  let g := s.grp gid
  match g.call with
  | none => s
  | some (c, k) =>
    let rcd := trapRecord g i t
    let s := s.setCall c fun q => { q with first := match q.first with | some f => some f | none => some (t.code, k, rcd) }
    s.setG gid fun g => { ((g.lanes (2 ^ g.width - 1)).foldl Group.freeLane g) with ended := true }

/-- The user trap vector of a group; 0 for none (13 Table 13.4; 17 R331, R333). -/
def State.vector (s : State) (gid : Nat) : Nat :=
  let g := s.grp gid
  match g.kind with
  | .sequencer => g.seq.stvec.toNat
  | _ => (s.grid (s.team g.tid).grid).trapvec

/-- A trap at an instruction whose handler is running already (17 R334): by a fibre of FMASK, or a second one on a sequencer context. -/
def Group.nests (g : Group) (mask : Nat) : Bool :=
  match g.kind with
  | .sequencer => g.seq.inHandler
  | _ => g.handler &&& mask != 0

/-- Take a trap at the instruction as it issued (17 R331 to R334). One of class F by a fibre of a handler both freezes its context and holds its group
with a nested record (DEDUCED, log 107). A guest's event is taken at home (15 R308). -/
def State.trapAt (s : State) (gid : Nat) (i : Issue) (t : Trap) : State :=
  let g := s.grp gid
  if g.isGuest then s.sendHome gid i.mask i.pc.toNat
  else if g.call.isSome then s.cellarTrap gid i t
  else if g.nests i.mask then
    State.holdTrap (if t.freezes then s.freezeCtx g.die g.ctx (freezeEvent t.code) 0 g.who i.pc.toNat (t.handle.getD t.addr) t.detail gid else s) gid i t true
  else if t.freezes then s.freezeCtx g.die g.ctx (freezeEvent t.code) 0 g.who i.pc.toNat (t.handle.getD t.addr) t.detail gid
  else if userClass t.code && s.vector gid != 0 then
    if g.handler != 0 then
      s.setG gid fun g =>
        ({ g with heldTraps := g.heldTraps ++ [(t, i)] }).forLanes (g.lanes i.mask) fun g l => g.setF l fun f => { f with wait := .handler }
    else s.enterHandler gid i t
  else s.holdTrap gid i t false

/-- A core becomes suspect: it stops, and what stands on it is listed (17 R346). -/
def State.suspect (s : State) (core : Nat) : State :=
  let ts := (s.teams.filter fun e => e.2.phase == .resident && e.2.core == core).map (·.1)
  s.setC core fun c => { c with retiring := some ts }

/-- An instruction takes an uncorrectable error in its core's register files: the third within 1 ms makes the core suspect (17 R346). -/
def State.fileError (s : State) (core : Nat) : State :=
  let recent := (s.core core).fileErrors.filter fun t => decide (s.now < t + 1000 * usTicks)
  let s := s.setC core fun c => { c with fileErrors := recent ++ [s.now] }
  if recent.length < 2 ∨ (s.core core).out ∨ (s.core core).retiring.isSome then s else s.suspect core

/-- The issuing instruction takes a trap, which ends the run (17 R332); its core counts it where its own register files are at fault (17 R346). -/
def State.takeTrap (s : State) (t : Trap) : State :=
  let u := s.trapAt s.cur.gid s.cur t
  (if t.file && s.g.kind = .core then u.fileError s.g.place else u).endRun

/-- The issuing instruction takes no effect now: it traps, makes its group replayable, waits, or sends its guest fibres home. -/
def State.halt (s : State) : Stop → State
  | .trap t => ({ s with fresh := s.fresh + 1 }).takeTrap t
  | .replay addr reason level =>
    if s.g.isGuest then (s.sendHome s.cur.gid s.cur.mask s.cur.pc.toNat).endRun
    else (s.makeReplayable s.cur.gid s.cur.pc.toNat addr reason level).endRun
  | .block w => s.blockOn w
  | .home => (s.sendHome s.cur.gid s.cur.mask s.cur.pc.toNat).endRun

/-! ### Checks before an instruction (03 R62, R63; 02 R33, R42, R44) -/

/-- The kinds that run an instruction, and whether a guest fibre executes it where it stands (03 Table 3.8; 15 R308). -/
structure Avail where
  core : Bool := true
  cellar : Bool := false
  seq : Bool := false
  guest : Bool := false
  deriving DecidableEq, Repr

/-- A kind runs the instruction. -/
def Avail.runs (av : Avail) : Kind → Bool | .core => av.core | .cellar => av.cellar | .sequencer => av.seq

/-- One register reference: its class, its field, how many consecutive registers, the pattern of a V source, whether its lanes are read.
`low` is a V register of the batch's lowest lane's window alone (06 R116). -/
structure Ref where
  cls : Nat
  field : Nat
  n : Nat := 1
  pat : Pat := .straight
  read : Bool := false
  low : Bool := false
  deriving DecidableEq, Repr

/-- A V source. -/
def vsrc (r : Reg) (n : Nat := 1) (p : Pat := .straight) : Ref := { cls := 0, field := r.toNat, n := n, pat := p, read := true }
/-- A V destination. -/
def vdst (r : Reg) (n : Nat := 1) : Ref := { cls := 0, field := r.toNat, n := n }
/-- An S source or destination. -/
def sref (r : Reg) (n : Nat := 1) : Ref := { cls := 1, field := r.toNat, n := n }
/-- A P source or destination. -/
def pref (p : Nat) : Ref := { cls := 5, field := p }
/-- A tile. -/
def tref (t : Fld3) : Ref := { cls := 2, field := t.toNat }
/-- An accumulator. -/
def zref (z : Fld3) : Ref := { cls := 3, field := z.toNat }
/-- A queue register. -/
def qref (q : Fld3) : Ref := { cls := 4, field := q.toNat }
/-- An eight-bit source field (02 R39). -/
def srcRef (x : Src) (n : Nat := 1) : Ref :=
  match x with
  | .v r p => vsrc r n p
  | .s r => sref r n

/-- The lane a pattern reads for lane l (02 R39). -/
def Group.srcLane (g : Group) (p : Pat) (l : Nat) : Nat :=
  let lx := g.lx.toNat
  match p with
  | .straight => l
  | .rot => (l + lx % 64 % g.width) % g.width
  | .xor => l ^^^ (lx / 64 % 64 % g.width)
  | .bc => lx / 4096 % 64 % g.width

/-- The declared allocation of a class (02 R33): classes 0 V, 1 S, 2 T, 3 Z, 4 Q. -/
def State.allocOf (s : State) (cls : Nat) : Nat :=
  match cls with
  | 0 => s.g.vAlloc | 1 => s.g.sAlloc | 2 => s.g.tAlloc | 3 => s.tm.zAlloc | 4 => s.tm.qregs | _ => 16

/-- The indices a reference forms for the batch: V by each lane's WB (02 R32, R33). -/
def State.refIdx (s : State) (r : Ref) : List Nat :=
  let base := if r.cls = 0 then distinct ((if r.low then s.batch.take 1 else s.batch).map fun l => s.g.wb l + r.field) else [r.field]
  (List.range r.n).flatMap fun k => base.map (· + k)

/-- The (class, index) pairs that fail R33. -/
def State.badRefs (s : State) (rs : List Ref) : List (Nat × Nat) :=
  rs.flatMap fun r => if r.cls = 5 then [] else ((s.refIdx r).filter fun i => decide (s.allocOf r.cls ≤ i)).map fun i => (r.cls, i)

/-- REGIDX of a failing reference (02 R33): where several fail, the spec does not say which is reported (log 2). -/
def State.regTrap (s : State) (bad : List (Nat × Nat)) : Trap :=
  let e := (bad.drop ((Config.freeValue s.fresh).toNat % bad.length)).headD (0, 0)
  { code := tREGIDX, detail := e.1 + 65536 * s.allocOf e.1 + 2 ^ 32 * (e.2 % 4096) }

/-- The registers whose scoreboard bits the references meet (02 R42). -/
def State.pendingRefs (s : State) (rs : List Ref) : List RegRef :=
  rs.flatMap fun r => ((s.refIdx r).map fun i => ({ cls := r.cls, idx := i } : RegRef)).filter fun q => s.g.pending q

/-- The poisoned lanes that a source reads: (physical index, lane) (02 R44). Sources stand in the order in which the instruction lists its fields, which is
the order of 02 R44 where a format letters them (DEDUCED, log 113). -/
def State.poisonOf (s : State) (r : Ref) : List (Nat × Nat) :=
  if r.cls = 0 && r.read then
    (s.batch.flatMap fun l => (List.range r.n).map fun k => (s.g.wb l + r.field + k, s.g.srcLane r.pat l)).filter fun e => (s.g.vlane e.2 e.1).pois
  else []

/-- The least of pairs: lowest physical index, then lowest lane (02 R44). -/
def leastPair : List (Nat × Nat) → Option (Nat × Nat)
  | [] => none
  | a :: l => match leastPair l with | some b => if a.1 < b.1 ∨ (a.1 = b.1 ∧ a.2 ≤ b.2) then some a else some b | none => some a

/-- POISON of a lane of a V register, named as (physical index, lane) (02 R44). -/
def State.lanePoison (s : State) (e : Nat × Nat) : Trap := { code := tPOISON, detail := e.2 + 2 ^ 32 * e.1, file := (s.g.vlane e.2 e.1).own }

/-- The poisoned lane reported: of the lowest-numbered source field (02 R44). -/
def State.poisonTrap (s : State) (rs : List Ref) : Option Trap :=
  firstSome (fun r => (leastPair (s.poisonOf r)).map fun e => s.lanePoison e) rs

/-- The kind runs the instruction (03 R63); a guest fibre that may not execute it where it stands goes home first (15 R308). -/
def State.checkKind (s : State) (av : Avail) : Except Stop Unit :=
  let g := s.g
  let runs := av.runs g.kind
  if g.isGuest then (if runs && av.guest then .ok () else .error .home)
  else if runs then .ok ()
  else .error (.trap { code := tUNAVAIL, detail := kindCode g.kind })

/-- Steps 6 and 7 of decoding (03 R62): core kind, then registers. -/
def State.checkRegs (s : State) (av : Avail) (rs : List Ref) : Except Stop Unit :=
  match s.checkKind av with
  | .error e => .error e
  | .ok _ =>
    let bad := s.badRefs rs
    if bad.isEmpty then .ok () else .error (.trap (s.regTrap bad))

/-- The scoreboard wait, then poison (02 R42, R44). -/
def State.checkData (s : State) (rs : List Ref) : Except Stop Unit :=
  let p := s.pendingRefs rs
  if !p.isEmpty then .error (.block (.scoreboard p))
  else match s.poisonTrap rs with | some t => .error (.trap t) | none => .ok ()

/-- Every check that an instruction's registers pass before it executes. -/
def State.passes (s : State) (av : Avail) (rs : List Ref) : Except Stop Unit :=
  match s.checkRegs av rs with
  | .error e => .error e
  | .ok _ => s.checkData rs

/-- A counted instruction at a counter of 63 waits (02 R43). -/
def State.checkCtr (s : State) (c : Ctr) : Except Stop Unit :=
  if s.g.ctr c < 63 then .ok () else .error (.block (.counter c))

/-- An instruction: its register checks, its own checks and effect, then the batch moves on. -/
def State.run (s : State) (av : Avail) (rs : List Ref) (e : Bool) (body : Except Stop State) : Out :=
  match s.passes av rs with
  | .error st => .next (s.halt st)
  | .ok _ => match body with | .error st => .next (s.halt st) | .ok t => .next (t.retire e)

/-- An instruction that always takes its effect once its registers pass. -/
def State.runOk (s : State) (av : Avail) (rs : List Ref) (e : Bool) (t : State) : Out :=
  match s.passes av rs with
  | .error st => .next (s.halt st)
  | .ok _ => .next (t.retire e)

/-- The first failing check. -/
def firstErr : List (Except Stop Unit) → Except Stop Unit
  | [] => .ok ()
  | .error e :: _ => .error e
  | .ok _ :: cs => firstErr cs

/-- An instruction whose checks stand in its own order. -/
def State.runChecks (s : State) (cs : List (Except Stop Unit)) (e : Bool) (t : State) : Out :=
  match firstErr cs with
  | .error st => .next (s.halt st)
  | .ok _ => .next (t.retire e)

/-- An instruction that moves its fibres itself. -/
def State.runEnd (s : State) (av : Avail) (rs : List Ref) (body : Except Stop State) : Out :=
  match s.passes av rs with
  | .error st => .next (s.halt st)
  | .ok _ => match body with | .error st => .next (s.halt st) | .ok t => .next t

/-- FPFLAGS are sticky (02 R38): the flags of every lane are ORed in. -/
def State.orFlags (s : State) (fl : Nat) : State := s.modG fun g => { g with fpflags := g.fpflags ||| w32 (fl % 64) }

/-! ### Leaving a handler (17 R334; 18 R356) -/

/-- Fibres leave the handler; it ends when every fibre of FMASK has left or ended (17 R334). -/
def Group.leaveHandler (g : Group) (mask : Nat) : Group := { g with handler := g.handler &&& (2 ^ 64 - 1 - (g.handler &&& mask)) }

end Sys2Proof.Machine
end

