-- ==== Sys2Proof/Machine/Operands.lean ====
section
/-! DEFINITION. Operand forms: source fields, pairs, MOD patterns, immediates, packed elements, and the writes of a batch (02 R39, R40; 03 R53 to
R56; 05 R83; 06 R102). -/
namespace Sys2Proof.Machine

/-- Core and cellar, and a guest where it stands (06; 15 R308). -/
def avVec : Avail := { cellar := true, guest := true }
/-- Core only, and a guest of a core where it stands. -/
def avCore : Avail := { guest := true }
/-- Core and sequencer; a guest executes the vector chapter's scalar forms where it stands. -/
def avScalar : Avail := { seq := true, guest := true }
/-- Every kind; a guest executes it where it stands. -/
def avAll : Avail := { cellar := true, seq := true, guest := true }
/-- Core only, never at a guest. -/
def avHome : Avail := {}
/-- Core and sequencer, never at a guest. -/
def avHomeSeq : Avail := { seq := true }
/-- Sequencer only. -/
def avSeq : Avail := { core := false, seq := true }
/-- Cellar only. -/
def avCellar : Avail := { core := false, cellar := true }

/-- The word a source field reads for lane l, k registers on (02 R39; 05 R83). -/
def Group.src (g : Group) (l : Nat) (x : Src) (k : Nat := 0) : Word :=
  match x with
  | .v r p => g.vval (g.srcLane p l) (g.phys l r + k)
  | .s r => g.sreg (r.toNat + k)

/-- A source pair as 64 bits, low half first (05 R83). -/
def Group.src64 (g : Group) (l : Nat) (x : Src) : Nat := (g.src l x).toNat + 2 ^ 32 * (g.src l x 1).toNat

/-- The n-bit value, 32 or 64, that a source holds. -/
def Group.srcN (g : Group) (wide : Bool) (l : Nat) (x : Src) : Nat := if wide then g.src64 l x else (g.src l x).toNat

/-- A G4 source under the pattern MOD gives it, i = 0, 1, 2 for s1, s2, s3 (03 R56). -/
def State.modSrc (s : State) (r : Reg) (i : Nat) : Src := .v r (prePat s.cur.pre i)

/-- The words of an n-bit value: one register, or a pair (05 R83). -/
def wordsOf (wide : Bool) (v : Nat) : List Word := if wide then [w32 v, w32 (v / 2 ^ 32)] else [w32 v]

/-- n elements of a base combined element by element (05 R83). -/
def elementwise (n base : Nat) (f : Nat → Nat → Nat) (a b : Nat) : Nat :=
  packNat base ((List.range n).map fun i => f (a / base ^ i % base) (b / base ^ i % base))

/-- The RI immediate of a signed form, sign-extended or extended by LIT, as its low 32 bits (03 Table 3.4). -/
def State.immS (s : State) (i : BitVec 11) : Word :=
  match s.cur.pre.lit with
  | some p => w32 (p.toNat * 2 ^ 11 + i.toNat)
  | none => wrap32 (sextInt 11 i.toNat)

/-- The immediate of SETLX, unsigned, or extended by LIT, as its low 32 bits (03 Table 3.4). -/
def State.immU (s : State) (i : BitVec 11) : Word := w32 (preLit s.cur.pre * 2 ^ 11 + i.toNat)

/-- The ML immediate in units of the access size (03 Table 3.4): signed 11 bits, or a signed 33-bit value with LIT. -/
def State.immML (s : State) (i : BitVec 11) : Int :=
  match s.cur.pre.lit with
  | some p => sextInt 33 (p.toNat * 2 ^ 11 + i.toNat)
  | none => sextInt 11 i.toNat

/-- The M immediate in units of the access size (03 Table 3.4). -/
def State.immM (s : State) (i : Reg) : Nat := preLit s.cur.pre / 64 * 32 + i.toNat
/-- The pool index (03 Table 3.4). -/
def State.poolIdx (s : State) (p : BitVec 6) : Nat := preLit s.cur.pre % 64 * 64 + p.toNat

/-- V registers from d written for every fibre of the batch, with the flags every lane raises; all lanes are computed from the state before
(02 R38, R41). -/
def State.writeV (s : State) (d : Reg) (f : Nat → List Word × Nat) : State :=
  let ls := s.batch
  let t := s.modG fun g => g.forLanes ls fun g l => g.vsets l (s.g.phys l d) (f l).1
  t.orFlags (ls.foldl (fun m l => m ||| (f l).2) 0)

/-- A P register written for every fibre of the batch, with flags. -/
def State.writeP (s : State) (d : PReg) (f : Nat → Bool × Nat) : State :=
  let ls := s.batch
  let t := s.modG fun g => g.forLanes ls fun g l => g.pset l d.toNat (f l).1
  t.orFlags (ls.foldl (fun m l => m ||| (f l).2) 0)

/-- S registers written once per issue (02 R34; 06 R102). -/
def State.writeS (s : State) (d : Reg) (ws : List Word) : State := s.modG fun g => g.ssets d.toNat ws

/-- An instruction that writes V registers lane by lane (06 R102). -/
def State.vecOp (s : State) (av : Avail) (rs : List Ref) (d : Reg) (n : Nat) (e : Bool) (f : Nat → List Word × Nat) : Out :=
  s.runOk av (rs ++ [vdst d n]) e (s.writeV d f)

/-- A flagless instruction of two source words and one destination word. -/
def State.intOp (s : State) (d : Reg) (a b : Src) (e : Bool) (f : Word → Word → Word) : Out :=
  s.vecOp avVec [srcRef a, srcRef b] d 1 e fun l => ([f (s.g.src l a) (s.g.src l b)], 0)

/-- A flagless instruction of one source word. -/
def State.intOp1 (s : State) (d : Reg) (a : Src) (e : Bool) (f : Word → Word) : Out :=
  s.vecOp avVec [srcRef a] d 1 e fun l => ([f (s.g.src l a)], 0)

/-- A lane's V register d before the instruction, read as a third source (06 R109, R126). -/
def Group.old (g : Group) (l : Nat) (d : Reg) : Word := g.vval l (g.phys l d)

/-- The lowest lane of the batch. -/
def State.lane0 (s : State) : Nat := s.batch.headD 0

/-- The poisoned lane reported among explicit (physical index, lane) pairs (02 R44). -/
def State.poisonPairs (s : State) (ps : List (Nat × Nat)) : Except Stop Unit :=
  match leastPair (ps.filter fun e => (s.g.vlane e.2 e.1).pois) with
  | some e => .error (.trap (s.lanePoison e))
  | none => .ok ()

/-- A uniform operand (02 R40): an S register, or V lanes that agree across the batch. -/
def State.checkUniform (s : State) (x : Src) : Except Stop Unit :=
  match x with
  | .s _ => .ok ()
  | .v _ _ => need (s.batch.all fun l => s.g.src l x == s.g.src s.lane0 x) (.trap { code := tNONUNI })

/-- A wait on the scoreboard alone (02 R42). -/
def State.checkPending (s : State) (rs : List Ref) : Except Stop Unit :=
  let p := s.pendingRefs rs
  if p.isEmpty then .ok () else .error (.block (.scoreboard p))

end Sys2Proof.Machine
end

