-- ==== Sys2Proof/Machine/Flags.lean ====
section
/-! DEFINITION. FPFLAGS and FPMODE (02 Tables 2.4, 2.5, R38; 05 R88 to R94; 18 R352 to R354). -/
namespace Sys2Proof.Machine

/-- NX, UF, OF, DZ, NV and OUTFULL in FPFLAGS (02 Table 2.5). -/
def flNX : Nat := 1
/-- UF. -/
def flUF : Nat := 2
/-- OF. -/
def flOF : Nat := 4
/-- DZ. -/
def flDZ : Nat := 8
/-- NV. -/
def flNV : Nat := 16
/-- OUTFULL. -/
def flOUTFULL : Nat := 32

/-- The modes the issuing group computes under (02 R37). -/
def State.md (s : State) : FpMode := fpModeOf s.g.fpmode

/-- FPFLAGS bits written 1 are cleared (02 R38; 18 R352). -/
def Group.clearFlags (g : Group) (w : Word) : Group := { g with fpflags := g.fpflags &&& ~~~w }

/-- FPMODE written: bits 31:8 are reserved and stay 0 (02 Table 2.4; 18 R352, R354). -/
def Group.setMode (g : Group) (w : Word) : Group := { g with fpmode := w &&& 0xFF }

/-- LX written: bits 31:18 are reserved and stay 0 (02 Table 2.3). -/
def Group.setLx (g : Group) (w : Word) : Group := { g with lx := w &&& 0x3FFFF }

/-- The result and flags of an operation as a lane's words. -/
def fres (wide : Bool) (r : Nat × Nat) : List Word × Nat := (wordsOf wide r.1, r.2)

end Sys2Proof.Machine
end

