-- ==== Sys2Proof/Machine/IntVec.lean ====
section
/-! DEFINITION. Integer, bit and address instructions on V registers (06 R104 to R114). -/
namespace Sys2Proof.Machine

/-- IADD and ISUB of the forms of 06 R104 on 32-bit or, for .I64, 64-bit values. -/
def addLane (m : AddForm) (sub : Bool) (a b : Nat) : Nat :=
  let op (x y : Int) : Int := if sub then x - y else x + y
  let wrapE (n : Nat) (x y : Nat) : Nat := toBits n (op x y)
  match m with
  | .i32 => wrapE 32 a b
  | .i64 => wrapE 64 a b
  | .i16x2 => elementwise 2 (2 ^ 16) (wrapE 16) a b
  | .i8x4 => elementwise 4 (2 ^ 8) (wrapE 8) a b
  | .satI32 => toBits 32 (clampInt (-(2 ^ 31)) (2 ^ 31 - 1) (op (sextInt 32 a) (sextInt 32 b)))
  | .satN32 => toBits 32 (clampInt 0 (2 ^ 32 - 1) (op a b))
  | .satI16x2 => elementwise 2 (2 ^ 16) (fun x y => toBits 16 (clampInt (-32768) 32767 (op (sextInt 16 x) (sextInt 16 y)))) a b
  | .satN8x4 => elementwise 4 (2 ^ 8) (fun x y => toBits 8 (clampInt 0 255 (op x y))) a b

/-- IADD or ISUB (06 R104). -/
def State.opAdd (s : State) (sub : Bool) (m : AddForm) (d : Reg) (a b : Src) (e : Bool) : Out :=
  let w := m == .i64
  let n := if w then 2 else 1
  s.vecOp avVec [srcRef a n, srcRef b n] d n e fun l => (wordsOf w (addLane m sub (s.g.srcN w l a) (s.g.srcN w l b)), 0)

/-- IADD (06 R104). -/
def execIadd (m : AddForm) (d : Reg) (a b : Src) (e : Bool) (s : State) : Out := s.opAdd false m d a b e
/-- ISUB (06 R104). -/
def execIsub (m : AddForm) (d : Reg) (a b : Src) (e : Bool) (s : State) : Out := s.opAdd true m d a b e

/-- Signed and unsigned products' high halves (06 R105, R112). -/
def hiMul (signed : Bool) (a b : Nat) : Nat :=
  if signed then toBits 32 (sextInt 32 a * sextInt 32 b / 2 ^ 32) else a * b / 2 ^ 32
/-- 64-bit products of 32-bit values (06 R105, R112). -/
def wideMul (signed : Bool) (a b : Nat) : Int := if signed then sextInt 32 a * sextInt 32 b else (a : Int) * b

/-- IMUL on a lane: sources of 32 bits, of 64 for .LO.I64 (06 R105). -/
def mulLane (m : MulForm) (a b : Nat) : Nat :=
  match m with
  | .loI32 => a * b % 2 ^ 32
  | .hiI32 => hiMul true a b
  | .hiN32 => hiMul false a b
  | .wideI32 => toBits 64 (wideMul true a b)
  | .wideN32 => toBits 64 (wideMul false a b)
  | .i16x2 => elementwise 2 (2 ^ 16) (fun x y => x * y) a b
  | .loI64 => a * b % 2 ^ 64

/-- IMUL (06 R105). -/
def State.opMul (s : State) (m : MulForm) (d : Reg) (a b : Src) (e : Bool) : Out :=
  let src64 := m == .loI64
  let dst64 := m == .loI64 || m == .wideI32 || m == .wideN32
  let n := if src64 then 2 else 1
  s.vecOp avVec [srcRef a n, srcRef b n] d (if dst64 then 2 else 1) e fun l =>
    (wordsOf dst64 (mulLane m (s.g.srcN src64 l a) (s.g.srcN src64 l b)), 0)

/-- IMUL (06 R105). -/
def execImul (m : MulForm) (d : Reg) (a b : Src) (e : Bool) (s : State) : Out := s.opMul m d a b e

/-- Minimum or maximum of a form (06 R106). -/
def mmLane (m : MmForm) (isMax : Bool) (a b : Nat) : Nat :=
  let pick (x y : Int) (p q : Nat) : Nat := if isMax then (if x < y then q else p) else (if y < x then q else p)
  match m with
  | .i32 => pick (sextInt 32 a) (sextInt 32 b) a b
  | .n32 => pick a b a b
  | .i16x2 => elementwise 2 (2 ^ 16) (fun x y => pick (sextInt 16 x) (sextInt 16 y) x y) a b

/-- IMIN (06 R106). -/
def execImin (m : MmForm) (d : Reg) (a b : Src) (e : Bool) (s : State) : Out :=
  s.intOp d a b e fun x y => w32 (mmLane m false x.toNat y.toNat)
/-- IMAX (06 R106). -/
def execImax (m : MmForm) (d : Reg) (a b : Src) (e : Bool) (s : State) : Out :=
  s.intOp d a b e fun x y => w32 (mmLane m true x.toNat y.toNat)
/-- IABSD (06 R106): exact. -/
def execIabsd (d : Reg) (a b : Src) (e : Bool) (s : State) : Out :=
  s.intOp d a b e fun x y => w32 (sextInt 32 x.toNat - sextInt 32 y.toNat).natAbs
/-- IABS (06 R106): the most negative value stays as it is. -/
def execIabs (d : Reg) (a : Src) (e : Bool) (s : State) : Out := s.intOp1 d a e fun x => w32 (sextInt 32 x.toNat).natAbs

/-- AND (06 R107). -/
def State.opAnd (s : State) (d : Reg) (a b : Src) (e : Bool) : Out := s.intOp d a b e fun x y => x &&& y
/-- OR (06 R107). -/
def State.opOr (s : State) (d : Reg) (a b : Src) (e : Bool) : Out := s.intOp d a b e fun x y => x ||| y
/-- XOR (06 R107). -/
def State.opXor (s : State) (d : Reg) (a b : Src) (e : Bool) : Out := s.intOp d a b e fun x y => x ^^^ y

/-- AND (06 R107). -/
def execAnd (d : Reg) (a b : Src) (e : Bool) (s : State) : Out := s.opAnd d a b e
/-- OR (06 R107). -/
def execOr (d : Reg) (a b : Src) (e : Bool) (s : State) : Out := s.opOr d a b e
/-- XOR (06 R107). -/
def execXor (d : Reg) (a b : Src) (e : Bool) (s : State) : Out := s.opXor d a b e
/-- ANDN (06 R107). -/
def execAndn (d : Reg) (a b : Src) (e : Bool) (s : State) : Out := s.intOp d a b e fun x y => x &&& ~~~y
/-- ORN (06 R107). -/
def execOrn (d : Reg) (a b : Src) (e : Bool) (s : State) : Out := s.intOp d a b e fun x y => x ||| ~~~y
/-- XNOR (06 R107). -/
def execXnor (d : Reg) (a b : Src) (e : Bool) (s : State) : Out := s.intOp d a b e fun x y => ~~~(x ^^^ y)
/-- NOT (06 R107). -/
def execNot (d : Reg) (a : Src) (e : Bool) (s : State) : Out := s.intOp1 d a e fun x => ~~~x

/-- A 32-bit shift by an amount below 32 (06 R108). -/
def shiftWord (k : ShKind) (x : Word) (n : Nat) : Word :=
  match k with
  | .shl => x <<< n
  | .shr => x >>> n
  | .sar => x.sshiftRight n
  | .rol => x.rotateLeft n
  | .ror => x.rotateRight n

/-- A 32-bit shift whose amount is bits 4:0 of b (06 R108). -/
def State.opShift (s : State) (k : ShKind) (d : Reg) (a b : Src) (e : Bool) : Out :=
  s.intOp d a b e fun x y => shiftWord k x (y.toNat % 32)

/-- SHL (06 R108). -/
def execShl (d : Reg) (a b : Src) (e : Bool) (s : State) : Out := s.opShift .shl d a b e
/-- SHR (06 R108). -/
def execShr (d : Reg) (a b : Src) (e : Bool) (s : State) : Out := s.opShift .shr d a b e
/-- SAR (06 R108). -/
def execSar (d : Reg) (a b : Src) (e : Bool) (s : State) : Out := s.opShift .sar d a b e
/-- ROL (06 R108). -/
def execRol (d : Reg) (a b : Src) (e : Bool) (s : State) : Out := s.opShift .rol d a b e
/-- ROR (06 R108). -/
def execRor (d : Reg) (a b : Src) (e : Bool) (s : State) : Out := s.opShift .ror d a b e

/-- A 64-bit shift of a pair by bits 5:0 of b, a single register (06 R108). -/
def State.opShift64 (s : State) (k : ShKind) (d : Reg) (a b : Src) (e : Bool) : Out :=
  s.vecOp avVec [srcRef a 2, srcRef b] d 2 e fun l =>
    let x : Dword := BitVec.ofNat 64 (s.g.src64 l a)
    let n := (s.g.src l b).toNat % 64
    let r := match k with | .shl => x <<< n | .shr => x >>> n | .sar => x.sshiftRight n | .rol => x.rotateLeft n | .ror => x.rotateRight n
    (wordsOf true r.toNat, 0)

/-- SHL.I64 (06 R108). -/
def execShlI64 (d : Reg) (a b : Src) (e : Bool) (s : State) : Out := s.opShift64 .shl d a b e
/-- SHR.I64 (06 R108). -/
def execShrI64 (d : Reg) (a b : Src) (e : Bool) (s : State) : Out := s.opShift64 .shr d a b e
/-- SAR.I64 (06 R108). -/
def execSarI64 (d : Reg) (a b : Src) (e : Bool) (s : State) : Out := s.opShift64 .sar d a b e

/-- POPC (06 R109). -/
def execPopc (d : Reg) (a : Src) (e : Bool) (s : State) : Out := s.intOp1 d a e fun x => w32 (popCount 32 x.toNat)
/-- CLZ (06 R109). -/
def execClz (d : Reg) (a : Src) (e : Bool) (s : State) : Out := s.intOp1 d a e fun x => w32 (leadZeros 32 x.toNat)
/-- CTZ (06 R109). -/
def execCtz (d : Reg) (a : Src) (e : Bool) (s : State) : Out := s.intOp1 d a e fun x => w32 (trailZeros 32 x.toNat)
/-- BREV (06 R109). -/
def execBrev (d : Reg) (a : Src) (e : Bool) (s : State) : Out := s.intOp1 d a e fun x => w32 (bitRev 32 x.toNat)

/-- pos and the reduced len of a field descriptor (06 R109). -/
def fieldPos (b : Nat) : Nat := b % 32
/-- len reduced to min(len, 32 − pos) (06 R109). -/
def fieldLen (b : Nat) : Nat := min (b / 256 % 64) (32 - fieldPos b)
/-- BFX on a lane (06 R109). -/
def bfxLane (u : Bool) (a b : Nat) : Nat :=
  let len := fieldLen b
  let r := a / 2 ^ fieldPos b % 2 ^ len
  if u || len = 0 then r else toBits 32 (sextInt len r)
/-- BFI on a lane (06 R109). -/
def bfiLane (old a b : Word) : Word :=
  let m := w32 ((2 ^ fieldLen b.toNat - 1) * 2 ^ fieldPos b.toNat)
  (old &&& ~~~m) ||| ((a <<< fieldPos b.toNat) &&& m)
/-- PRMT on a lane (06 R109). -/
def prmtLane (old a b : Nat) : Nat :=
  let x := old * 2 ^ 32 + a
  packNat 256 ((List.range 4).map fun i =>
    let sel := b / 16 ^ i % 16
    let byte := x / 256 ^ (sel % 8) % 256
    if sel / 8 = 1 then (if byte / 128 = 1 then 255 else 0) else byte)

/-- BFX (06 R109). -/
def execBfx (u : Bool) (d : Reg) (a b : Src) (e : Bool) (s : State) : Out :=
  s.intOp d a b e fun x y => w32 (bfxLane u x.toNat y.toNat)
/-- BFI reads its destination as a third source (06 R109). -/
def execBfi (d : Reg) (a b : Src) (e : Bool) (s : State) : Out :=
  s.vecOp avVec [srcRef a, srcRef b, vsrc d] d 1 e fun l => ([bfiLane (s.g.old l d) (s.g.src l a) (s.g.src l b)], 0)
/-- PRMT reads its destination as a third source (06 R109). -/
def execPrmt (d : Reg) (a b : Src) (e : Bool) (s : State) : Out :=
  s.vecOp avVec [srcRef a, srcRef b, vsrc d] d 1 e fun l =>
    ([w32 (prmtLane (s.g.old l d).toNat (s.g.src l a).toNat (s.g.src l b).toNat)], 0)

/-- ICMP's relation (06 R110). -/
def icmpLane (m : IcmpForm) (a b : Word) : Bool :=
  match m with
  | .eq => a == b
  | .ne => a != b
  | .ltI => a.slt b
  | .leI => a.sle b
  | .ltN => a.ult b
  | .leN => a.ule b
  | .tst => a &&& b != 0

/-- ICMP (06 R110). -/
def execIcmp (m : IcmpForm) (d : PReg) (a b : Src) (e : Bool) (s : State) : Out :=
  s.runOk avVec [srcRef a, srcRef b, pref d.toNat] e (s.writeP d fun l => (icmpLane m (s.g.src l a) (s.g.src l b), 0))

/-- SEL reads both sources and Pk (06 R111). -/
def execSel (k : Fld3) (d : Reg) (a b : Src) (e : Bool) (s : State) : Out :=
  s.vecOp avVec [srcRef a, srcRef b, pref k.toNat] d 1 e fun l =>
    ([if s.g.pbit l k.toNat then s.g.src l a else s.g.src l b], 0)

/-- IMAD (06 R112), with MOD's patterns. -/
def execImad (m : ImadForm) (d a b c : Reg) (e : Bool) (s : State) : Out :=
  let w := m == .wideI32 || m == .wideN32
  let n := if w then 2 else 1
  let (a, b, c) := (s.modSrc a 0, s.modSrc b 1, s.modSrc c 2)
  s.vecOp avVec [srcRef a, srcRef b, srcRef c n] d n e fun l =>
    let (x, y, z) := ((s.g.src l a).toNat, (s.g.src l b).toNat, s.g.srcN w l c)
    let r := match m with
      | .loI32 => (x * y + z) % 2 ^ 32
      | .hiI32 => (hiMul true x y + z) % 2 ^ 32
      | .hiN32 => (hiMul false x y + z) % 2 ^ 32
      | .wideI32 => toBits 64 (wideMul true x y + z)
      | .wideN32 => toBits 64 (wideMul false x y + z)
    (wordsOf w r, 0)

/-- The sum of products of n elements of a base (06 R112). -/
def idotLane (n bits : Nat) (signed : Bool) (a b c : Nat) : Nat :=
  let el (w i : Nat) : Int := let x := w / 2 ^ (bits * i) % 2 ^ bits; if signed then sextInt bits x else x
  toBits 32 ((List.range n).foldl (fun t i => t + el a i * el b i) (c : Int))

/-- A dot product of IMAD's family, with MOD's patterns (06 R112). -/
def State.opIdot (s : State) (n bits : Nat) (signed : Bool) (d a b c : Reg) (e : Bool) : Out :=
  let (a, b, c) := (s.modSrc a 0, s.modSrc b 1, s.modSrc c 2)
  s.vecOp avVec [srcRef a, srcRef b, srcRef c] d 1 e fun l =>
    ([w32 (idotLane n bits signed (s.g.src l a).toNat (s.g.src l b).toNat (s.g.src l c).toNat)], 0)

/-- IDOT4 (06 R112). -/
def execIdot4 (u : Bool) (d a b c : Reg) (e : Bool) (s : State) : Out := s.opIdot 4 8 (!u) d a b c e
/-- IDOT2 (06 R112). -/
def execIdot2 (d a b c : Reg) (e : Bool) (s : State) : Out := s.opIdot 2 16 true d a b c e

/-- LEA (06 R113). -/
def execLea (k : Fld3) (d : Reg) (a b : Src) (e : Bool) (s : State) : Out := s.intOp d a b e fun x y => x + (y <<< k.toNat)
/-- LEA64 (06 R113). -/
def execLea64 (k : Fld3) (d : Reg) (a b : Src) (e : Bool) (s : State) : Out :=
  s.vecOp avVec [srcRef a 2, srcRef b] d 2 e fun l =>
    (wordsOf true ((s.g.src64 l a + (s.g.src l b).toNat * 2 ^ k.toNat) % 2 ^ 64), 0)

/-- A V register and an immediate added (06 R114). -/
def State.opAddI (s : State) (d : Reg) (a : Src) (i : Word) (e : Bool) : Out := s.intOp1 d a e fun x => x + i
/-- An immediate written (06 R114). -/
def State.opMovI (s : State) (d : Reg) (i : Word) (e : Bool) : Out := s.vecOp avVec [] d 1 e fun _ => ([i], 0)

/-- IADDI (06 R114). -/
def execIaddi (d : Reg) (a : Src) (i : BitVec 11) (e : Bool) (s : State) : Out := s.opAddI d a (s.immS i) e
/-- ANDI (06 R114). -/
def execAndi (d : Reg) (a : Src) (i : BitVec 11) (e : Bool) (s : State) : Out := s.intOp1 d a e fun x => x &&& s.immS i
/-- SHI (06 R108). -/
def execShi (k : ShKind) (d : Reg) (a : Src) (n : Reg) (e : Bool) (s : State) : Out := s.intOp1 d a e fun x => shiftWord k x n.toNat
/-- MOVI (06 R114). -/
def execMovi (d : Reg) (i : BitVec 11) (e : Bool) (s : State) : Out := s.opMovI d (s.immS i) e

end Sys2Proof.Machine
end

