-- ==== Sys2Proof/Machine/Convert.lean ====
section
/-! DEFINITION. Conversions, packing and scale words (06 R124, R126, R127; 05 R85, R95). -/
namespace Sys2Proof.Machine

/-- Registers of a value of a type (05 R83). -/
def typeRegs (t : NumType) : Nat := if typeBits t = 64 then 2 else 1

/-- A conversion's result as registers (05 R83): I8 and I16 sign-extended, other narrow results zero-extended. -/
def placeType (t : NumType) (v : Nat) : List Word :=
  if typeBits t = 64 then wordsOf true v
  else if typeSigned t then [wrap32 (sextInt (typeBits t) v)]
  else [w32 v]

/-- CVT (06 R124): with F64 as either type it runs on core only. -/
def execCvt (r : Rnd) (src dst : NumType) (d : Reg) (a : Src) (e : Bool) (s : State) : Out :=
  s.vecOp (if src = .f64 ∨ dst = .f64 then avCore else avVec) [srcRef a (typeRegs src)] d (typeRegs dst) e fun l =>
    let x := convert s.md r src dst (s.g.srcN (typeBits src == 64) l a % 2 ^ typeBits src)
    (placeType dst x.1, x.2)

/-- PACK of a lane (06 R126): `old` is the destination before. -/
def packLane (m : PackForm) (old a b : Word) : Word :=
  match m with
  | .h => w32 (half a 0 + 65536 * half b 0)
  | .b => w32 (old.toNat * 65536 + 256 * byteOf b 0 + byteOf a 0)
  | .nib => w32 (old.toNat * 256 + 16 * nibOf b 0 + nibOf a 0)

/-- UNPK of a lane (06 R126). -/
def unpkLane (m : PackForm) (a b : Word) : Word :=
  match m with
  | .h => w32 (half a (b.toNat % 2))
  | .b => w32 (byteOf a (b.toNat % 4))
  | .nib => w32 (nibOf a (b.toNat % 8))

/-- PACK (06 R126): the .B and .NIB forms read the old destination, as a third source field. -/
def execPack (m : PackForm) (d : Reg) (a b : Src) (e : Bool) (s : State) : Out :=
  s.vecOp avCore ([srcRef a, srcRef b] ++ (if m = .h then [] else [vsrc d])) d 1 e fun l =>
    ([packLane m (s.g.old l d) (s.g.src l a) (s.g.src l b)], 0)

/-- UNPK (06 R126). -/
def execUnpk (m : PackForm) (d : Reg) (a b : Src) (e : Bool) (s : State) : Out :=
  s.vecOp avCore [srcRef a, srcRef b] d 1 e fun l => ([unpkLane m (s.g.src l a) (s.g.src l b)], 0)

/-- A finite F32 as an integer multiple of 2^−149. -/
def f32Int : FV → Int
  | .fin s m e => signedInt s (m * 2 ^ (e + 149).toNat)
  | .inf _ => 0
  | .nan _ _ _ => 0

/-- The least F16 that is at least n × 2^−149 / d, with 0 raised to 1.0 and anything above 65,504 lowered to it (06 R127). -/
def scaleUp (n d : Nat) : Nat :=
  if n = 0 then 0x3C00
  else min 0x7BFF (roundPack fF16 .ru false false (n * 2 ^ 64 / d) (-213) (n * 2 ^ 64 % d != 0)).1

/-- round_rne(n / d). -/
def ratRne (n d : Nat) : Nat := if roundsUp .rne false (n / d) (n % d) d false then n / d + 1 else n / d

/-- A finite F16 as an integer multiple of 2^−24. -/
def f16Int (w : Nat) : Int :=
  match unpack fF16 false w with
  | .fin s m e => signedInt s (m * 2 ^ (e + 24).toNat)
  | .inf _ => 0
  | .nan _ _ _ => 0

/-- FSCL of a lane: the parameter word and flags (06 R127). -/
def fsclLane (m : FsclForm) (md : FpMode) (a b : Word) : Nat × Nat :=
  let x := unpack fF32 md.daz a.toNat
  let y := unpack fF32 md.daz b.toNat
  let fin : FV → Bool := fun | .fin _ _ _ => true | .inf _ => false | .nan _ _ _ => false
  if !(fin x && fin y) then (0x3C00, 16)
  else
    let p := f32Int x
    let q := f32Int y
    let grouped (qmax : Nat) : Nat :=
      let lo := min (min p q) 0
      let hi := max (max p q) 0
      let s := scaleUp (hi - lo).toNat qmax
      -- −lo × 2^−149 / (s × 2^−24)
      65536 * min qmax (ratRne (-lo).toNat ((f16Int s).toNat * 2 ^ 125)) + s
    match m with
    | .q4 => (grouped 15, 0)
    | .q8 => (grouped 255, 0)
    | .f8e4 => (scaleUp (max p.natAbs q.natAbs) 448, 0)
    | .f8e5 => (scaleUp (max p.natAbs q.natAbs) 57344, 0)

/-- FSCL (06 R127). -/
def execFscl (m : FsclForm) (d : Reg) (a b : Src) (e : Bool) (s : State) : Out :=
  s.vecOp avCore [srcRef a, srcRef b] d 1 e fun l =>
    let r := fsclLane m s.md (s.g.src l a) (s.g.src l b)
    ([w32 r.1], r.2)

end Sys2Proof.Machine
end

