-- ==== Sys2Proof/Machine/Fetch.lean ====
section
/-! DEFINITION. Instruction fetch (03 R46, R54, R57, R62; 14 R278; 17 R344), and the two prefixes (03 R54 to R56). -/
namespace Sys2Proof.Machine

/-- Sectors that a 64 KiB instruction cache holds (01 R13). -/
def icacheSectors : Nat := 1024

/-- The bytes of a sector as a group fetches it: its core's instruction cache, else the home (03 R47; log 103). -/
def State.codeSector (s : State) (q : Nat) : Option (List Byte) :=
  if s.g.kind == .core then ((s.core s.g.place).icache.find? fun e => e.1 == q).map (·.2) else none

/-- Where a guest fibre's cellar core holds the bytes at an address of its kernel's image in its program store (15 R302; log 104). -/
def State.storeOff (s : State) (a : Nat) : Option Nat :=
  let g := s.g
  let k := s.cellar g.place
  if g.kind == .cellar && g.isGuest && k.image.isSome && decide (k.imageBase ≤ a ∧ a + 2 ≤ k.imageBase + k.store.length) then some (a - k.imageBase) else none

/-- A parcel of a program store; a word with an uncorrectable error is poison (14 R278; 17 R344). -/
def State.storeParcel (s : State) (a off : Nat) : Except Stop Parcel :=
  let k := s.cellar s.g.place
  if k.storePoison.contains (off / 8) then .error (.trap { code := tPOISON, addr := a }) else .ok (BitVec.ofNat 16 (fieldAt k.store off 2))

/-- The parcel at an address: a call's core reads its program store, every other agent its context's memory under the X attribute (03 R46;
14 R278). Of the states that 03 R47 allows a sector to hold, the model's is the one at the sector's last arrival in the instruction cache, which a
launch empties (DESIGN CHOICE, log 103). -/
def State.fetchParcel (s : State) (a : Nat) : Except Stop Parcel :=
  let g := s.g
  let lane := trailZeros 64 s.cur.mask
  if g.call.isSome then
    if (s.cellar g.place).store.length < a + 2 then .error (memTrap tPROT 3 lane a) else s.storeParcel a a
  else
    match s.storeOff a with
    | some off => s.storeParcel a off
    | none =>
      if !s.isLocal a then .error (.replay a 1 1)
      else
        match s.xlateSince g.die g.ctx a .fetch true (s.stallStart s.cur.gid lane a) g.tlbCore with
        | .ok (.dev pa _) _ =>
          (match s.codeSector (pa / 64) with
           | some bs => .ok (BitVec.ofNat 16 (fieldAt bs (pa % 64) 2))
           | none =>
             if s.cut g.die (dieOfPa pa) then .error (linkStop a)
             else if s.homePoison pa 2 then .error (.trap { code := tPOISON, addr := a }) else .ok (BitVec.ofNat 16 (s.homeField pa 2)))
        | .ok (.host pa) _ =>
          if s.hostCut g.die then .error (linkStop a)
          else if s.hostBad pa 2 then .error (.trap { code := tPOISON, addr := a }) else .ok (BitVec.ofNat 16 (leNat (s.hostRead pa 2)))
        | .ok _ _ => .error (.replay a 1 1)
        | .replay r l => .error (.replay a r l)
        | .prot u => .error (protTrap u lane a)
        | .moving l => .error (stallStop l a)

/-- The sector of a fetched parcel stands in the core's instruction cache, the oldest going first where it is full (log 103). -/
def State.icacheFill (s : State) (a : Nat) : State :=
  let g := s.g
  if g.kind != .core || !s.isLocal a then s
  else
    match s.xlate g.die g.ctx a .fetch true g.tlbCore with
    | .ok (.dev pa _) _ =>
      if (s.codeSector (pa / 64)).isSome then s
      else
        s.setC g.place fun c =>
          { c with icache := (if c.icache.length < icacheSectors then c.icache else c.icache.drop 1) ++ [(pa / 64, s.homeRead (pa / 64 * 64) 64)] }
    | _ => s

/-- The parcels of the next word of the sequence, one or two by bit 0 of the first (03 R46); a fetch fault comes with the parcels before it. -/
def State.fetchWord (s : State) : List Parcel × Except Stop Unit :=
  let a := s.cur.npc.toNat
  match s.fetchParcel a with
  | .error e => ([], .error e)
  | .ok p =>
    if p.getLsbD 0 then
      match s.fetchParcel ((a + 2) % 2 ^ 64) with
      | .error e => ([p], .error e)
      | .ok q => ([p, q], .ok ())
    else ([p], .ok ())

/-- The value of one or two parcels, the first lowest (03 R46). -/
def wordOf : List Parcel → Nat
  | [] => 0
  | p :: ps => p.toNat + 65536 * wordOf ps

/-- Parcels joined to the sequence under way; the TLBs hold their pages and the instruction cache their sectors (01 R13; 16 R317). NEXTPC of a fetch fault's record is the address behind the
parcels fetched (DESIGN CHOICE, log 99). -/
def State.took (s : State) (ps : List Parcel) : State :=
  let at_ := (List.range ps.length).map fun i => (s.cur.npc + BitVec.ofNat 64 (2 * i)).toNat
  let s := if s.g.call.isSome then s else at_.foldl State.icacheFill (s.tlbFills s.g.die s.g.ctx at_ s.g.tlbCore)
  { s with cur := { s.cur with parcels := s.cur.parcels ++ ps, npc := s.cur.npc + BitVec.ofNat 64 (2 * ps.length), c16 := !ps.isEmpty && ps.all fun p => !p.getLsbD 0, mid := false } }

/-- A prefix word joins the instruction that follows it (03 R54): the sequence goes on at the next word. -/
def State.prefixed (s : State) (f : Prefixes → Prefixes) : State :=
  { s with cur := { s.cur with pre := f s.cur.pre, mid := true, c16 := false } }

/-- LIT (03 R54, R55). -/
def execLit (p : BitVec 22) (s : State) : Out := .next (s.prefixed fun q => { q with lit := some p })
/-- MOD (03 R54, R56). -/
def execMod (p : BitVec 22) (s : State) : Out :=
  .next (s.prefixed fun q => { q with mod := some p, modFirst := q.lit.isNone })

/-- DETAIL and code of a decode trap (03 Table 3.10). -/
def decodeTrap : DecodeFault → Trap
  | .unassignedMajor => { code := tUNIMPL, detail := 1 + 256 * 2 + 65536 * 7 }
  | .unassignedMinor lo hi => { code := tUNIMPL, detail := 2 + 256 * lo + 65536 * hi }
  | .reservedField lo hi w => { code := tUNIMPL, detail := 3 + 256 * lo + 65536 * hi + 2 ^ 24 * wordCode w }
  | .reservedCode lo hi w => { code := tUNIMPL, detail := 4 + 256 * lo + 65536 * hi + 2 ^ 24 * wordCode w }
  | .prefixKind i => { code := tILLEGAL, detail := 1 + 256 * i }
  | .prefixE i => { code := tILLEGAL, detail := 2 + 256 * i }
  | .prefixRepeated i => { code := tILLEGAL, detail := 3 + 256 * i }
  | .prefixBeforeC16 i => { code := tILLEGAL, detail := 4 + 256 * i }
  | .prefixRefused i => { code := tILLEGAL, detail := 5 + 256 * i }
where
  /-- the word that holds the field -/
  wordCode : FieldWord → Nat | .instr => 0 | .lit => 1 | .mod => 2

/-- A register that is read-only on a call's core: LX, FPMODE and FPFLAGS (18 Table 18.1, R352). -/
def State.sysReadOnly (s : State) (n : Nat) : Bool := s.g.kind == .cellar && !s.g.isGuest && decide (n ≤ 2)

/-- The failing field as the executing kind sees it, where a lower one is a reserved code there (03 R65): the register number of a SYSW that has bits in
imm3 and names a register which is read-only there (18 R352), and the slide of a sequencer's CALL that has bits in its reserved field (15 R285). -/
def State.kindFault (s : State) (f : DecodeFault) : DecodeFault :=
  let w := wordOf (s.cur.parcels.drop (s.cur.parcels.length - 2))
  if f = .reservedField 23 25 .instr ∧ bitsOf w 7 2 = 62 ∧ bitsOf w 31 26 = 0x1A ∧ s.sysReadOnly (bitsOf w 22 13) = true then .reservedCode 13 22 .instr
  else if f = .reservedField 10 12 .instr ∧ bitsOf w 7 2 = 0x3D ∧ bitsOf w 9 8 ≠ 0 ∧ s.g.kind = .sequencer then .reservedCode 8 9 .instr
  else f

/-- A word that is no instruction takes its decode trap (03 R61, R62, R65). -/
def execUnassignedEncoding (f : DecodeFault) (s : State) : Out := .next (s.halt (.trap (decodeTrap (s.kindFault f))))

/-- The trap of an encoding that is reserved on the executing kind alone (15 R285; 18 R352): a reserved code value of a field. -/
def kindReserved (lo hi : Nat) : Stop := .trap (decodeTrap (.reservedCode lo hi .instr))

end Sys2Proof.Machine
end

