-- ==== Sys2Proof/Machine/Address.lean ====
section
/-! DEFINITION. Addresses of memory instructions: pool records, flat addresses, their checks, and where an access is performed (04 R75; 09 R163,
R168, R171; 11 R205 to R207; 14 R274; 16 R316). -/
namespace Sys2Proof.Machine

/-! ### The launch of a group's fibres -/

/-- The kernel is cellar-eligible (15 R300). -/
def State.cellarEligible (s : State) (gid : Nat) : Bool :=
  match (s.grp gid).guest with
  | some i => i.cellarOk
  | none => (s.grid (s.team (s.grp gid).tid).grid).fld 0x10 8 != 0

/-! ### Cellar calls (14 R274) -/

/-- A range's grant of the call: ranges 0 to 3 are inputs, 4 to 7 outputs (14 R274). -/
def Call.range (c : Call) (k : Nat) : Nat × Nat := (fieldAt c.msg (0x40 + 16 * k) 8, fieldAt c.msg (0x48 + 16 * k) 8)

/-- Why a call's core may not make a global access: cause 3 outside every range, 7 a write to an input range (11 R207; 14 R274). -/
def Call.refuses (c : Call) (a n : Nat) (write : Bool) : Option Nat :=
  let inside (k : Nat) : Bool := let r := c.range k; decide (r.2 ≠ 0 ∧ r.1 ≤ a ∧ a + n ≤ r.1 + r.2)
  if [4, 5, 6, 7].any inside then none
  else if [0, 1, 2, 3].any inside then (if write then some 7 else none)
  else some 3

/-- The device address of a granted virtual address, as translated at the NCALL (14 R274, R277). -/
def Call.devOf (c : Call) (va : Nat) : Nat :=
  match c.pages.find? fun p => decide (p.1 ≤ va ∧ va < p.1 + p.2.1) with
  | some p => p.2.2 + (va - p.1)
  | none => 0

/-! ### Pool records (04 R75) -/

/-- A pool record as an access uses it: `input` marks an input range of a cellar call, whose writes take PROT (14 R274). -/
structure Pool where
  base : Nat
  size : Nat
  ro : Bool
  input : Bool := false
  deriving DecidableEq, Repr

/-- The N8's own read of a record through the issuing context (04 R76): one 32-byte unit. Two points are the model's: a record homed on another module
counts as a page with no valid leaf (DESIGN CHOICE, log 87), and one in a poisoned sector takes POISON with DETAIL 0 at the record's address (DESIGN
CHOICE, log 102). -/
def State.readRecord (s : State) (va : Nat) : Except Stop (List Byte) :=
  let g := s.g
  if !s.isLocal va then .error (.replay va 1 1)
  else
    match s.xlateSince g.die g.ctx va .read false (s.stallStart s.cur.gid s.lane0 va) g.tlbCore with
    | .ok (.dev pa _) _ =>
      if s.cut g.die (dieOfPa pa) then .error (linkStop va)
      else if s.homePoison pa 32 then .error (.trap { code := tPOISON, addr := va }) else .ok (s.homeRead pa 32)
    | .ok (.host pa) _ =>
      if s.hostCut g.die then .error (linkStop va)
      else if s.hostBad pa 32 then .error (.trap { code := tPOISON, addr := va }) else .ok (s.hostRead pa 32)
    | .ok _ _ => .error (.replay va 1 1)
    | .replay r l => .error (.replay va r l)
    | .prot _ => .error (.replay va 1 1)
    | .moving l => .error (stallStop l va)

/-- A pool record, with the checks that need no address (04 R75; 14 R274). A record of another context is reported in the freeze record by its allocation handle (04
Table 4.5; 16 R326), and the trap holds the lowest lane's address, `at_` of the record's base (11 R207). A guest of another module's launch goes home for it,
since its crate carries no POOL (DESIGN CHOICE, log 89). -/
def State.poolRec (s : State) (idx : Nat) (at_ : Nat → Nat) : Except Stop Pool :=
  match s.g.call with
  | some (c, _) =>
    let r := (s.call c).range (idx - 1)
    if idx = 0 ∨ 8 < idx ∨ r.2 = 0 then .error (memTrap tBOUNDS 1 s.lane0 0)
    else .ok { base := r.1, size := r.2, ro := false, input := decide (idx ≤ 4) }
  | none =>
    if s.foreign then .error .home
    else if s.launch.fld 0xB8 4 ≤ idx then .error (memTrap tBOUNDS 1 s.lane0 0)
    else
      match s.readRecord (s.launch.fld 0x88 8 + 32 * idx) with
      | .error e => .error e
      | .ok b =>
        if fieldAt b 0x18 1 % 64 ≠ s.g.ctx then
          .error (.trap { code := tHANDLE, detail := s.lane0 + 2 ^ 8, addr := at_ (fieldAt b 0 8), handle := some (fieldAt b 0x1E 2), freezes := true })
        else .ok { base := fieldAt b 0 8, size := fieldAt b 8 8, ro := bitOf (fieldAt b 0x10 1) 0 }

/-! ### Global addresses (09 R171) -/

/-- Every lane passes a check, or the lowest failing lane is reported (11 R205, R207). -/
def eachLane {α : Type} (xs : List α) (ok : α → Bool) (st : α → Stop) : Except Stop Unit :=
  match xs.find? fun x => !ok x with
  | some x => .error (st x)
  | none => .ok ()

/-- V registers that form an address: a pair for a flat one (09 R171). -/
def addrRegs (idx : Nat) : Nat := if idx = 0 then 2 else 1

/-- The global address of each lane of the batch, and its record's checks, alignment and bounds (09 R171; 11 R205): `n` bytes at
displacement `imm`. -/
def State.formAddrs (s : State) (r : Reg) (idx imm n : Nat) (write : Bool) : Except Stop (List (Nat × Nat)) :=
  let g := s.g
  let v (l : Nat) := (g.vval l (g.phys l r)).toNat
  if idx = 0 then
    let xs := s.batch.map fun l => (l, ((g.vpair l (g.phys l r)).toNat + imm) % 2 ^ 64)
    match eachLane xs (fun x => x.2 % n = 0) (fun x => memTrap tALIGN 2 x.1 x.2) with
    | .error e => .error e
    | .ok _ => .ok xs
  else
    match s.poolRec idx fun b => (b + v s.lane0 + imm) % 2 ^ 64 with
    | .error e => .error e
    | .ok p =>
      let xs := s.batch.map fun l => (l, (p.base + v l + imm) % 2 ^ 64)
      match firstErr
          [ if p.ro && write then (match xs with | x :: _ => .error (memTrap tBOUNDS 1 x.1 x.2) | [] => .ok ()) else .ok (),
            eachLane xs (fun x => x.2 % n = 0) (fun x => memTrap tALIGN 2 x.1 x.2),
            eachLane xs (fun x => v x.1 + imm + n ≤ p.size) (fun x => memTrap tBOUNDS 3 x.1 x.2),
            if p.input && write then (match xs with | x :: _ => .error (memTrap tPROT 7 x.1 x.2) | [] => .ok ()) else .ok () ] with
      | .error e => .error e
      | .ok _ => .ok xs

/-- A lane's access: where it is performed, and the entry that translated it (0 where none did). -/
structure LaneAcc where
  lane : Nat
  va : Nat
  tgt : Target
  pte : Nat := 0
  deriving DecidableEq, Repr

/-- A guest on a cellar core reaches only its own stack (15 R302). -/
def Group.farForGuest (g : Group) (t : Target) : Bool :=
  g.kind == .cellar && (match t with | .dev pa _ => stackOf pa != stackOfCellar g.place | _ => true)

/-- Where a lane's global access is performed, with permission checked (09 R171; 11 R206; 14 R274; 16 R316). -/
def State.locate (s : State) (lane va n : Nat) (acc : Acc) : Except Stop LaneAcc :=
  let g := s.g
  match g.call with
  | some (c, _) =>
    match (s.call c).refuses va n (acc == .write) with
    | some cause => .error (memTrap tPROT cause lane va)
    | none => .ok { lane := lane, va := va, tgt := .dev ((s.call c).devOf va) 3 }
  | none =>
    if !s.isLocal va then (if g.kind == .cellar then .error .home else .ok { lane := lane, va := va, tgt := .remote va })
    else
      match s.xlateSince g.die g.ctx va acc true (s.stallStart s.cur.gid lane va) g.tlbCore with
      | .ok t e => if g.farForGuest t then .error .home else .ok { lane := lane, va := va, tgt := t, pte := e }
      | .replay r l => .error (.replay va r l)
      | .prot u => .error (protTrap u lane va)
      | .moving l => .error (stallStop l va)

/-- Every lane located, the first failing lane deciding (11 R205, R206). -/
def State.locateAll (s : State) (xs : List (Nat × Nat)) (n : Nat) (acc : Acc) : Except Stop (List LaneAcc) :=
  firstStop (fun x => s.locate x.1 x.2 n acc) xs

/-- The TLBs after the local translations of an instruction (16 R317). -/
def State.tlbNote (s : State) (xs : List LaneAcc) : State :=
  if s.g.call.isSome then s else s.tlbFills s.g.die s.g.ctx ((xs.filter fun x => s.isLocal x.va).map (·.va)) s.g.tlbCore

/-! ### Larder, scratch and loft offsets (09 R163, R168, R174) -/

/-- An offset formed from V[r] and a signed displacement in bytes, checked for alignment and range (09 R163, R168). -/
def State.formOffsets (s : State) (r : Reg) (imm : Int) (n limit : Nat) : Except Stop (List (Nat × Nat)) :=
  let g := s.g
  let xs : List (Nat × Int) := s.batch.map fun l => (l, ((g.vval l (g.phys l r)).toNat : Int) + imm)
  match firstErr
      [ eachLane xs (fun x => x.2 % n = 0) (fun x => memTrap tALIGN 2 x.1 (toBits 64 x.2)),
        eachLane xs (fun x => 0 ≤ x.2 && x.2 + n ≤ limit) (fun x => memTrap tBOUNDS 3 x.1 (toBits 64 x.2)) ] with
  | .error e => .error e
  | .ok _ => .ok (xs.map fun x => (x.1, x.2.toNat))

/-- Offsets into a call's scratch: outside the granted range takes PROT (09 R174; 14 R274). -/
def State.formScratch (s : State) (r : Reg) (imm : Int) (n : Nat) : Except Stop (List (Nat × Nat × Nat)) :=
  let g := s.g
  match g.call with
  | none => .error .home
  | some (c, _) =>
    let q := s.call c
    let base := fieldAt q.msg 0x10 4 * 65536
    let limit := fieldAt q.msg 0x14 4 * 65536
    let xs : List (Nat × Int) := s.batch.map fun l => (l, ((g.vval l (g.phys l r)).toNat : Int) + imm)
    match firstErr
        [ eachLane xs (fun x => x.2 % n = 0) (fun x => memTrap tALIGN 2 x.1 (toBits 64 x.2)),
          eachLane xs (fun x => 0 ≤ x.2 && x.2 + n ≤ limit) (fun x => memTrap tPROT 3 x.1 (toBits 64 x.2)) ] with
    | .error e => .error e
    | .ok _ => .ok (xs.map fun x => (x.1, q.stack, base + x.2.toNat))

/-- The loft window of the issuing context on the issuing die: base and size (09 R168). -/
def State.loftWin (s : State) : Nat × Nat := tget (0, 0) (s.ctx s.g.ctx).loft s.g.die

/-! ### Values in memory form (05 R83; 11 R208) -/

/-- The bytes an access of a size stores from a lane's registers (11 R208). -/
def Group.storeBytes (g : Group) (z : Size) (l : Nat) (t : Reg) : List Byte :=
  (((List.range (sizeRegs z)).flatMap fun k => leBytes 4 (g.vval l (g.phys l t + k)).toNat)).take (sizeBytes z)

end Sys2Proof.Machine
end

