-- ==== Sys2Proof/Machine/Race.lean ====
section
/-! DEFINITION. The race detector (10 R202 to R204; 16 R311). -/
namespace Sys2Proof.Machine

/-- The scope under which a group's accesses are checked: a core group's at home; those of fibres away in crates are not (10 R203). -/
def State.raceScope (s : State) (gid : Nat) : Option Nat :=
  let g := s.grp gid
  if g.kind == .core && !g.isGuest then s.raceLaunch gid else none

/-- A group's tag: logical core × 64 + slot (10 Table 10.11). -/
def Group.raceTag (g : Group) : Nat := g.place * 64 + g.slot

/-- A recorded tag lies outside a group's D-instance (10 R203). -/
def State.tagOutside (s : State) (g : Group) (d tag : Nat) : Bool :=
  match d with
  | 1 => !((s.team g.tid).groups.any fun h => (s.grp h).raceTag == tag)
  | 2 => clusterOfCore (tag / 64) != clusterOfCore g.place
  | 3 => dieOfCore (tag / 64) != g.die
  | _ => false

/-- A record after the reset step (10 R203). -/
def Shadow.fresh (r : Shadow) (d c : Nat) (out : Nat → Bool) : Shadow :=
  if r.intv.toNat ≠ c ∨ r.scope.toNat ≠ d ∨ (r.wv && out r.wtag.toNat) ∨ (r.rv && out r.rtag.toNat) then
    { r with wv := false, rv := false, shr := false }
  else r

/-- The conflict an access meets: the other tag, and whether that access was a store (10 R203). A writer is reported before a reader (DEDUCED, log 130). -/
def Shadow.conflict (r : Shadow) (tag : Nat) (store : Bool) : Option (Nat × Bool) :=
  if r.wunk then none
  else if r.wv && r.wtag.toNat != tag then some (r.wtag.toNat, true)
  else if store && (r.shr || (r.rv && r.rtag.toNat != tag)) then some (r.rtag.toNat, false)
  else none

/-- A record after the access (10 R203). -/
def Shadow.record (r : Shadow) (tag d c : Nat) (store : Bool) : Shadow :=
  let r :=
    if store then { r with wtag := BitVec.ofNat 16 tag, wv := true, rv := false, shr := false }
    else { r with rtag := BitVec.ofNat 16 tag, shr := r.shr || (r.rv && r.rtag.toNat != tag), rv := true }
  { r with intv := BitVec.ofNat 25 c, scope := BitVec.ofNat 3 d }

/-- The race log takes a record, or counts it as dropped (10 R204; 16 R311). -/
def State.raceLog (s : State) (ctx : Nat) (bytes : List Byte) : State :=
  let area := (s.ctx ctx).fld 0x18 8
  let w := s.homeField area 4
  if w < (s.ctx ctx).fld 0x20 4 then (s.homeStore (area + 0x40 + 32 * w) bytes).homeSet area 4 (w + 1)
  else s.homeSet (area + 4) 4 (s.homeField (area + 4) 4 + 1)

/-- The shadow record of a place: a sector of device memory, or above them of host memory (10 R202; log 28). -/
def Target.raceKey (t : Target) : Option Nat :=
  match t with
  | .dev pa _ => some (pa / 64)
  | .host pa => some (2 ^ 40 + pa / 64)
  | _ => none

/-- One lane's access at a checked page (10 R203, R204). -/
def State.raceOne (s : State) (gid d c : Nat) (store : Bool) (x : LaneAcc) : State :=
  let g := s.grp gid
  match x.tgt.raceKey with
  | some k =>
    let r := (tget {} s.shadow k).fresh d c (s.tagOutside g d)
    let s := match r.conflict g.raceTag store with
      | some (tag, st) => s.raceLog g.ctx (record [(8, x.va / 64 * 64), (8, s.cur.pc.toNat), (2, g.raceTag), (2, tag),
          (1, b2n st + 2 * b2n store), (11, 0)])
      | none => s
    { s with shadow := tput s.shadow k (r.record g.raceTag d c store) }
  | none => s

/-- A plain access by the issuing group passes the detector, which records or traps (10 R202 to R204). -/
def State.raceCheck (s : State) (xs : List LaneAcc) (store : Bool) : Except Stop State :=
  match s.raceScope s.cur.gid with
  | none => .ok s
  | some d =>
    let g := s.g
    let c := tget 0 s.intervals (s.intervalKey s.cur.gid d)
    let xs := xs.filter fun x => pteBit x.pte 6
    let s := xs.foldl (fun s x => s.raceSeen g.die g.ctx x.va) s
    let hit (x : LaneAcc) : Option Stop :=
      match x.tgt.raceKey with
      | some k =>
        (((tget {} s.shadow k).fresh d c (s.tagOutside g d)).conflict g.raceTag store).map fun e =>
          .trap { code := tRACE, detail := e.1 + 65536 * b2n e.2 + 131072 * b2n store, addr := x.va / 64 * 64 }
      | none => none
    match (if bitOf (s.launchFlags s.cur.gid) 3 then none else firstSome hit xs) with
    | some e => .error e
    | none => .ok (xs.foldl (fun s x => s.raceOne s.cur.gid d c store x) s)

/-- Sectors written by a copy engine are reset (10 R203); a host address stands 2^46 above its own (log 28). -/
def State.raceReset (s : State) (pa n : Nat) : State :=
  { s with shadow := s.shadow.map fun e =>
      if pa / 64 ≤ e.1 && decide (e.1 * 64 < pa + n) then (e.1, { e.2 with wv := false, rv := false, shr := false }) else e }

end Sys2Proof.Machine
end

