-- ==== Sys2Proof/Machine/Depart.lean ====
section
/-! DEFINITION. Departure of migrating fibres: GO and migration on touch, the refusal causes, and the launch's policy (10 R194; 15 R300,
R301, R303, R304; 22 R375). -/
namespace Sys2Proof.Machine

/-- Where a crate goes: the module's node (none for this module), a cellar core of a stack or a core of a die. -/
structure Dest where
  node : Option Nat := none
  toCellar : Bool := false
  unit : Nat := 0
  deriving DecidableEq, Repr

/-- The destination of an address (15 R300): the stack or die that owns a local frame; another module by its node. -/
def State.destOf (s : State) (gid : Nat) (va : Nat) (t : Target) : Option Dest :=
  let cel := s.cellarEligible gid
  match t with
  | .dev pa _ => some { toCellar := cel, unit := if cel then stackOf pa else dieOfPa pa }
  | .remote _ => some { node := some (nodeOf va), toCellar := cel }
  | _ => none

/-- The fibres of a group stand at a destination (15 R300). -/
def Group.standsAt (g : Group) (d : Dest) : Bool :=
  d.node.isNone &&
    (if d.toCellar then g.kind == .cellar && stackOfCellar g.place == d.unit else g.kind == .core && g.die == d.unit)

/-- The instructions that cellar cores run for a guest fibre (03 Table 3.8; 15 R308). -/
def cellarGuestRuns : Instr → Bool
  | .iadd _ _ _ _ _ => true | .isub _ _ _ _ _ => true | .imul _ _ _ _ _ => true | .imin _ _ _ _ _ => true | .imax _ _ _ _ _ => true
  | .iabsd _ _ _ _ => true | .iabs _ _ _ => true | .and _ _ _ _ => true | .or _ _ _ _ => true | .xor _ _ _ _ => true
  | .andn _ _ _ _ => true | .orn _ _ _ _ => true | .xnor _ _ _ _ => true | .not _ _ _ => true
  | .shl _ _ _ _ => true | .shr _ _ _ _ => true | .sar _ _ _ _ => true | .rol _ _ _ _ => true | .ror _ _ _ _ => true
  | .shlI64 _ _ _ _ => true | .shrI64 _ _ _ _ => true | .sarI64 _ _ _ _ => true
  | .popc _ _ _ => true | .clz _ _ _ => true | .ctz _ _ _ => true | .brev _ _ _ => true
  | .bfx _ _ _ _ _ => true | .bfi _ _ _ _ => true | .prmt _ _ _ _ => true | .icmp _ _ _ _ _ => true | .sel _ _ _ _ _ => true
  | .imad _ _ _ _ _ _ => true | .idot4 _ _ _ _ _ _ => true | .idot2 _ _ _ _ _ => true | .lea _ _ _ _ _ => true | .lea64 _ _ _ _ _ => true
  | .iaddi _ _ _ _ => true | .andi _ _ _ _ => true | .shi _ _ _ _ _ => true | .movi _ _ _ => true
  | .fadd m _ _ _ _ => m != .f64 | .fsub m _ _ _ _ => m != .f64 | .fmul m _ _ _ _ => m != .f64
  | .fmin m _ _ _ _ => m != .f64 | .fmax m _ _ _ _ => m != .f64 | .fcmp _ _ _ _ _ => true
  | .fabs _ _ _ => true | .fneg _ _ _ => true | .fclass _ _ _ => true | .frndn _ _ _ => true | .frndz _ _ _ => true | .frndd _ _ _ => true
  | .fcopys _ _ _ _ => true | .fscale _ _ _ _ => true
  | .fma m _ _ _ _ _ => m != .f64 | .fms _ _ _ _ _ => true | .fnma _ _ _ _ _ => true | .fmaMixed _ _ _ _ _ _ => true
  | .cvt _ a b _ _ _ => a != .f64 && b != .f64
  | .qnt _ _ _ _ _ _ => true | .dqnt _ _ _ _ _ => true
  | .voteAny _ _ _ => true | .voteAll _ _ _ => true | .voteBallot _ _ _ => true | .voteMatch _ _ _ => true | .votePopc _ _ _ => true
  | .redl _ _ _ _ => true | .scanl _ _ _ _ _ => true
  | .ldg _ _ _ _ _ _ => true | .stg _ _ _ _ _ _ => true
  | .atomAdd _ _ _ _ _ => true | .atomMinI _ _ _ _ _ => true | .atomMaxI _ _ _ _ _ => true | .atomMinN _ _ _ _ _ => true
  | .atomMaxN _ _ _ _ _ => true | .atomAnd _ _ _ _ _ => true | .atomOr _ _ _ _ _ => true | .atomXor _ _ _ _ _ => true
  | .wait _ _ _ _ _ => true | .br _ _ => true | .brCond _ _ _ _ => true | .call _ _ _ => true
  | .nop _ => true | .ret _ => true | .rdclk _ _ => true | .fend _ => true | .gohome _ => true
  | .iaddC16 _ _ _ => true | .isubC16 _ _ _ => true | .imulC16 _ _ _ => true | .andC16 _ _ _ => true | .orC16 _ _ _ => true
  | .xorC16 _ _ _ => true | .shlC16 _ _ _ => true | .shrC16 _ _ _ => true | .movC16 _ _ _ => true | .moviC16 _ _ => true
  | .iaddiC16 _ _ => true | .faddC16 _ _ _ => true | .fmaxC16 _ _ _ => true | .fmulC16 _ _ _ => true
  | _ => false

/-- A parcel of a context's code as it stands in memory; none where it cannot be fetched. -/
def State.codeParcel (s : State) (die ctx a : Nat) : Option Parcel :=
  match s.xlate die ctx a .fetch true with
  | .ok (.dev pa _) _ => if s.homePoison pa 2 then none else some (BitVec.ofNat 16 (s.homeField pa 2))
  | .ok (.host pa) _ => if s.hostBad pa 2 then none else some (BitVec.ofNat 16 (leNat (s.hostRead pa 2)))
  | _ => none

/-- The instruction of a context's code at an address, at most two prefixes read first; none where it cannot be read. -/
def State.peek (s : State) (die ctx : Nat) (pre : Prefixes) (a : Nat) : Nat → Option Instr
  | 0 => none
  | n + 1 =>
    match s.codeParcel die ctx a with
    | none => none
    | some p =>
      let q := if p.getLsbD 0 then (s.codeParcel die ctx ((a + 2) % 2 ^ 64)).map (p.toNat + 65536 * ·.toNat) else some p.toNat
      match q with
      | none => none
      | some w =>
        match decode pre w with
        | .ok (.lit x) => s.peek die ctx { pre with lit := some x } ((a + 4) % 2 ^ 64) n
        | .ok (.mod x) => s.peek die ctx { pre with mod := some x, modFirst := pre.lit.isNone } ((a + 4) % 2 ^ 64) n
        | .ok i => some i
        | .error _ => none

/-- A cellar core would run the instruction of a context's code at an address (15 Table 15.4 cause 3). -/
def State.cellarWouldRun (s : State) (die ctx pc : Nat) : Bool :=
  match s.peek die ctx {} pc 3 with
  | some i => cellarGuestRuns i
  | none => false

/-- Bytes of a context's memory that the N8 reads for itself, page by page; none where a page does not translate (15 R302; 16 R320). -/
def State.readImage (s : State) (die ctx va : Nat) : Nat → Option (List Byte)
  | 0 => some []
  | n + 1 =>
    match s.xlate die ctx va .read false with
    | .ok (.dev pa _) _ => (s.readImage die ctx (va + 1) n).map fun l => s.homeByte pa :: l
    | .ok (.host pa) _ => (s.readImage die ctx (va + 1) n).map fun l => mread s.hostMem pa :: l
    | _ => none

/-- Refusal causes 2 to 5 of one crate that the source's own module can tell (15 Table 15.4). -/
def State.refusal (s : State) (gid : Nat) (d : Dest) (lanes : List Nat) (pc : Dword) : Option Nat :=
  let g := s.grp gid
  let hops := match g.guest with | some i => i.hops | none => 0
  let c2 := match d.node with
    | some _ => false
    | none =>
      match s.kernEntry g.ctx (s.khandle gid) with
      | none => true
      | some e => d.toCellar && (kernCellSize e = 0 || (s.readImage g.die g.ctx (kernCellImg e) (kernCellSize e)).isNone)
  let c3 := d.toCellar && (!s.cellarWouldRun g.die g.ctx pc.toNat || decide (2 ^ 64 ≤ s.vmaskOf gid) ||
    decide (2 ^ 8 ≤ (s.headOf gid 0 0 0 0 0).smask) || lanes.any fun l => decide (32 ≤ g.wb l))
  if c2 then some 2 else if c3 then some 3 else if 8 < hops + 1 then some 4 else none

/-- Lists of at most n elements. -/
def chunks (n : Nat) : Nat → List Nat → List (List Nat)
  | 0, _ => []
  | _ + 1, [] => []
  | k + 1, x :: xs => (x :: xs).take n :: chunks n k ((x :: xs).drop n)

/-- One crate leaves (10 R194; 15 R301; 22 R375): its fibres are away, their registers stay as they were. -/
def State.departOne (s : State) (gid : Nat) (d : Dest) (pc : Dword) (va : Nat) (goP : Nat) (lanes : List Nat) : State :=
  let g := s.grp gid
  let hops := (match g.guest with | some i => i.hops | none => 0) + 1
  let seq := ((match g.guest with | some i => i.seq | none => g.crateSeq) + 1) % 2 ^ 32
  let h := s.headOf gid pc.toNat hops (8 * b2n d.toCellar) seq va
  let fs := lanes.map fun l => g.block (s.vmaskOf gid) l (if goP < 16 then some goP else none)
  let bytes := crateBytes h ((bitsSet 32 h.smask).map g.sreg) fs
  let (n, s) := s.newId
  let s := s.setG gid fun g =>
    let info := match g.guest with | some i => some { i with seq := seq } | none => none
    ({ g with crateSeq := if g.isGuest then g.crateSeq else seq, guest := info }).forLanes lanes fun g l => g.setF l fun f => { f with life := .away }
  let c : Crate := { id := n, bytes := bytes, die := d.unit, stack := d.unit, toCellar := d.toCellar, fromGid := gid, ctx := g.ctx, sentAt := s.now,
                     sent := d.node.isSome, goP := goP, lanes := maskOf lanes, srcDie := g.die,
                     flags := match g.guest with | some i => i.flags ||| BitVec.ofNat 6 g.fpflags.toNat | none => 0 }
  let s := { s with crates := s.crates ++ [c] }
  match d.node with
  | none => s
  | some node =>
    s.request { tag := 0, gid := gid, core := g.place, die := g.die, ctx := g.ctx, use := .crate n,
                pkt := { kind := 10, va := BitVec.ofNat 64 (if va / 2 ^ 45 = node then va else node * 2 ^ 45), payload := bytes } }

/-- What became of fibres that are to migrate: a stop, a wait for their earlier accesses, or departure with the lanes that stay. -/
inductive Touched where
  | stop (s : State) (e : Stop)
  | wait (s : State)
  | gone (s : State) (left : List Nat)

/-- Lanes grouped by destination, in order of first appearance. -/
def byDest : List (Nat × Nat × Dest) → List (Dest × List (Nat × Nat))
  | [] => []
  | (l, va, d) :: xs =>
    let r := byDest xs
    if r.any fun e => e.1 == d then r.map fun e => if e.1 = d then (d, (l, va) :: e.2) else e else (d, [(l, va)]) :: r

/-- The crates of fibres that are to migrate, by destination, at most 32 fibres in each, or 16 for a cellar core, in ascending lane order (15 R300). -/
def cratesOf (xs : List (Nat × Nat × Dest)) : List (Dest × Nat × List Nat) :=
  (byDest xs).flatMap fun e =>
    (chunks (if e.1.toCellar then 16 else 32) 64 (e.2.map (·.1))).map fun lanes =>
      (e.1, ((e.2.find? fun y => some y.1 == lanes.head?).getD (0, 0)).2, lanes)

/-- Fibres of the batch migrate (15 R300 to R305): `xs` holds lane, address and destination of those that do not stand there, `pc` is where they
go on, `goP` the P index of a GO. Refused fibres follow the launch's policy, each crate's refusal its own; the others depart. A departure is a release
and a fallback, once, both a release and an acquire (10 R194). -/
def State.migrate (s : State) (pc : Dword) (goP : Nat) (xs : List (Nat × Nat × Dest)) : Touched :=
  let gid := s.cur.gid
  let g := s.g
  let told := xs.filterMap fun x => (g.fib x.1).refused.map fun r => (x.1, r.1, r.2)
  let new := xs.filter fun x => (g.fib x.1).refused.isNone
  let judged := (cratesOf new).map fun c => (c, s.refusal gid c.1 c.2.2 pc)
  let bad := told ++ judged.flatMap fun j =>
    match j.2 with
    | some c => j.1.2.2.map fun l => (l, c, ((new.find? fun x => x.1 == l).map (·.2.1)).getD 0)
    | none => []
  let go := judged.filterMap fun j => if j.2.isNone then some j.1 else none
  let trapPolicy := bitOf (s.launchFlags gid) 1
  match minOf (bad.map (·.1)), trapPolicy with
  | some l, true =>
    let (c, va) := ((bad.find? fun b => b.1 == l).map (·.2)).getD (0, 0)
    match g.guest with
    | some i => .stop (if i.homeGid = 0 then s else s.setG i.homeGid fun h =>
        bad.foldl (fun h b => h.setF (g.homeLane b.1) fun f => { f with refused := some b.2 }) h) .home
    | none => .stop s (.trap { code := tMIGREF, detail := c + 256 * l, addr := va })
  | _, _ =>
    let fresh := bad.filter fun b => !(g.fib b.1).fellBack
    if go.isEmpty && fresh.isEmpty then .gone s s.batch
    else
      let ls := go.flatMap (·.2.2)
      let (ok, s) := s.flushGroup gid
      if !ok || (s.grp gid).returns.any fun r => r.lanes.any fun q => ls.contains q.lane then .wait s
      else
        let s := go.foldl (fun s c => s.departOne gid c.1 pc c.2.1 goP c.2.2) s
        let s := s.raceTick gid (ls.length + 2 * fresh.length)
        let s := s.setG gid fun g => fresh.foldl (fun g b => g.setF b.1 fun f => { f with refused := some b.2, fellBack := true }) g
        .gone (if fresh.isEmpty || !g.hasL1 then s else s.l1Acquire g.place) (s.batch.filter fun l => !ls.contains l)

/-- The lanes of an access that migrate on touch (15 R300): their page carries MIG, the launch's CRATE flag is 1, and the fibre does not stand
at the page's destination. MIG is ignored on a HOST page (16 R314). Of a page homed on another module it is a free value (DEDUCED, log 90). -/
def State.touching (s : State) (xs : List LaneAcc) : List (Nat × Nat × Dest) :=
  if bitOf (s.launchFlags s.cur.gid) 0 && s.g.call.isNone then
    xs.filterMap fun x =>
      match x.tgt with
      | .dev _ _ =>
        match s.destOf s.cur.gid x.va x.tgt with
        | some d => if pteBit x.pte 5 && (!s.g.standsAt d || (s.g.fib x.lane).refused.isSome) then some (x.lane, x.va, d) else none
        | none => none
      | .remote _ =>
        if (s.g.fib x.lane).refused.isSome || Config.remoteMig s.g.ctx x.va s.now then
          (s.destOf s.cur.gid x.va x.tgt).map fun d => (x.lane, x.va, d)
        else none
      | _ => none
  else []

end Sys2Proof.Machine
end

