-- ==== Sys2Proof/Machine/LoadStore.lean ====
section
/-! DEFINITION. Loads and stores of global memory, larder, scratch and loft (09 R163 to R165; 10 R180, R186; 11 R205 to R212). -/
namespace Sys2Proof.Machine

/-- The queue holds an operation that returns a value, or what an acquire awaits: no load passes it (10 R180, R184; 11 R219). -/
def Group.queuesOps (g : Group) : Bool :=
  g.stores.any fun o => match o.act with
    | .atom _ _ _ _ => true
    | .reduce _ _ _ => true
    | .lop _ _ => true
    | .load _ _ _ => true
    | .await _ => true
    | _ => false

/-! ### Units of an access (10 R185, R186) -/

/-- The events of a group access: one lane each, or 128 bytes of contiguous lanes each where the whole group addresses an aligned block. -/
def accUnits (w n : Nat) (group : Bool) (xs : List LaneAcc) : List (List LaneAcc) :=
  match xs with
  | [] => []
  | x :: _ =>
    if group && xs.length == w && x.va % 128 == 0 && xs.all (fun y => y.va == x.va + n * (y.lane - x.lane)) then
      (List.range (n * w / 128)).map fun k => (xs.drop (k * (128 / n))).take (128 / n)
    else xs.map fun y => [y]

/-- The sizes whose group accesses are indivisible (10 R186). -/
def groupSize (w : Nat) (z : Size) : Bool :=
  match z with
  | .b32 => w == 32 || w == 64
  | .b16 => w == 64
  | _ => false

/-- Registers an n-register destination holds pending (02 R42). -/
def State.destRegs (s : State) (d : Reg) (n : Nat) : List RegRef := (s.refIdx (vdst d n)).map fun i => { cls := 0, idx := i }

/-- A target on another module. -/
def Target.isRemote : Target → Bool
  | .remote _ => true
  | .larder _ => false
  | .scratch _ _ => false
  | .loft _ _ => false
  | .dev _ _ => false
  | .host _ => false
  | .held _ => false

/-- An order's tick of the race detector (10 R202). -/
def State.orderTick (s : State) : State := if preOrder s.cur.pre == .plain then s else s.raceTick s.cur.gid s.batch.length

/-! ### Loads -/

/-- A lane of LDP whose page is not resident: zeros, and its P bit cleared (11 R210). -/
def State.zeroLane (s : State) (z : Size) (d : Reg) (p : PReg) (lane : Nat) : LaneRet :=
  { lane := lane, ready := true, dst := s.g.phys lane d,
    ws := vWrites lane (s.g.phys lane d) false (List.replicate (sizeRegs z) 0) ++ [.p lane p.toNat false] }

/-- One event of a load as it issues: performed now, its own group's queued stores laid over, or queued where an earlier operation or its place holds
it back (10 R180; 11 Table 11.1). -/
def State.loadNow (s : State) (gid : Nat) (o : StoreOp) (lanes : List Nat) (z : Size) (p : Option Nat) : State :=
  if (s.grp gid).queuesOps || !s.placeOpen gid o then s.setG gid fun g => { g with stores := g.stores ++ [o] }
  else s.performLoad gid (s.grp gid).stores o lanes z p

/-- A load of an instruction begins: its return counts in LD, its events are performed or queued in lane order, and the batch goes on (02 R42, R43; 11
R206). The group stalls where some lane is homed on another module. -/
def State.beginLoad (s : State) (z : Size) (d : Reg) (p : Option PReg) (xs : List LaneAcc) (zero : List Nat) (e : Bool) : State :=
  let gid := s.cur.gid
  let c := s.cur
  let regs := s.destRegs d (sizeRegs z) ++ (match p with | some i => [{ cls := 5, idx := i.toNat }] | none => [])
  let (rid, s) := s.newId
  let g := s.g
  let rs := xs.map fun x => ({ lane := x.lane, dst := g.phys x.lane d, addr := x.va } : LaneRet)
  let zs := match p with | some i => zero.map (s.zeroLane z d i) | none => []
  let far := xs.any fun x => x.tgt.isRemote
  let s := s.modG fun g => g.begin { id := rid, kind := .load, ctr := some .ld, regs := regs, lanes := rs ++ zs, stall := far, issue := c }
  let s := if s.g.queuesOps then (s.drainQueue gid).2 else s
  let s := (accUnits g.width (sizeBytes z) (groupSize g.width z && p.isNone) xs).foldl (fun s u =>
    match u with
    | [] => s
    | x :: _ =>
      let ls := u.map (·.lane)
      let pi := p.map (·.toNat)
      s.loadNow gid { ret := rid, lane := x.lane, tgt := x.tgt, act := .load ls z pi, order := preOrder c.pre, scope := preScope c.pre, va := x.va,
                      pc := c.pc } ls z pi) s
  if far then s.retireAt fun _ => c.npc else s.retire e

/-- The batch narrowed to the lanes that stay. -/
def State.narrow (s : State) (lanes : List Nat) : State := { s with cur := { s.cur with mask := maskOf lanes } }

/-- Migration on touch, then the access by the lanes that stay (15 R300). -/
def State.afterTouch (s : State) (xs : List LaneAcc) (k : State → List LaneAcc → Except Stop State) : Except Stop State :=
  match s.touching xs with
  | [] => k s xs
  | t =>
    match s.migrate s.cur.pc 99 t with
    | .stop s e => .ok (s.halt e)
    | .wait s => .ok (s.blockOn .depart)
    | .gone s left => if left.isEmpty then .ok s.endRun else k (s.narrow left) (xs.filter fun x => left.contains x.lane)

/-- Where the lanes of LDP are, with those whose page is not resident apart (11 R210): never a replay. -/
def State.locateProbe (s : State) (n : Nat) : List (Nat × Nat) → Except Stop (List LaneAcc × List Nat)
  | [] => .ok ([], [])
  | x :: xs =>
    match s.locate x.1 x.2 n .read with
    | .error (.replay _ _ _) => (match s.locateProbe n xs with | .ok (a, z) => .ok (a, x.1 :: z) | .error e => .error e)
    | .error e => .error e
    | .ok a => (match s.locateProbe n xs with | .ok (l, z) => .ok (a :: l, z) | .error e => .error e)

/-- A global load's effect after its checks. -/
def State.finishLoad (s : State) (z : Size) (d : Reg) (p : Option PReg) (zero : List Nat) (e : Bool) (xs : List LaneAcc) : Except Stop State :=
  match (if preOrder s.cur.pre == .plain then s.raceCheck xs false else .ok s) with
  | .error st => .error st
  | .ok s => .ok ((s.orderTick.tlbNote xs).beginLoad z d p xs zero e)

/-- LDG (11 R208, R209). -/
def execLdg (z : Size) (i : Reg) (p : BitVec 6) (r t : Reg) (e : Bool) (s : State) : Out :=
  let idx := s.poolIdx p
  let n := sizeBytes z
  s.runEnd avVec [vsrc r (addrRegs idx), vdst t (sizeRegs z)]
    (match firstErr [s.checkCtr .ld], s.formAddrs r idx (s.immM i * n) n false with
     | .error st, _ => .error st
     | _, .error st => .error st
     | .ok _, .ok as =>
       match s.locateAll as n .read with
       | .error st => .error st
       | .ok xs => s.afterTouch xs fun s xs => s.finishLoad z t none [] e xs)

/-- LDP (11 R210): it never makes its group replayable, so where the pool record itself cannot be read every lane is one whose page is not there. -/
def execLdp (z : Size) (q : PReg) (p : BitVec 6) (r t : Reg) (e : Bool) (s : State) : Out :=
  let idx := s.poolIdx p
  let n := sizeBytes z
  s.runEnd avCore [vsrc r (addrRegs idx), vdst t (sizeRegs z), pref q.toNat]
    (match firstErr [s.checkCtr .ld], s.formAddrs r idx 0 n false with
     | .error st, _ => .error st
     | .ok _, .error (.replay _ _ _) => .ok (s.beginLoad z t (some q) [] s.batch e)
     | _, .error st => .error st
     | .ok _, .ok as =>
       match s.locateProbe n as with
       | .error st => .error st
       | .ok (xs, zero) => s.afterTouch xs fun s xs => s.finishLoad z t (some q) (zero.filter fun l => s.batch.contains l) e xs)

/-! ### Stores -/

/-- Stores of an instruction enter the group's queue (10 R180) and count in ST until the last is performed (02 R43). -/
def State.beginStore (s : State) (us : List (Target × Nat × List Byte)) : State :=
  let (rid, s) := s.newId
  let c := s.cur
  s.modG fun g =>
    let g := g.begin { id := rid, kind := .store, ctr := some .st, left := us.length, issue := c }
    { g with stores := g.stores ++ us.map fun u =>
        { ret := rid, lane := 0, tgt := u.1, va := u.2.1, act := .bytes u.2.2, order := preOrder c.pre, scope := preScope c.pre, pc := c.pc } }

/-- STG (11 R208, R209). -/
def execStg (z : Size) (i : Reg) (p : BitVec 6) (r t : Reg) (e : Bool) (s : State) : Out :=
  let idx := s.poolIdx p
  let n := sizeBytes z
  s.runEnd avVec [vsrc r (addrRegs idx), vsrc t (sizeRegs z)]
    (match firstErr [s.checkCtr .st], s.formAddrs r idx (s.immM i * n) n true with
     | .error st, _ => .error st
     | _, .error st => .error st
     | .ok _, .ok as =>
       match s.locateAll as n .write with
       | .error st => .error st
       | .ok xs =>
         s.afterTouch xs fun s xs =>
           match (if preOrder s.cur.pre == .plain then s.raceCheck xs true else .ok s) with
           | .error st => .error st
           | .ok s =>
             let g := s.g
             let us := (accUnits g.width n (groupSize g.width z) xs).filterMap fun u =>
               u.head?.map fun x => (x.tgt, x.va, u.flatMap fun y => g.storeBytes z y.lane t)
             .ok (((s.orderTick.tlbNote xs).beginStore us).retire e))

/-! ### Larder and scratch (09 R163 to R165, R174; 11 R211) -/

/-- The first line of an unfilled window that accesses touch: the lowest lane that does, window, line (09 R165). -/
def Team.unfilled (t : Team) (offs : List (Nat × Nat)) (n : Nat) : Option (Nat × Nat × Nat) :=
  firstSome (fun o =>
    firstSome (fun line =>
      match t.window line with
      | some (k, w) => if w.valid.contains line then none else some (o.1, k, line)
      | none => none) ((List.range ((o.2 + n - 1) / 256 + 1 - o.2 / 256)).map (· + o.2 / 256))) offs

/-- First touch of a window's line (09 R165): the line is read and placed, or requested from its module, which the group awaits. Poison is carried to
whoever reads the larder (02 R44; 17 R344). A PROT holds the global line's address (DEDUCED, log 54). -/
def State.fillWindow (s : State) (lane k line : Nat) : Except Stop (Bool × State) :=
  let g := s.g
  let va := (tget {} s.tm.lmap k).lineAddr line
  match s.locate lane va 256 .read with
  | .error e => .error e
  | .ok x =>
    if x.tgt.isRemote then
      let s := if s.reqs.any fun q => match q.use with | .fill i w l _ => i == g.tid && w == k && l == line | _ => false then s else
        s.request { tag := 0, gid := s.cur.gid, core := g.place, die := g.die, ctx := g.ctx, use := .fill g.tid k line lane, issue := s.cur,
                    fwd := s.fwdBytes s.cur.gid g.stores va 256,
                    pkt := { kind := 1, va := BitVec.ofNat 64 va, aux := 256 } }
      .ok (false, s)
    else if !s.reaches s.cur.gid x.tgt false then .error (.block (.reach x.tgt false))
    else
      let (bs, bad, s) := s.readSectors s.cur.gid g.stores x.tgt va [0, 1, 2, 3]
      .ok (true, (s.tlbNote [x]).modT fun t => t.fillLine k line bs bad (some (x.tgt, pteBit x.pte 2)))

/-- Every window line that accesses touch is filled, in order; `fuel` bounds the lines (09 R165). -/
def State.fillAll (s : State) (offs : List (Nat × Nat)) (n : Nat) : Nat → Except Stop (Bool × State)
  | 0 => .ok (true, s)
  | fuel + 1 =>
    match s.tm.unfilled offs n with
    | none => .ok (true, s)
    | some (lane, k, line) =>
      match s.fillWindow lane k line with
      | .error e => .error e
      | .ok (false, s) => .ok (false, s)
      | .ok (true, s) => s.fillAll offs n fuel

/-- Where LDL and STL go: the team's larder, or the call's scratch (11 R211). -/
def State.larderLanes (s : State) (r : Reg) (imm : Int) (n : Nat) : Except Stop (List LaneAcc) :=
  match s.g.kind with
  | .cellar =>
    match s.formScratch r imm n with
    | .error e => .error e
    | .ok xs => .ok (xs.map fun x => { lane := x.1, va := x.2.2, tgt := .scratch x.2.1 x.2.2 })
  | _ =>
    match s.formOffsets r imm n s.tm.larderSize with
    | .error e => .error e
    | .ok xs => .ok (xs.map fun x => { lane := x.1, va := x.2, tgt := .larder x.2 })

/-- Window fills before a larder access, then the access (09 R165). -/
def State.afterFill (s : State) (xs : List LaneAcc) (n : Nat) (k : State → State) : Except Stop State :=
  if s.g.kind == .cellar then .ok (k s)
  else
    match s.fillAll (xs.map fun x => (x.lane, x.va)) n 2048 with
    | .error e => .error e
    | .ok (false, s) => .ok (s.blockOn .remote)
    | .ok (true, s) => .ok (k s)

/-- Core and cellar, never at a guest. -/
def avHomeCellar : Avail := { cellar := true }

/-- LDL of a displacement in bytes (11 R211). -/
def State.opLdl (s : State) (z : Size) (imm : Int) (r t : Reg) (e : Bool) : Out :=
  s.runEnd avHomeCellar [vsrc r, vdst t (sizeRegs z)]
    (match firstErr [s.checkCtr .ld], s.larderLanes r imm (sizeBytes z) with
     | .error st, _ => .error st
     | _, .error st => .error st
     | .ok _, .ok xs => s.afterFill xs (sizeBytes z) fun s => s.beginLoad z t none xs [] e)

/-- STL of a displacement in bytes: a store into a read-only window takes PROT (09 R164; 11 R207, R211). -/
def State.opStl (s : State) (z : Size) (imm : Int) (r t : Reg) (e : Bool) : Out :=
  let n := sizeBytes z
  s.runEnd avHomeCellar [vsrc r, vsrc t (sizeRegs z)]
    (match firstErr [s.checkCtr .st], s.larderLanes r imm n with
     | .error st, _ => .error st
     | _, .error st => .error st
     | .ok _, .ok xs =>
       let bad := if s.g.kind == .cellar then none else
         xs.find? fun x => match s.tm.window (x.va / 256) with | some (_, w) => !w.wb | none => false
       match bad with
       | some x => .error (memTrap tPROT 7 x.lane x.va)
       | none => s.afterFill xs n fun s => (s.beginStore (xs.map fun x => (x.tgt, x.va, s.g.storeBytes z x.lane t))).retire e)

/-- LDL (11 R211). -/
def execLdl (z : Size) (i : BitVec 11) (r t : Reg) (e : Bool) (s : State) : Out := s.opLdl z (s.immML i * sizeBytes z) r t e
/-- STL (11 R211). -/
def execStl (z : Size) (i : BitVec 11) (r t : Reg) (e : Bool) (s : State) : Out := s.opStl z (s.immML i * sizeBytes z) r t e

/-! ### Loft (09 R168, R169; 11 R212) -/

/-- The loft lanes of an access (09 R168). -/
def State.loftLanes (s : State) (r : Reg) (imm : Int) (n : Nat) : Except Stop (List LaneAcc) :=
  let w := s.loftWin
  match s.formOffsets r imm n w.2 with
  | .error e => .error e
  | .ok xs => .ok (xs.map fun x => { lane := x.1, va := x.2, tgt := .loft s.g.die (w.1 + x.2) })

/-- LDO (11 R212). -/
def execLdo (z : Size) (i : BitVec 11) (r t : Reg) (e : Bool) (s : State) : Out :=
  s.runEnd avHome [vsrc r, vdst t (sizeRegs z)]
    (match firstErr [s.checkCtr .ld], s.loftLanes r (s.immML i * sizeBytes z) (sizeBytes z) with
     | .error st, _ => .error st
     | _, .error st => .error st
     | .ok _, .ok xs => .ok (s.orderTick.beginLoad z t none xs [] e))

/-- STO (11 R212). -/
def execSto (z : Size) (i : BitVec 11) (r t : Reg) (e : Bool) (s : State) : Out :=
  s.runEnd avHome [vsrc r, vsrc t (sizeRegs z)]
    (match firstErr [s.checkCtr .st], s.loftLanes r (s.immML i * sizeBytes z) (sizeBytes z) with
     | .error st, _ => .error st
     | _, .error st => .error st
     | .ok _, .ok xs => .ok ((s.orderTick.beginStore (xs.map fun x => (x.tgt, x.va, s.g.storeBytes z x.lane t))).retire e))

end Sys2Proof.Machine
end

