-- ==== Sys2Proof/Machine/Quant.lean ====
section
/-! DEFINITION. Quantisation: format slots, QNT with its outlier list, DQNT (05 R84 to R86, R96 to R101; 06 R125). -/
namespace Sys2Proof.Machine

/-! ### Format slots (05 R96, R97) -/

/-- The format of a slot: FMT (05 Table 5.4). -/
inductive QFmt where
  | f8e4 | f8e5 | q8 | q4 | c4
  deriving DecidableEq, Repr

/-- The formats QNT and DQNT accept (05 R96). -/
def qfmtOf (n : Nat) : Option QFmt :=
  match n with
  | 3 => some .f8e4 | 4 => some .f8e5 | 7 => some .q8 | 8 => some .q4 | 9 => some .c4 | _ => none

/-- Elements of a block (06 R125). -/
def QFmt.elems : QFmt → Nat
  | .f8e4 => 4 | .f8e5 => 4 | .q8 => 4 | .q4 => 8 | .c4 => 8

/-- CAP, OBASE and OINDEX of a slot (05 Table 5.4). -/
def slotCap (b : List Byte) : Nat := fieldAt b 4 4
/-- OBASE. -/
def slotObase (b : List Byte) : Nat := fieldAt b 8 8
/-- OINDEX. -/
def slotOindex (b : List Byte) : Nat := fieldAt b 0x10 8

/-- The cause of a slot's first failing check, in the order of the table of 05 R97 (DEDUCED, log 131): `takes` says which FMT codes the instruction
accepts. -/
def slotCause (takes : Nat → Bool) (b : List Byte) : Option Nat :=
  let fmt := fieldAt b 0 1
  let grp := fieldAt b 1 1
  if 10 ≤ fmt then some 1
  else if !takes fmt then some 2
  else if 3 ≤ grp ∨ (grp ≠ 0 ∧ fmt < 7) then some 3
  else if 6 ≤ fieldAt b 2 1 then some 4
  else if fieldAt b 3 1 ≠ 0 ∨ fieldAt b 0x18 8 ≠ 0 then some 5
  else if slotCap b ≠ 0 ∧ (slotObase b % 8 ≠ 0 ∨ slotOindex b % 4 ≠ 0) then some 6
  else none

/-- An instruction's check of the slot it names (05 R97). A guest of another module's launch goes home for it, since its crate carries no slots (DEDUCED,
log 89). -/
def State.checkSlot (s : State) (k : Nat) (takes : Nat → Bool) : Except Stop Unit :=
  if s.foreign then .error .home
  else
    match slotCause takes (s.slotBytes k) with
    | some c => .error (.trap { code := tSLOT, detail := k + 256 * c })
    | none => .ok ()

/-! ### Codes (05 R98, R100, R101) -/

/-- How an element converts: its code and flags, or the way it left the range: 1 above, 2 below, 3 NaN. -/
inductive QCode where
  | code (q flags : Nat)
  | out (how : Nat)
  deriving DecidableEq, Repr

/-- Zero point of a parameter word (05 R85). -/
def paramZ (f : QFmt) (p : Word) : Nat := match f with | .q4 => bitsOf p.toNat 19 16 | _ => bitsOf p.toNat 23 16

/-- x / s as a signed fraction with the sign of a zero, or the way it is not finite (05 R98). -/
inductive Ratio where
  | fin (neg : Bool) (n d : Nat)
  | out (how : Nat)
  deriving DecidableEq, Repr

/-- x / s (05 R98): F32 multiples of 2^−149 over F16 multiples of 2^−24. -/
def ratio (x s : FV) : Ratio :=
  match x, s with
  | .nan _ _ _, _ => .out 3
  | _, .nan _ _ _ => .out 3
  | .inf _, .inf _ => .out 3
  | .inf a, .fin b _ _ => .out (if a != b then 2 else 1)
  | .fin a _ _, .inf b => .fin (a != b) 0 1
  | .fin a m e, .fin b k j =>
    if k = 0 then (if m = 0 then .out 3 else .out (if a != b then 2 else 1))
    else .fin (a != b) (m * 2 ^ (e + 149).toNat) (k * 2 ^ (j + 24).toNat * 2 ^ 125)

/-- The finite entries of a C4 table as (code, multiple of 2^−24) (05 R86, R98). -/
def c4Entries (daz : Bool) (b : List Byte) : List (Nat × Int) :=
  (List.range 16).filterMap fun q =>
    match unpack fF16 daz (fieldAt b (0x20 + 2 * q) 2) with
    | .fin s m e => some (q, signedInt s (m * 2 ^ (e + 24).toNat))
    | .inf _ => none
    | .nan _ _ _ => none

/-- The entry that comes first in an order among a list, the first on a tie. -/
def bestBy (lt : Nat × Int → Nat × Int → Bool) : List (Nat × Int) → Option (Nat × Int)
  | [] => none
  | a :: l => match bestBy lt l with | some b => if lt b a then some b else some a | none => some a

/-- One element's code (05 R98). An exact zero keeps the quotient's IEEE sign in an F8E4 or F8E5 code (DEDUCED, log 114). -/
def quantOne (f : QFmt) (b : List Byte) (md : FpMode) (p x : Word) : QCode :=
  let s := unpack fF16 md.daz (p.toNat % 65536)
  let mode := cvtMode md (rndOf (fieldAt b 2 1)) .f8e4
  let z := paramZ f p
  match ratio (unpack fF32 md.daz x.toNat) s with
  | .out h => .out h
  | .fin neg n d =>
    let grouped (qmax : Nat) : QCode :=
      let t := signedInt neg n + z * d
      let r := t.natAbs
      let q := if roundsUp mode (decide (t < 0)) (r / d) (r % d) d false then r / d + 1 else r / d
      if t < 0 ∧ q ≠ 0 then .out 2
      else if qmax < q then .out 1
      else .code q (if r % d = 0 then 0 else 1)
    let narrow (g : Fmt) : QCode :=
      if n = 0 then .code (g.signed neg 0) 0
      else
        let r := roundPack g mode md.ftz neg (n * 2 ^ 300 / d) (-300) (n * 2 ^ 300 % d != 0)
        if bitOf r.2 2 then .out (if neg then 2 else 1) else .code r.1 r.2
    match f with
    | .q8 => grouped 255
    | .q4 => grouped 15
    | .f8e4 => narrow fF8E4
    | .f8e5 => narrow fF8E5
    | .c4 =>
      let es := c4Entries md.daz b
      let t := signedInt neg n * 2 ^ 24
      let dist (e : Nat × Int) : Nat := (t - e.2 * d).natAbs
      match bestBy (fun a b => decide (a.2 > b.2)) es, bestBy (fun a b => decide (a.2 < b.2)) es,
          bestBy (fun a b => decide (dist a < dist b)) es with
      | some hi, some lo, some q =>
        if hi.2 * d < t then .out 1 else if t < lo.2 * d then .out 2 else .code q.1 (if dist q = 0 then 0 else 1)
      | _, _, _ => .out 3

/-- The code for 0.0, written for an outlier that is recorded (05 R98). -/
def zeroCode (f : QFmt) (p : Word) : Nat :=
  match f with
  | .q8 => paramZ f p | .q4 => paramZ f p | .f8e4 => 0 | .f8e5 => 0 | .c4 => 0

/-- A saturated outlier (05 R100). -/
def satCode (f : QFmt) (b : List Byte) (daz : Bool) (p : Word) (how : Nat) : Nat :=
  let pick (up down nan : Nat) : Nat := if how = 1 then up else if how = 2 then down else nan
  match f with
  | .q8 => pick 255 0 (paramZ f p)
  | .q4 => pick 15 0 (paramZ f p)
  | .f8e4 => pick 0x7E 0xFE 0
  | .f8e5 => pick 0x7B 0xFB 0
  | .c4 =>
    let es := c4Entries daz b
    pick ((bestBy (fun a b => decide (a.2 > b.2)) es).getD (0, 0)).1 ((bestBy (fun a b => decide (a.2 < b.2)) es).getD (0, 0)).1 0

/-- The element of a register of codes (05 R83). -/
def codeAt (f : QFmt) (w : Word) (j : Nat) : Nat := if f.elems = 8 then nibOf w j else byteOf w j
/-- A register of codes (05 R83). -/
def packCodes (f : QFmt) (qs : List Nat) : Word := w32 (packNat (2 ^ (32 / f.elems)) qs)

/-- One element's value and flags (05 R101): an exact product, with the scale as the first operand. -/
def dequantOne (f : QFmt) (b : List Byte) (md : FpMode) (p : Word) (q : Nat) : Nat × Nat :=
  let s := unpack fF16 md.daz (p.toNat % 65536)
  let go (g : Fmt) (v : FV) : Nat × Nat := fpOp md fF32 .rne [(fF16, s), (g, v)] [mulTerm s v]
  let int (x : Int) : FV := .fin (decide (x < 0)) x.natAbs 0
  match f with
  | .q8 => go fF32 (int ((q : Int) - paramZ f p))
  | .q4 => go fF32 (int ((q : Int) - paramZ f p))
  | .f8e4 => go fF8E4 (unpack fF8E4 md.daz q)
  | .f8e5 => go fF8E5 (unpack fF8E5 md.daz q)
  | .c4 => go fF16 (unpack fF16 md.daz (fieldAt b (0x20 + 2 * q) 2))

/-! ### DQNT (06 R125) -/

/-- Formats by FMT code that QNT and DQNT accept (05 R96). -/
def takesQ (n : Nat) : Bool := (qfmtOf n).isSome

/-- The slot's format once the check has passed. -/
def State.slotFmt (s : State) (k : Fld3) : QFmt := (qfmtOf (fieldAt (s.slotBytes k.toNat) 0 1)).getD .q8

/-- DQNT (05 R101; 06 R125). -/
def execDqnt (k : Fld3) (z v d : Reg) (e : Bool) (s : State) : Out :=
  let f := s.slotFmt k
  let b := s.slotBytes k.toNat
  let rs := [vsrc v, vsrc z]
  s.runChecks [s.checkKind avVec, s.checkSlot k.toNat takesQ, s.checkRegs avVec (rs ++ [vdst d f.elems]), s.checkData (rs ++ [vdst d f.elems])] e
    (s.writeV d fun l =>
      let p := s.g.old l z
      let rs := (List.range f.elems).map fun j => dequantOne f b s.md p (codeAt f (s.g.old l v) j)
      (rs.map fun r => w32 r.1, rs.foldl (fun m r => m ||| r.2) 0))

/-! ### QNT (05 R99, R100; 06 R125) -/

/-- A batch's codes as computed at issue: by lane, the parameter word, codes (0 for an outlier) and flags; and its outliers in order. -/
structure QBatch where
  rows : List (Nat × Nat × List Nat)
  outs : List (Nat × Nat × Nat × Nat × Nat)
  flags : Nat
  deriving DecidableEq, Repr

/-- The batch converted (05 R98); Sn gives the element index (06 R125). -/
def State.quantBatch (s : State) (f : QFmt) (b : List Byte) (sn : Word) (z v : Reg) : QBatch :=
  let g := s.g
  let cells := s.batch.map fun l => (l, g.old l z, (List.range f.elems).map fun j =>
    let x := g.vval l (g.phys l v + j)
    (x, quantOne f b s.md (g.old l z) x))
  { rows := cells.map fun c => (c.1, c.2.1.toNat, c.2.2.map fun q => match q.2 with | .code q _ => q | .out _ => 0)
    outs := cells.flatMap fun c => (List.range f.elems).filterMap fun j =>
      match c.2.2.getD j (0, QCode.code 0 0) with
      | (x, .out h) => some (c.1, j, h, (sn.toNat + f.elems * c.1 + j) % 2 ^ 32, x.toNat)
      | (_, .code _ _) => none
    flags := cells.foldl (fun m c => c.2.2.foldl (fun m q => match q.2 with | .code _ fl => m ||| fl | .out _ => m) m) 0 }

/-- Codes with one element of a lane replaced. -/
def setCode (rows : List (Nat × Nat × List Nat)) (lane j q : Nat) : List (Nat × Nat × List Nat) :=
  rows.map fun r => if r.1 = lane then (r.1, r.2.1, r.2.2.set j q) else r

/-- An operation of a group's earlier issue, carried on as that issue. -/
def State.asIssue (s : State) (i : Issue) (f : State → State) : State :=
  let t := f { s with cur := i }
  { t with cur := s.cur }

/-- A record page that cannot be written (05 R99): its CODE in the KIND 0x04 record. -/
def lostCode : Stop → Nat
  | .replay _ r _ => if r = 1 then 1 else 2
  | .trap _ => 3
  | .block _ => 2
  | .home => 2

/-- One outlier once its index is known: its record enters the group's stores, or it is saturated; the codes and whether OUTFULL is set
(05 R99, R100). -/
def State.recordOne (s : State) (st : Nat) (q : QntPend) (f : QFmt) (cap : Nat) (old : Option Nat) (n : Nat) (o : Nat × Nat × Nat × Nat × Nat) :
    QntPend × Bool × State :=
  let (lane, j, how, idx, x) := o
  let p := w32 ((q.rows.find? fun r => r.1 == lane).getD (0, 0, [])).2.1
  let sat : QntPend := { q with rows := setCode q.rows lane j (satCode f q.slot s.md.daz p how) }
  let kept : QntPend := { q with rows := setCode q.rows lane j (zeroCode f p) }
  match old with
  | none => (sat, true, s)
  | some i =>
    let k := i + n
    if cap ≤ k then (sat, true, s)
    else
      let va := (slotObase q.slot + 8 * k) % 2 ^ 64
      let put (t : Target) : State :=
        s.modG fun g => { (g.setRet st fun r => { r with left := r.left + 1 }) with stores := g.stores ++
          [{ ret := st, lane := lane, tgt := t, act := .bytes (leBytes 4 idx ++ leBytes 4 x), va := va, since := s.now, pc := s.cur.pc }] }
      match s.locate lane va 8 .write with
      | .ok a => (kept, false, put a.tgt)
      | .error (.block _) => (kept, false, put (.held va))
      | .error e =>
        let s := s.lostWrite s.cur.gid (lostCode e) va
        let s := match e with
          | .trap t => if t.freezes then s.freezeCtx s.g.die s.g.ctx 3 0 s.g.who s.cur.pc.toNat va t.detail s.cur.gid else s
          | .replay _ _ _ => s
          | .block _ => s
          | .home => s
        (sat, true, s)

/-- Every outlier in order. -/
def State.recordAll (s : State) (st : Nat) (f : QFmt) (cap : Nat) (old : Option Nat) : Nat → QntPend → List (Nat × Nat × Nat × Nat × Nat) → QntPend × Bool × State
  | _, q, [] => (q, false, s)
  | n, q, o :: os =>
    let (q, full, s) := s.recordOne st q f cap old n o
    let (q, full', s) := s.recordAll st f cap old (n + 1) q os
    (q, full || full', s)

/-- The index add has returned: none for a word that met an uncorrectable error. The outliers are treated, the codes become ready, and the add
is performed (05 R99, R100). The record stores stand before what the group has queued since. The return that counts in ST follows the one that holds
Vd. -/
def State.qntDone (s : State) (gid ret : Nat) (old : Option Nat) : State :=
  match (s.grp gid).ret? ret with
  | none => s
  | some r =>
    match r.qnt with
    | none => s
    | some q =>
      s.asIssue r.issue fun s =>
        let f := (qfmtOf (fieldAt q.slot 0 1)).getD .q8
        let s := match old with | none => s.lostWrite gid 5 (slotOindex q.slot) | some _ => s
        let later := s.g.stores
        let s := (s.orFlags q.flags).modG fun g => { g with stores := [] }
        let (q, full, s) := s.recordAll (ret + 1) f (slotCap q.slot) old 0 q q.outs
        let s := if full then s.orFlags flOUTFULL else s
        s.modG fun g =>
          let g := q.rows.foldl (fun g row =>
            g.setRet ret fun r => { r with qnt := none, lanes := r.lanes.map fun l =>
              if l.lane = row.1 then { l with ready := true, ws := [.v l.lane l.dst { val := packCodes f row.2.2 }] } else l })
            { g with stores := g.stores ++ later }
          g.oneDone (ret + 1)

/-- On a call's core OINDEX and the list lie in its granted output ranges, whatever the batch holds (05 R99). OINDEX is tested first, the whole list lies in
one range, and PROT names the lowest lane of the batch and the range's first address (DEDUCED, log 27). -/
def State.qntGranted (s : State) (b : List Byte) : Except Stop Unit :=
  match s.g.call with
  | none => .ok ()
  | some (c, _) =>
    if slotCap b = 0 then .ok ()
    else
      firstErr ([(slotOindex b, 4), (slotObase b, 8 * slotCap b)].map fun r =>
        match (s.call c).refuses r.1 r.2 true with
        | some cause => .error (memTrap tPROT cause s.lane0 r.1)
        | none => .ok ())

/-- A guest of a cellar core leaves for home where its index add or records leave its own stack (15 R302). -/
def State.qntPlace (s : State) (b : List Byte) (outs : List (Nat × Nat × Nat × Nat × Nat)) (lane : Nat) (x : LaneAcc) : Except Stop Unit :=
  if s.g.kind != .cellar || s.g.call.isSome then .ok ()
  else
    let (bs, _, _) := s.readAt s.cur.gid x.tgt 4
    if (List.range outs.length).any fun n =>
        let k := leNat bs + n
        decide (k < slotCap b) && (match s.locate lane (slotObase b + 8 * k) 8 .write with | .error .home => true | _ => false)
    then .error .home else .ok ()

/-- The add of n at OINDEX performed at its place: relaxed, at SYSTEM scope (05 R99). Another module is asked by an ATOMIC or a REDUCE packet (12 R255). -/
def State.performIndex (s : State) (gid ret lane n : Nat) (t : Target) (at_ : Nat) : State :=
  let g := s.grp gid
  match t with
  | .dev pa pol =>
    let s := if g.hasL1 then s.l1Flush g.place (pa / 256) else s
    let (old, pois, s) := s.homeAtomic pol pa 4 .add n 0
    let s := if pol = 3 then s.raceUnknown g.die g.ctx at_ pa 4 else s
    s.qntDone gid ret (if pois then none else some old)
  | .host pa =>
    let (old, pois, s) := s.hostAtomic pa 4 .add n 0
    s.qntDone gid ret (if pois then none else some old)
  | .remote va =>
    let s := s.wcDrain g.place fun w => w.line == va / 256 && w.ctx == g.ctx
    let (k, s) := s.pick 2
    let pkt : Packet :=
      if k = 0 then { kind := 3, op := atomCode .add, va := BitVec.ofNat 64 va, aux := 4, payload := leBytes 4 n ++ leBytes 4 0 }
      else { kind := 4, op := atomCode .add, va := BitVec.ofNat 64 (va / 256 * 256), aux := 4,
             payload := leBytes 1 (va % 256) ++ leBytes 4 n ++ leBytes 4 0 }
    let issue := match g.ret? ret with | some r => r.issue | none => {}
    s.request { tag := 0, gid := gid, core := g.place, die := g.die, ctx := g.ctx, use := .atom ret lane 4 0 false, issue := issue, pkt := pkt }
  | .larder _ => s
  | .scratch _ _ => s
  | .loft _ _ => s
  | .held _ => s

/-- A queued index add at the head of its group's queue; the bool says that it was performed. -/
def State.indexHead (s : State) (gid : Nat) (o : StoreOp) (n : Nat) : Bool × State :=
  if s.placeOpen gid o then (true, (s.setG gid fun g => { g with stores := g.stores.drop 1 }).performIndex gid o.ret o.lane n o.tgt o.va)
  else (false, s)

/-- A QNT with outliers issues (05 R99): its codes and its count in ST stand open. A core's add enters the group's store queue, and a later load may be
performed before it (20 R369); a cellar core's is performed as it issues. -/
def State.qntAdd (s : State) (d : Reg) (q : QntPend) (flags lane : Nat) (x : LaneAcc) (e : Bool) : Except Stop State :=
  let queued := s.g.kind == .core
  let (done, s) := if queued then (true, s) else s.drainQueue s.cur.gid
  if !done then .ok (s.blockOn (.fence .team))
  else if !queued && !s.reaches s.cur.gid x.tgt true then .ok (s.blockOn (.reach x.tgt true))
  else
    let gid := s.cur.gid
    let far := x.tgt.isRemote
    let (rv, s) := s.newId
    let (rs, s) := s.newId
    let n := q.outs.length
    let issue := s.cur
    let ls := s.batch
    let regs := s.destRegs d 1
    let s := s.modG fun g =>
      (g.begin { id := rv, kind := .qnt, regs := regs, issue := issue, stall := far, qnt := some { q with flags := flags },
                 lanes := ls.map fun l => { lane := l, dst := g.phys l d, addr := x.va } }).begin
        { id := rs, kind := .store, ctr := some .st, left := 1, issue := issue }
    let s := s.tlbNote [x]
    let s :=
      if queued then
        s.modG fun g => { g with stores := g.stores ++
          [{ ret := rv, lane := lane, tgt := x.tgt, act := .index n, va := x.va, since := s.now, pc := issue.pc }] }
      else s.performIndex gid rv lane n x.tgt x.va
    .ok (if far then s.retireAt fun _ => s.cur.npc else s.retire e)

/-- QNT (05 R98 to R100; 06 R125). -/
def execQnt (n : BitVec 4) (k : Fld3) (z v d : Reg) (e : Bool) (s : State) : Out :=
  let f := s.slotFmt k
  let b := s.slotBytes k.toNat
  let rs := [vsrc v f.elems, vsrc z, { cls := 1, field := n.toNat }, vdst d]
  match firstErr [s.checkKind avVec, s.checkSlot k.toNat takesQ, s.checkRegs avVec rs, s.checkPending rs, s.checkCtr .st, s.checkData rs,
      s.qntGranted b] with
  | .error st => .next (s.halt st)
  | .ok _ =>
    let q := s.quantBatch f b (s.g.sreg n.toNat) z v
    match q.outs with
    | [] => .next (((s.writeV d fun l => ([packCodes f ((q.rows.find? fun r => r.1 == l).getD (0, 0, [])).2.2], 0)).orFlags q.flags).retire e)
    | o :: _ =>
      if slotCap b = 0 then
        let rows := q.outs.foldl (fun rows o =>
          setCode rows o.1 o.2.1 (satCode f b s.md.daz (w32 ((rows.find? fun r => r.1 == o.1).getD (0, 0, [])).2.1) o.2.2.1)) q.rows
        .next (((s.writeV d fun l => ([packCodes f ((rows.find? fun r => r.1 == l).getD (0, 0, [])).2.2], 0)).orFlags (q.flags ||| flOUTFULL)).retire e)
      else
        match s.locate o.1 (slotOindex b) 4 .write with
        | .error st => .next (s.halt st)
        | .ok x =>
          match s.qntPlace b q.outs o.1 x with
          | .error st => .next (s.halt st)
          | .ok _ =>
            match s.qntAdd d { slot := b, rows := q.rows, outs := q.outs } q.flags o.1 x e with
            | .error st => .next (s.halt st)
            | .ok t => .next t

end Sys2Proof.Machine
end

