-- ==== Sys2Proof/Machine/Array.lean ====
section
/-! DEFINITION. The matrix array: operation shapes, operands in bins, sums, stops, and the order in which operations are taken (07 R133 to
R150; 08 R151 to R161; 22 R376). -/
namespace Sys2Proof.Machine

/-! ### Bins (07 R135; 17 R344) -/

/-- Bytes of a bin. -/
def Cluster.binRead (c : Cluster) (bin off n : Nat) : List Byte := mreads c.bins (32768 * bin + off) n
/-- A range of a bin carries poison (17 R344). -/
def Cluster.binBad (c : Cluster) (bin off n : Nat) : Bool := c.binPoison.any fun w => overlaps (32768 * bin + off) n (8 * w) 8
/-- Bytes written to a bin; whole words take new check bits (17 R344). -/
def Cluster.binWrite (c : Cluster) (bin off : Nat) (bs : List Byte) : Cluster :=
  let p := 32768 * bin + off
  { c with bins := mwrites c.bins p bs, binPoison := c.binPoison.filter fun w => !(decide (p ≤ 8 * w ∧ 8 * w + 8 ≤ p + bs.length)) }
/-- Bins zeroed (08 R155). -/
def Cluster.binZero (c : Cluster) (first k : Nat) : Cluster :=
  { c with bins := mclear c.bins (32768 * first) (32768 * k), binPoison := c.binPoison.filter fun w => !(decide (4096 * first ≤ w ∧ w < 4096 * (first + k))) }

/-! ### Shapes (07 Table 7.2) -/

/-- What an element is: a floating-point value, an integer, a Q code, a C4 code. -/
inductive MClass where
  | float (f : Fmt) | int (signed : Bool) | q (four : Bool) | c4

/-- A slot's operation shape (07 Table 7.2): bits of an element, K, elements of a sum unit. -/
structure MShape where
  cls : MClass
  bits : Nat
  k : Nat
  unit : Nat

/-- Shape of a slot (07 Table 7.2). -/
def mshape (b : List Byte) : MShape :=
  let g := 32 * 2 ^ fieldAt b 1 1
  match fieldAt b 0 1 with
  | 1 => ⟨.float fF16, 16, 128, 32⟩
  | 2 => ⟨.float fBF16, 16, 128, 32⟩
  | 3 => ⟨.float fF8E4, 8, 256, 32⟩
  | 4 => ⟨.float fF8E5, 8, 256, 32⟩
  | 5 => ⟨.int true, 8, 256, 32⟩
  | 6 => ⟨.int false, 8, 256, 32⟩
  | 7 => ⟨.q false, 8, 256, g⟩
  | 8 => ⟨.q true, 4, 512, g⟩
  | _ => ⟨.c4, 4, 512, g⟩

/-- The format has parameter bins (07 R139). -/
def MShape.grouped (m : MShape) : Bool := match m.cls with | .q _ => true | .c4 => true | .float _ => false | .int _ => false
/-- Sum units of an operation (07 Table 7.2). -/
def MShape.units (m : MShape) : Nat := m.k / m.unit
/-- Bytes of n elements. -/
def MShape.bytes (m : MShape) (n : Nat) : Nat := n * m.bits / 8

/-- A minor of MMA (08 R158). -/
def minorZ (minor : Nat) : Bool := minor = 1 || minor = 3 || minor = 5
/-- A 2:4 minor. -/
def minorSparse (minor : Nat) : Bool := minor = 2 || minor = 3
/-- FMT codes a minor accepts (08 R158). -/
def minorTakes (minor fmt : Nat) : Bool :=
  if minorSparse minor then decide (1 ≤ fmt ∧ fmt ≤ 9)
  else if minor = 4 || minor = 5 then decide (7 ≤ fmt ∧ fmt ≤ 9)
  else decide (1 ≤ fmt ∧ fmt ≤ 6)

/-! ### Operands (07 R139, R140) -/

/-- Element x of elements packed from a byte offset of a bin (07 R139; 05 R83). -/
def Cluster.elem (c : Cluster) (bin off bits x : Nat) : Nat :=
  match bits with
  | 16 => leNat (c.binRead bin (off + 2 * x) 2)
  | 8 => leNat (c.binRead bin (off + x) 1)
  | _ => leNat (c.binRead bin (off + x / 2) 1) / 16 ^ (x % 2) % 16

/-- Byte offset of row i's kept elements, and of its metadata (07 R140). -/
def MShape.keptOff (m : MShape) (i : Nat) : Nat := i * m.bytes (m.k / 2)
/-- Byte offset of row i's metadata word w (07 R140). -/
def MShape.metaOff (m : MShape) (i w : Nat) : Nat := 0x4000 + i * (m.k / 8) + 4 * w

/-- Metadata word w of row i (07 R140). -/
def Cluster.metaWord (c : Cluster) (m : MShape) (a i w : Nat) : Nat := leNat (c.binRead a (m.metaOff i w) 4)

/-- The first illegal group of a metadata word (07 R140). -/
def badGroup (w : Nat) : Option Nat :=
  (List.range 8).find? fun n =>
    let p := w / 16 ^ n % 16
    !(p = 4 || p = 8 || p = 12 || p = 9 || p = 13 || p = 14)

/-- The terms of row i of A in sum unit d: logical k and code (07 R139, R140, R144). -/
def Cluster.rowTerms (c : Cluster) (m : MShape) (minor a i d : Nat) : List (Nat × Nat) :=
  if minorSparse minor then
    (List.range (m.unit / 2)).map fun x =>
      let e := d * (m.unit / 2) + x
      (4 * (e / 2) + c.metaWord m a i (e / 16) / 4 ^ (e % 16) % 4, c.elem a (m.keptOff i) m.bits e)
  else
    (List.range m.unit).map fun x =>
      let k := d * m.unit + x
      (k, if minor = 6 then (if m.bits = 16 then leNat (c.binRead a (256 * k + 2 * i) 2) else leNat (c.binRead a (128 * k + i) 1))
          else c.elem a (256 * i) m.bits k)

/-- A parameter word (07 R139): of row or column i, group d. -/
def Cluster.param (c : Cluster) (m : MShape) (bin i d : Nat) : Nat := leNat (c.binRead (bin + 1) (4 * (i * m.units + d)) 4)

/-! ### Sums (07 R141 to R144) -/

/-- An exact sum as one term: bad for a NaN or opposite infinities (07 R141). -/
def exactSum (ts : List Term) : Term :=
  let pos := ts.any fun t => t == .inf false
  let neg := ts.any fun t => t == .inf true
  if ts.any (fun t => t == .bad) || (pos && neg) then .bad
  else if pos then .inf false
  else if neg then .inf true
  else
    let e := minExp ts 0
    let x := sumInt e ts
    if x = 0 then .fin (zeroSign .rne ts) 0 0 else .fin (decide (x < 0)) x.natAbs e

/-- The exact product of terms. -/
def Term.times : Term → Term → Term
  | .fin s m e, .fin t n k => .fin (s != t) (m * n) (e + k)
  | .inf s, .inf t => .inf (s != t)
  | .inf s, .fin t n _ => if n = 0 then .bad else .inf (s != t)
  | .fin t n _, .inf s => if n = 0 then .bad else .inf (s != t)
  | .bad, _ => .bad
  | _, .bad => .bad

/-- +0, the element that a 2:4 operation did not keep (07 R140, R144). -/
def droppedTerm : Term := .fin false 0 0

/-- Products of a row's terms with column j; the dropped elements of a 2:4 row are exact zeros, as in a dense operation on the expanded A
(07 R144). -/
def dotTerms (sparse : Bool) (lo n : Nat) (row : List (Nat × Nat)) (fa : Nat → Term) (fb : Nat → Term) : List Term :=
  (row.map fun t => (fa t.2).times (fb t.1)) ++
  (if sparse then ((List.range n).map (lo + ·)).filterMap fun k => if row.any (fun t => t.1 = k) then none else some (droppedTerm.times (fb k))
   else [])

/-- The accumulator element after one sum unit (07 R141 to R144): `row` is A's terms, `old` the element's bits. -/
def Cluster.unitStep (c : Cluster) (slot : List Byte) (m : MShape) (minor a b i j d : Nat) (row : List (Nat × Nat)) (old : Word) : Word :=
  let bc (k : Nat) : Nat := c.elem b (256 * j) m.bits k
  let accumulate (t : Term) : Word := w32 (fAdd fF32 fpAway false old.toNat (sumRound fF32 .rne false [t]).1).1
  let scales : Term := (unpack fF16 false (c.param m a i d % 65536)).term.times (unpack fF16 false (c.param m b j d % 65536)).term
  match m.cls with
  | .float f =>
    let v (x : Nat) : Term := (unpack f false x).term
    accumulate (exactSum (dotTerms (minorSparse minor) (d * m.unit) m.unit row v fun k => v (bc k)))
  | .int sg =>
    let v (x : Nat) : Int := if sg then sextInt 8 x else x
    wrap32 (old.toNat + (row.map fun t => v t.2 * v (bc t.1)).foldl (· + ·) 0)
  | .q four =>
    let z (w : Nat) : Nat := if four then bitsOf w 19 16 else bitsOf w 23 16
    let za : Int := z (c.param m a i d)
    let zb : Int := z (c.param m b j d)
    let p : Int := (row.map fun t => ((t.2 : Int) - za) * (bc t.1 - zb)).foldl (· + ·) 0
    accumulate (scales.times (.fin (decide (p < 0)) p.natAbs 0))
  | .c4 =>
    let v (x : Nat) : Term := (unpack fF16 false (fieldAt slot (0x20 + 2 * x) 2)).term
    accumulate (scales.times (exactSum (dotTerms (minorSparse minor) (d * m.unit) m.unit row v fun k => v (bc k))))

/-! ### Accumulators (07 R146) -/

/-- A row of an accumulator as it stands. -/
def Team.zrow (t : Team) (z i : Nat) : List Word := tget (List.replicate 128 0) t.z (128 * z + i)
/-- A row as of the last completed sum unit (07 R146). -/
def Team.zdone (t : Team) (z i : Nat) : List Word := tget (List.replicate 128 0) t.zLast (128 * z + i)
/-- Rows of an accumulator written. -/
def Team.zput (t : Team) (z : Nat) (rows : List (Nat × List Word)) : Team := { t with z := tputs t.z (rows.map fun r => (128 * z + r.1, r.2)) }
/-- The tile as it stands becomes its last completed state (07 R146). -/
def Team.zcommit (t : Team) (z : Nat) : Team :=
  { t with zLast := tputs t.zLast ((List.range 128).map fun i => (128 * z + i, t.zrow z i)) }
/-- The last completed state is zero with count 0 (07 R146). -/
def Team.zreset (t : Team) (z : Nat) : Team :=
  { t with zLast := t.zLast.filter fun e => e.1 / 128 != z, zSteps := tput t.zSteps z 0, zBad := t.zBad.filter fun w => w / 8192 != z }
/-- An element of an accumulator carries poison (17 R344). -/
def Team.zbad (t : Team) (z i j : Nat) : Bool := t.zBad.contains ((128 * z + i) * 64 + j / 2)

/-! ### One sum unit (07 R147) -/

/-- A stop inside a sum unit: the step it stands at and, for metadata, the word and its first illegal group. -/
structure MStop where
  row : Nat
  col : Nat
  word : Option (Nat × Nat) := none
  deriving DecidableEq, Repr, Inhabited

/-- The fields of a matrix operation (07 R147). -/
structure MmaOp where
  minor : Nat
  slot : Nat
  a : Nat
  b : Nat
  zd : Nat
  deriving DecidableEq, Repr, Inhabited

/-- The matrix operation that an array operation is. -/
def MatKind.mma? : MatKind → Option MmaOp
  | .mma minor slot a b zd => some ⟨minor, slot, a, b, zd⟩
  | .fill _ _ => none
  | .release _ _ => none
  | .zst _ _ _ => none
  | .zld _ _ => none
  | .zclr _ => none

/-- Poison in what row i of A supplies to unit d: data, metadata, parameter word (07 R147). -/
def Cluster.rowBad (c : Cluster) (m : MShape) (o : MmaOp) (i d : Nat) : Bool :=
  (if minorSparse o.minor then
     c.binBad o.a (m.keptOff i + m.bytes (d * m.unit / 2)) (m.bytes (m.unit / 2)) || c.binBad o.a (m.metaOff i (d * m.unit / 32)) (m.unit / 8)
   else if o.minor = 6 then
     (List.range m.unit).any fun x =>
       let k := d * m.unit + x
       if m.bits = 16 then c.binBad o.a (256 * k + 2 * i) 2 else c.binBad o.a (128 * k + i) 1
   else c.binBad o.a (256 * i + m.bytes (d * m.unit)) (m.bytes m.unit)) ||
  (m.grouped && c.binBad (o.a + 1) (4 * (i * m.units + d)) 4)

/-- Poison in what column j of B supplies to unit d (07 R147). -/
def Cluster.colBad (c : Cluster) (m : MShape) (o : MmaOp) (j d : Nat) : Bool :=
  c.binBad o.b (256 * j + m.bytes (d * m.unit)) (m.bytes m.unit) || (m.grouped && c.binBad (o.b + 1) (4 * (j * m.units + d)) 4)

/-- The first illegal metadata word that row i brings to unit d, with its group (07 R140, R148). -/
def Cluster.rowIllegal (c : Cluster) (m : MShape) (o : MmaOp) (i d : Nat) : Option (Nat × Nat) :=
  if minorSparse o.minor then
    firstSome (fun x => let w := c.metaWord m o.a i (d * m.unit / 32 + x); (badGroup w).map fun n => (w, n)) (List.range (m.unit / 32))
  else none

/-- The stops that unit d meets from a step on (07 R147): never before that step; `metas` where metadata may stop the operation. -/
def Cluster.stopsAt (c : Cluster) (m : MShape) (o : MmaOp) (d row col : Nat) (metas : Bool) : List MStop :=
  let rows := (List.range 128).filter fun i => row ≤ i
  let at_ (i : Nat) (w : Option (Nat × Nat)) : MStop := ⟨i, if i = row then col else 0, w⟩
  (rows.filterMap fun i => if c.rowBad m o i d then some (at_ i none) else none) ++
  (rows.filterMap fun i => if metas then (c.rowIllegal m o i d).map fun w => at_ i (some w) else none) ++
  ((List.range 128).filterMap fun j =>
    if c.colBad m o j d then some (if row = 0 ∧ col ≤ j then ⟨0, j, none⟩ else ⟨row, col, none⟩) else none)

/-- The stops that poison in the accumulator itself brings to a unit that adds to it, from a step on (17 R344). -/
def Team.zStops (t : Team) (o : MmaOp) (d row col : Nat) : List MStop :=
  if minorZ o.minor && d = 0 then []
  else
    t.zBad.flatMap fun w =>
      if w / 8192 = o.zd then
        ([2 * (w % 64), 2 * (w % 64) + 1].filter fun j => decide (128 * row + col ≤ 128 * (w / 64 % 128) + j)).map fun j => ⟨w / 64 % 128, j, none⟩
      else []

/-- The earliest of stops; a later one of the list wins a tie where `late` says so. -/
def firstStopOf (late : Bool) : List MStop → Option MStop
  | [] => none
  | x :: xs =>
    match firstStopOf late xs with
    | some y => if x.row * 128 + x.col < y.row * 128 + y.col ∨ (x.row * 128 + x.col = y.row * 128 + y.col ∧ !late) then some x else some y
    | none => some x

/-- The tile's rows after the steps of unit d from `lo` up to `hi`, as row × 128 + column (07 R147; 08 R158 for the .Z forms). -/
def unitRows (t : Team) (c : Cluster) (slot : List Byte) (o : MmaOp) (d lo hi : Nat) : List (Nat × List Word) :=
  let m := mshape slot
  ((List.range 128).filter fun i => decide (lo < 128 * i + 128 ∧ 128 * i < hi)).map fun i =>
    let row := c.rowTerms m o.minor o.a i d
    let old := t.zrow o.zd i
    (i, (List.range 128).map fun j =>
      if lo ≤ 128 * i + j ∧ 128 * i + j < hi then
        c.unitStep slot m o.minor o.a o.b i j d row (if minorZ o.minor && d = 0 then 0 else old.getD j 0)
      else old.getD j 0)

/-! ### Which operation is next (07 R133, R145; 08 R155; 22 R376) -/

/-- Bins that an operation reads or writes, the parameter bins included. -/
def State.opBins (s : State) (o : MatOp) : List Nat :=
  match o.kind with
  | .mma _ slot a b _ =>
    let m := mshape (sliceAt (s.grid (s.team (s.grp o.gid).tid).grid).slots (64 * slot) 64)
    if m.grouped then [a, a + 1, b, b + 1] else [a, b]
  | .fill b _ => [b]
  | .release f k => (List.range k).map (f + ·)
  | .zst m _ b => if m = 0 then [b, b + 1] else [b]
  | .zld _ b => [b, b + 1]
  | .zclr _ => []

/-- The operation is a release. -/
def MatOp.isRelease (o : MatOp) : Bool := match o.kind with | .release _ _ => true | _ => false
/-- The operation is a matrix operation. -/
def MatOp.isMma (o : MatOp) : Bool := o.kind.mma?.isSome

/-- An agent has a stopped operation (07 R150). -/
def State.agentStopped (s : State) (gid : Nat) : Bool := (s.grp gid).seq.stopped.isSome

/-- The accumulator that an operation works on. -/
def MatOp.tile? (o : MatOp) : Option Nat :=
  match o.kind with
  | .mma _ _ _ _ zd => some zd
  | .zst _ zd _ => some zd
  | .zld zd _ => some zd
  | .zclr zd => some zd
  | .fill _ _ => none
  | .release _ _ => none

/-- The operation writes bins. -/
def MatOp.writesBins (o : MatOp) : Bool :=
  match o.kind with
  | .fill _ _ => true
  | .release _ _ => true
  | .zst _ _ _ => true
  | .mma _ _ _ _ _ => false
  | .zld _ _ => false
  | .zclr _ => false

/-- An operation is held behind its context's stopped one (07 R150): one issued before the stop and, of those issued in it, the first matrix operation
and all after it (DESIGN CHOICE, log 119); other bin and accumulator operations issued in the stop go on (22 R376). -/
def State.heldBack (s : State) (c : Cluster) (q : MatOp) : Bool :=
  let mark := (s.grp q.gid).seq.stopMark
  s.agentStopped q.gid &&
    (decide (q.id < mark) || c.ops.any fun m => m.gid == q.gid && m.isMma && decide (mark ≤ m.id ∧ m.id ≤ q.id))

/-- A tile stands under a stopped or once stopped operation, or one held behind it, so ZST, ZLD and ZCLR wait (07 R145; 22 R376): `before` are
the operations ahead of it. -/
def State.tilePinned (s : State) (c : Cluster) (o : MatOp) (zd : Nat) (before : List MatOp) : Bool :=
  let tid := (s.grp o.gid).tid
  let onTile (q : MatOp) : Bool := (s.grp q.gid).tid == tid && q.tile? == some zd
  (s.groups.any fun e => match e.2.seq.stopped with | some q => onTile q | none => false) ||
  (match c.running with | some q => onTile q | none => false) ||
  c.ops.any fun q => onTile q && (q.pinned || s.heldBack c q) && (q.gid != o.gid || before.any fun b => b.id == q.id)

/-- The operation fills or releases bins. -/
def MatOp.fillsOrReleases (o : MatOp) : Bool := o.isRelease || match o.kind with | .fill _ _ => true | _ => false

/-- Two operations share a bin, and one of them writes it: the later issued waits for the other (07 R145; 08 R151, R155). One held behind a stop does
not count as accepted, and lets fills and releases go first (22 R376); what reads a released bin still waits for its zeros (07 R135; 08 R155). -/
def State.binsMeet (s : State) (c : Cluster) (q o : MatOp) : Bool :=
  (if s.heldBack c q then q.isRelease && !o.fillsOrReleases else q.writesBins || o.writesBins) && (s.opBins q).any fun b => (s.opBins o).contains b

/-- An operation may be taken now: no operation issued before it, of any agent, holds a bin that it needs, and the tile of an accumulator
operation stands under no stopped one (07 R145; 08 R151, R155; 22 R376). -/
def State.opReady (s : State) (c : Cluster) (before : List MatOp) (o : MatOp) : Bool :=
  let free := !(before.any fun q => s.binsMeet c q o)
  match o.kind with
  | .release _ _ => free
  | .mma _ _ _ _ _ => free
  | .fill _ _ => free
  | .zst _ zd _ => free && !s.tilePinned c o zd before
  | .zld zd _ => free && !s.tilePinned c o zd before
  | .zclr zd => !s.tilePinned c o zd before

/-- The head operation of each agent that may be taken, in issue order (07 R133): issued work goes on while its agent is held or frozen (16
R325; 17 R332), and in a stop what its context issues there (22 R376). -/
def State.readyHeads (s : State) (c : Cluster) : List MatOp → List MatOp → List MatOp
  | _, [] => []
  | before, o :: os =>
    let first := !(before.any fun q => q.gid == o.gid && !s.heldBack c q)
    let r := s.readyHeads c (before ++ [o]) os
    if first && !s.heldBack c o && s.opReady c before o then o :: r else r

/-- The operation that the array takes next: round-robin over the agents, by ascending group number from the one last served (07 R133). -/
def State.nextOp (s : State) (cl : Nat) : Option MatOp :=
  let c := s.cluster cl
  let hs := s.readyHeads c [] c.ops
  let pick (l : List MatOp) : Option MatOp := match minOf (l.map (·.gid)) with | some g => l.find? fun o => o.gid == g | none => none
  match pick (hs.filter fun o => decide (c.lastServed < o.gid)) with
  | some o => some o
  | none => pick hs

/-- Operations of a cluster that have been issued and not completed. -/
def State.openOps (s : State) (cl : Nat) : List MatOp :=
  let c := s.cluster cl
  c.ops ++ c.running.toList ++ s.groups.filterMap fun e => if e.2.kind = .sequencer ∧ e.2.place = cl then e.2.seq.stopped else none

/-- The operations of an agent that have been issued and not completed. -/
def State.agentOps (s : State) (gid : Nat) : List MatOp := (s.openOps (s.grp gid).cluster).filter fun o => o.gid == gid

/-- Operations on a context's held list (07 Table 7.1). -/
def State.heldOps (s : State) (gid : Nat) : List MatOp := (s.cluster (s.grp gid).cluster).ops.filter fun o => o.gid == gid

/-- An operation is complete: it leaves the array and the agent's TL (02 R43). -/
def State.opDone (s : State) (o : MatOp) : State := s.setG o.gid fun g => g.oneDone o.ret

/-- The cluster without an operation that it held. -/
def Cluster.without (c : Cluster) (o : MatOp) : Cluster := { c with ops := c.ops.filter fun q => q.id != o.id }

/-! ### Stops (07 R148, R150; 08 R159) -/

/-- DETAIL of a stop (07 R148). -/
def stopDetail (zd d row col : Nat) (nothing : Bool) (w : Option (Nat × Nat)) : Nat :=
  row + 256 * col + 2 ^ 16 * d + 2 ^ 21 * zd + 2 ^ 27 * b2n nothing +
    (match w with | some (x, n) => 2 ^ 24 * n + 2 ^ 32 * x | none => 0)

/-- The trap code of a stop. -/
def MStop.code (p : MStop) : Nat := if p.word.isSome then tMMETA else tPOISON

/-- A running operation stops (07 R150; 08 R159): a context's operation stands at its counters; a group's ends, and the group's later matrix
operations are discarded. -/
def State.opStops (s : State) (cl : Nat) (o : MatOp) (k : MmaOp) (p : MStop) : State :=
  let s := s.setCl cl fun c => { c with running := none }
  let nothing := o.dep = 0 && p.row = 0 && p.col = 0
  if (s.grp o.gid).kind = .sequencer then
    s.setG o.gid fun g => { g with seq := { g.seq with
      stopped := some { o with row := p.row, col := p.col, pinned := true }, stopMark := s.nextId,
      due := some (p.code, stopDetail k.zd o.dep p.row p.col nothing p.word, o.pc.toNat) } }
  else
    let later := (s.cluster cl).ops.filter fun q => q.gid == o.gid && q.isMma
    let s := s.setCl cl fun c => { c with ops := c.ops.filter fun q => !(q.gid == o.gid && q.isMma) }
    let s := later.foldl State.opDone (s.opDone o)
    s.setG o.gid fun g => { g with poisonDue := some (stopDetail k.zd o.dep p.row p.col false p.word, o.pc.toNat) }

/-- One sum unit of the running operation (07 R146, R147). -/
def State.sumUnit (s : State) (cl : Nat) (o : MatOp) (k : MmaOp) : State :=
  let tid := (s.grp o.gid).tid
  let slot := sliceAt (s.grid (s.team tid).grid).slots (64 * k.slot) 64
  let m := mshape slot
  let c := s.cluster cl
  let lo := 128 * o.row + o.col
  let late := (Config.freeValue s.fresh).toNat % 2 == 1
  let s := { s with fresh := s.fresh + 1 }
  match firstStopOf late ((s.team tid).zStops k o.dep o.row o.col ++ c.stopsAt m k o.dep o.row o.col ((s.grp o.gid).kind == .sequencer)) with
  | some p =>
    (s.setT tid fun t => t.zput k.zd (unitRows t c slot k o.dep lo (128 * p.row + p.col))).opStops cl o k p
  | none =>
    let s := s.setT tid fun t =>
      let t := (t.zput k.zd (unitRows t c slot k o.dep lo 16384)).zcommit k.zd
      { t with zSteps := tmod 0 t.zSteps k.zd (· + 1) }
    if o.dep + 1 < m.units then
      s.setCl cl fun c => { c with running := some { o with dep := o.dep + 1, row := 0, col := 0 } }
    else (s.setCl cl fun c => { c with running := none }).opDone o

/-! ### Taking an operation (07 R145, R146; 08 R155, R160) -/

/-- The F32 element narrowed by ZST (08 R160): RNE, denormals kept, a canonical NaN. -/
def zstNarrow (f : Fmt) (w : Word) : Nat := (convert fpAway .rne .f32 (if f = fBF16 then .bf16 else .f16) w.toNat).1

/-- The bytes of a ZST: bin, offset, data (08 R160). -/
def zstPieces (t : Team) (m zd bin : Nat) : List (Nat × Nat × List Byte) :=
  (List.range 128).map fun i =>
    let row := t.zrow zd i
    match m with
    | 0 => (bin + i / 64, 512 * (i % 64), row.flatMap fun w => leBytes 4 w.toNat)
    | 1 => (bin, 256 * i, row.flatMap fun w => leBytes 2 (zstNarrow fBF16 w))
    | _ => (bin, 256 * i, row.flatMap fun w => leBytes 2 (zstNarrow fF16 w))

/-- The 64-bit bin words that a ZST writes from poisoned accumulator words (08 R160; 17 R344). -/
def zstBad (t : Team) (m zd bin : Nat) : List Nat :=
  t.zBad.filterMap fun w =>
    let i := w / 64 % 128
    if w / 8192 ≠ zd then none
    else if m = 0 then some (((bin + i / 64) * 32768 + 512 * (i % 64) + 8 * (w % 64)) / 8)
    else some ((bin * 32768 + 256 * i + 4 * (w % 64)) / 8)

/-- The rows that ZLD reads (08 R160). -/
def zldRows (c : Cluster) (bin : Nat) : List (Nat × List Word) :=
  (List.range 128).map fun i =>
    let bs := c.binRead (bin + i / 64) (512 * (i % 64)) 512
    (i, (List.range 128).map fun j => w32 (fieldAt bs (4 * j) 4))

/-- A row of the m = 0 layout that carries poison (08 R160). -/
def zldBad (c : Cluster) (bin : Nat) : Option Nat := (List.range 128).find? fun i => c.binBad (bin + i / 64) (512 * (i % 64)) 512

/-- POISON for an accumulator row (02 R44). -/
def zPoisonDetail (zd row : Nat) : Nat := row + 256 * 3 + 2 ^ 32 * zd

/-- The array takes an operation: a matrix operation begins, any other acts at once (07 R145; 08 R155, R160). -/
def State.takeOp (s : State) (cl : Nat) (o : MatOp) : State :=
  let tid := (s.grp o.gid).tid
  let s := s.setCl cl fun c => { c.without o with lastServed := o.gid }
  match o.kind with
  | .mma minor _ _ _ zd =>
    let s := s.setCl cl fun c => { c with running := some o }
    if minorZ minor && o.dep = 0 then s.setT tid fun t => t.zreset zd else s
  | .fill b ps => (s.setCl cl fun c => ps.foldl (fun c p => c.binWrite b p.1 p.2) c).opDone o
  | .release f k => (s.setCl cl fun c => c.binZero f k).opDone o
  | .zst m zd b =>
    (s.setCl cl fun c =>
      let c := (zstPieces (s.team tid) m zd b).foldl (fun c p => c.binWrite p.1 p.2.1 p.2.2) c
      { c with binPoison := c.binPoison ++ zstBad (s.team tid) m zd b }).opDone o
  | .zclr zd => (s.setT tid fun t => { (t.zreset zd) with z := t.z.filter fun e => e.1 / 128 != zd }).opDone o
  | .zld zd b =>
    match zldBad (s.cluster cl) b with
    | some row =>
      let d := zPoisonDetail zd row
      let s := s.opDone o
      if (s.grp o.gid).kind = .sequencer then s.setG o.gid fun g => { g with seq := { g.seq with due := some (tPOISON, d, 0) } }
      else s.setG o.gid fun g => { g with poisonDue := some (d, 0) }
    | none => (s.setT tid fun t => ((t.zput zd (zldRows (s.cluster cl) b)).zreset zd).zcommit zd).opDone o

/-- MATRIX_OP_ACCEPT: an idle array takes the next waiting operation, unless that is a release (07 R133). -/
def execMatrixOpAccept (cluster : Nat) (s : State) : Out :=
  if 128 ≤ cluster then .next s
  else
    match (s.cluster cluster).running, s.nextOp cluster with
    | none, some o => .next (if o.isRelease then s else s.takeOp cluster o)
    | none, none => .next s
    | some _, _ => .next s

/-- BIN_ZEROING: an idle array whose next operation is a release writes its bins with zeros (08 R155). -/
def execBinZeroing (cluster : Nat) (s : State) : Out :=
  if 128 ≤ cluster then .next s
  else
    match (s.cluster cluster).running, s.nextOp cluster with
    | none, some o => .next (if o.isRelease then s.takeOp cluster o else s)
    | none, none => .next s
    | some _, _ => .next s

/-- MATRIX_SUM_UNIT: the running operation completes one sum unit, or stops in it (07 R146, R147). -/
def execMatrixSumUnit (cluster : Nat) (s : State) : Out :=
  if 128 ≤ cluster then .next s
  else
    match (s.cluster cluster).running with
    | some o => .next (match o.kind.mma? with | some k => s.sumUnit cluster o k | none => s)
    | none => .next s

/-- The fibres at a group's lowest PC, whose instruction is its first not issued (08 R159; 13 R264): in a group that has diverged, those of the lowest
PC take the trap (DEDUCED, log 120). -/
def State.nextBatch (s : State) (gid : Nat) : Nat × Dword :=
  let g := s.grp gid
  let ls := g.liveLanes
  match minOf (ls.map fun l => (g.fib l).pc.toNat) with
  | some pc => (maskOf (ls.filter fun l => (g.fib l).pc.toNat = pc), BitVec.ofNat 64 pc)
  | none => (0, 0)

/-- A trap of the array reaches its agent: the agent issues nothing just now, is not held, and its team is on the cluster (07 R150; 08 R159). -/
def State.trapReaches (s : State) (gid : Nat) : Bool :=
  s.cur.gid != gid && !s.stopped gid && (s.team (s.grp gid).tid).phase == .resident

/-- SEQUENCER_STOP_TRAP: the context takes the trap of its stopped operation at its boundary (07 R150). -/
def execSequencerStopTrap (gid : Nat) (s : State) : Out :=
  match (s.grp gid).seq.due with
  | some (code, detail, addr) =>
    if !s.trapReaches gid then .next s
    else
      let (m, pc) := s.nextBatch gid
      let s := s.setG gid fun g => { g with seq := { g.seq with due := none } }
      .next (s.trapAt gid { gid := gid, mask := m, pc := pc, npc := pc } { code := code, detail := detail, addr := addr })
  | none => .next s

/-- MATRIX_POISON_TRAP: the group takes POISON at its next instruction boundary, once a fibre of it is at home (08 R159). -/
def execMatrixPoisonTrap (gid : Nat) (s : State) : Out :=
  match (s.grp gid).poisonDue with
  | some (detail, addr) =>
    let (m, pc) := s.nextBatch gid
    if !s.trapReaches gid || m = 0 then .next s
    else
      let s := s.setG gid fun g => { g with poisonDue := none }
      .next (s.trapAt gid { gid := gid, mask := m, pc := pc, npc := pc } { code := tPOISON, detail := detail, addr := addr })
  | none => .next s

end Sys2Proof.Machine
end

