-- ==== Sys2Proof/Machine/Serve.lean ====
section
/-! DEFINITION. The owning module's side of the fabric: keys, ranges, translation and the performance of an arriving request; pegboard
subscriptions of both sides (10 R190, R193; 11 R224; 12 R244, R247, R249, R252, R253, R255). -/
namespace Sys2Proof.Machine

/-! ### Pegboards (11 R224) -/

/-- The home slice of a device address, numbered across the module (01 R15). -/
def homeSlice (pa : Nat) : Nat := 48 * dieOfPa pa + 24 * (stackOf pa % 2) + pa % 2 ^ 36 / 256 % 24

/-- Pegboard entries that a slice uses: one for each seven subscribers of a word (11 R224). -/
def State.pegEntries (s : State) (slice : Nat) : Nat :=
  let words := distinct ((s.pegs.filter fun p => homeSlice p.pa == slice).map (·.pa))
  words.foldl (fun n w => n + ((s.pegs.filter fun p => p.pa == w).length + 6) / 7) 0

/-- A word takes one more subscriber (11 R224): fewer than 4,096, and an entry with room or a free one of the slice's 1,024. -/
def State.pegRoom (s : State) (pa : Nat) : Bool :=
  let n := (s.pegs.filter fun p => p.pa == pa).length
  decide (n < 4096) && (n % 7 != 0 || decide (s.pegEntries (homeSlice pa) < 1024))

/-- A subscription registered at one point of the coherence order (10 R190). -/
def State.pegAdd (s : State) (p : Peg) : State := { s with pegs := s.pegs ++ [p] }

/-! ### Whose request it is (12 R244) -/

/-- The context whose key a request carries. -/
def State.keyCtx (s : State) (ckey : Nat) : Option Nat :=
  if ckey = 0 then none else (List.range 64).find? fun c => (s.ctx c).phase != .free && (s.ctx c).skey == ckey

/-- A byte lies in one of the context's permitted ranges (16 Table 16.1). -/
def Ctx.permitsByte (c : Ctx) (loc : Nat) : Bool :=
  [0, 1, 2, 3].any fun k =>
    let b := c.fld (0x60 + 16 * k) 8 % 2 ^ 45
    let l := c.fld (0x68 + 16 * k) 8
    l != 0 && decide (b ≤ loc ∧ loc < b + l)

/-- The die whose gateway carries a port (01 R18). -/
def dieOfPort (p : Nat) : Nat := p / 4

/-- WHO of a die's gateway (17 Table 17.2). -/
def gatewayWho (die : Nat) : Nat := 65536 * die + 2 ^ 19 * 3

/-- How an arriving request ends: an answer (OP, AUX, payload), or a stall: on MOVING, or at a link that is down or a line that a copy engine
owns. -/
inductive Served where
  | answer (op aux : Nat) (data : List Byte)
  | stall (moving : Bool)
  deriving DecidableEq, Repr

/-- Consecutive offsets. -/
def spanOf (off n : Nat) : List Nat := (List.range n).map (· + off)

/-- A request refused. -/
def refuseReq (op : Nat) : Served := .answer op 0 []

/-- The home of a request's bytes cannot be reached yet from a gateway's die: a link is down, or a copy engine owns a line (10 R187; 17 R344). -/
def State.serveHeld (s : State) (die : Nat) (t : Target) (n : Nat) : Bool :=
  s.cutTo die t || (match t with | .dev pa _ => s.recalls pa n | _ => false)

/-- Where an arriving request's bytes lie, checked and translated in its context (12 R244, R247, R249; 16 R315, R316); otherwise its answer. Of the n
bytes from offset `off` of the line it touches those at the offsets `at_`, each of which must be permitted. -/
def State.servePlace (s : State) (p : Packet) (off n : Nat) (at_ : List Nat) (acc : Acc) (since : Nat) : Except (Served × State) (Nat × Target × Nat) :=
  let va := p.va.toNat / 256 * 256 + off
  if s.nodeid = 0x7FFFF then .error (refuseReq 7, s)
  else
    match s.keyCtx p.ckey with
    | none => .error (refuseReq 6, s)
    | some c =>
      if !at_.all fun i => (s.ctx c).permitsByte ((p.va.toNat / 256 * 256 + i) % 2 ^ 45) then .error (refuseReq 6, s)
      else if (s.ctx c).phase != .active then .error (refuseReq 4, s)
      else
        let die := dieOfPort p.port
        let lost (code reason level : Nat) : Served × State :=
          (refuseReq code, s.postLoose die (faultBytes 5 code c false (gatewayWho die) 0 p.va.toNat (reason + 256 * level)))
        match s.xlateSince die c va acc true since with
        | .ok t e => if s.serveHeld die t n then .error (.stall false, s) else .ok (c, t, e)
        | .moving _ => .error (.stall true, s)
        | .replay 1 l => .error (lost 1 1 l)
        | .replay r l => .error (lost 2 r l)
        | .prot true => .error (refuseReq 6, s)
        | .prot false => .error (refuseReq 3, s)

/-- The die's TLB after a request was served (16 R317). -/
def State.serveNote (s : State) (p : Packet) (c : Nat) : State := s.tlbFill (dieOfPort p.port) c p.va.toNat

/-- READ (12 R247). -/
def State.serveRead (s : State) (p : Packet) (since : Nat) : Served × State :=
  let off := p.va.toNat % 256
  let n := min p.aux.toNat (256 - off)
  match s.servePlace p off n (spanOf off n) .read since with
  | .error r => r
  | .ok (c, t, _) =>
    let s := s.serveNote p c
    match t with
    | .dev pa _ => if s.homePoison pa n then (refuseReq 5, s) else (.answer 0 0 (s.homeRead pa n), s)
    | .host pa => if s.hostBad pa n then (refuseReq 5, s) else (.answer 0 0 (s.hostRead pa n), s)
    | _ => (refuseReq 7, s)

/-- The bytes of a line that a write's mask names: offset and value. -/
def maskedBytes (payload : List Byte) : List (Nat × Byte) :=
  let m := leNat (payload.take 32)
  (List.range 256).filterMap fun i => if bitOf m i then some (i, (payload.drop (32 + i)).headD 0) else none

/-- A write of part of a poisoned sector (17 R344). -/
def partPoison (poison : List Nat) (cs : List Host.Cell) : Bool :=
  poison.any fun q => (cs.any fun c => c.1 / 64 == q) && !coversSector cs q

/-- The sectors that a WRITE whose payload is poisoned leaves as poison: of those that it writes, the ones that AUX names by their place in the line, or all
where AUX names none (12 Table 12.1; the layout is a DESIGN CHOICE, log 126). -/
def poisonedOf (p : Packet) (cs : List Host.Cell) : List Nat :=
  if bitOf p.flags 2 then
    (distinct (cs.map (·.1 / 64))).filter fun q => p.aux.toNat % 16 == 0 || bitOf p.aux.toNat (q % 4)
  else []

/-- WRITE of one line under its mask as one event (12 R247); it is refused where it meets poison that it would not clear (12 R249). -/
def State.serveWrite (s : State) (p : Packet) (since : Nat) : Served × State :=
  let ws := maskedBytes p.payload
  let lo := ((ws.map (·.1)).head?).getD 0
  let n := ((ws.map (·.1)).getLast?).getD 0 + 1 - lo
  match s.servePlace p lo n (ws.map (·.1)) .write since with
  | .error r => r
  | .ok (c, t, _) =>
    let s := s.serveNote p c
    match t with
    | .dev pa pol =>
      let cs := ws.map fun w => (pa + w.1 - lo, w.2)
      if partPoison s.poison cs then (refuseReq 5, s)
      else
        (.answer 0 0 [], (s.homeCells pol cs).poisonSectors (poisonedOf p cs))
    | .host pa =>
      let cs := ws.map fun w => (pa + w.1 - lo, w.2)
      if partPoison s.hostPoison cs then (refuseReq 5, s)
      else let s := s.hostCells cs; (.answer 0 0 [], { s with hostPoison := (poisonedOf p cs).foldl withSector s.hostPoison })
    | _ => (refuseReq 7, s)

/-- The atomic an OP code names (11 R218; log 14). -/
def atomOfCode (n : Nat) : Option AtomOp :=
  [AtomOp.add, .minI, .maxI, .minN, .maxN, .and, .or, .xor, .xchg, .cas, .faddF32, .fmaxF32, .faddBf16x2, .incw, .decw, .fmaxabsF32].find?
    fun o => atomCode o == n

/-- One word's atomic at its home: the old value, and whether it met poison (11 R218 to R220). -/
def State.serveAtom (s : State) (t : Target) (n : Nat) (op : AtomOp) (v v2 : Nat) : Nat × Bool × State :=
  match t with
  | .dev pa pol => s.homeAtomic pol pa n op v v2
  | .host pa => s.hostAtomic pa n op v v2
  | _ => (0, false, s)

/-- ATOMIC (11 R219; 12 R247): the answer carries the old value unless the request is no-return. -/
def State.serveAtomic (s : State) (p : Packet) (since : Nat) : Served × State :=
  let n := if p.aux = 8 then 8 else 4
  match s.servePlace p (p.va.toNat % 256) n (spanOf (p.va.toNat % 256) n) .write since, atomOfCode p.op with
  | .error r, _ => r
  | .ok _, none => (refuseReq 6, s)
  | .ok (c, t, _), some op =>
    let (old, pois, s) := (s.serveNote p c).serveAtom t n op (fieldAt p.payload 0 n) (fieldAt p.payload n n)
    if pois then (refuseReq 5, s) else (.answer 0 0 (if bitOf p.flags 1 then [] else leBytes n old), s)

/-- Elements of a REDUCE applied in order (12 R255): each is its offset in the line, a value and a second value. -/
def State.reduceAll (s : State) (base : Target) (n : Nat) (op : AtomOp) : Nat → List Byte → List Byte × Bool × State
  | 0, _ => ([], false, s)
  | k + 1, b =>
    if b.length < 1 + 2 * n then ([], false, s)
    else
      let off := fieldAt b 0 1
      let t := match base with | .dev pa pol => .dev (pa / 256 * 256 + off) pol | .host pa => .host (pa / 256 * 256 + off) | t => t
      let (old, pois, s) := s.serveAtom t n op (fieldAt b 1 n) (fieldAt b (1 + n) n)
      let (r, pois', s) := s.reduceAll base n op k (b.drop (1 + 2 * n))
      (leBytes n old ++ r, pois || pois', s)

/-- REDUCE (12 R255): the stack's reduction path applies the elements in ascending lane order. -/
def State.serveReduce (s : State) (p : Packet) (since : Nat) : Served × State :=
  let n := if p.aux = 8 then 8 else 4
  let offs := (List.range (p.payload.length / (1 + 2 * n))).map fun k => fieldAt p.payload ((1 + 2 * n) * k) 1
  let lo := (minOf offs).getD 0
  match s.servePlace p lo (offs.foldl max lo + n - lo) (offs.flatMap fun o => spanOf o n) .write since, atomOfCode p.op with
  | .error r, _ => r
  | .ok _, none => (refuseReq 6, s)
  | .ok (c, t, _), some op =>
    let (old, pois, s) := (s.serveNote p c).reduceAll t n op 64 p.payload
    if pois then (refuseReq 5, s) else (.answer 0 0 (if bitOf p.flags 1 then [] else old), s)

/-- SUB (12 R252): registered with the word's value, or refused under 11 R224. -/
def State.serveSub (s : State) (p : Packet) (since : Nat) : Served × State :=
  match s.servePlace p (p.va.toNat % 256) 8 (spanOf (p.va.toNat % 256) 8) .read since with
  | .error r => r
  | .ok (c, t, e) =>
    let s := s.serveNote p c
    match t with
    | .dev pa _ =>
      if pteBit e 10 || !s.pegRoom pa then (.answer 0 0 [], s)
      else
        (.answer 0 1 (s.homeRead pa 8),
         s.pegAdd { pa := pa, va := p.va.toNat, node := p.src % 2 ^ 19, tag := p.aux.toNat % 65536, remote := true, ctx := c })
    | _ => (.answer 0 0 [], s)

/-- An answer leaves by the gateway and port at which the request arrived (12 R247); a port that no longer sends carries none (12 R245; 16 R330). -/
def State.answer (s : State) (p : Packet) (kind op aux : Nat) (data : List Byte) : State :=
  if !s.portLive p.port then s else
  s.emit { kind := kind, src := s.srcField (dieOfPort p.port), ckey := p.ckey, tag := p.tag, op := op, va := p.va, aux := BitVec.ofNat 64 aux,
           dest := p.src % 2 ^ 19, port := p.port, payload := data }

/-- PUSHEND, or its keeping where no route is live (12 R252, R253). -/
def State.sendPushEnd (s : State) (g : Peg) : State :=
  match s.portFrom (dieOfPa g.pa) g.ctx g.node g.va with
  | (some port, s) =>
    s.emit { kind := 9, src := s.srcField (dieOfPa g.pa), ckey := (s.ctx g.ctx).skey, dest := g.node, port := port, va := BitVec.ofNat 64 g.va,
             aux := BitVec.ofNat 64 (g.tag + 2 ^ 32 * (g.count % 2 ^ 32)) }
  | (none, s) => { s with pushes := s.pushes ++
                [{ q := g.count, remote := true, node := g.node, tag := g.tag, va := g.va, ctx := g.ctx, ended := true, sentAt := s.now,
                   die := dieOfPa g.pa }] }

/-- UNSUB at its home (12 R244, R247, R253): checked and translated like any request. -/
def State.serveUnsub (s : State) (p : Packet) (since : Nat) : Served × State :=
  match s.servePlace p (p.va.toNat % 256) 8 (spanOf (p.va.toNat % 256) 8) .read since with
  | .error r => r
  | .ok (c, _, _) => (.answer 0 0 [], s.serveNote p c)

/-- The subscription that an UNSUB names is removed, and PUSHEND sent with the count of the last write before (12 R253). -/
def State.unsubbed (s : State) (p : Packet) : State :=
  let c := (s.keyCtx p.ckey).getD 0
  let mine (g : Peg) : Bool := g.remote && g.ctx == c && g.node == p.src % 2 ^ 19 && g.va == p.va.toNat && g.tag == p.aux.toNat % 65536
  let g := (s.pegs.find? mine).getD { pa := 0, va := p.va.toNat, node := p.src % 2 ^ 19, tag := p.aux.toNat % 65536, remote := true, ctx := c }
  State.sendPushEnd { s with pegs := s.pegs.filter fun g => !mine g } g

/-- An arriving request served: READ, WRITE and MCAST, ATOMIC, REDUCE, SUB, UNSUB (12 R247). -/
def State.serveKind (s : State) (p : Packet) (since : Nat) : Served × State :=
  if p.kind = 1 then s.serveRead p since
  else if p.kind = 2 then s.serveWrite p since
  else if p.kind = 3 then s.serveAtomic p since
  else if p.kind = 4 then s.serveReduce p since
  else if p.kind = 5 then s.serveWrite { p with payload := leBytes 32 (2 ^ 256 - 1) ++ p.payload.take 256 } since
  else if p.kind = 7 then s.serveUnsub p since
  else s.serveSub p since

end Sys2Proof.Machine
end

