-- ==== Sys2Proof/Machine/Order.lean ====
section
/-! DEFINITION. Larder-window write-back, and the ordering, watch and multicast instructions (09 R166; 10 R182, R190 to R193, R196; 11 R221 to
R230; 12 R250, R251; 21 R370). -/
namespace Sys2Proof.Machine

/-! ### Window write-back (09 R166) -/

/-- Maximal runs of consecutive numbers of an ascending list: start and length. -/
def runsOf : List Nat → List (Nat × Nat)
  | [] => []
  | a :: l =>
    match runsOf l with
    | (b, n) :: rs => if b = a + 1 then (a, n + 1) :: rs else (a, 1) :: (b, n) :: rs
    | [] => [(a, 1)]

/-- A window's mask cleared for a line. -/
def Team.cleanLine (t : Team) (k line : Nat) : Team :=
  let w := tget {} t.lmap k
  { t with lmap := tput t.lmap k { w with dirty := w.dirty.filter fun o => o / 256 != line } }

/-- One line's masked bytes written back as plain stores of the issuing core, its mask cleared. Bytes refused by permission are discarded with a
record; a line that cannot be translated, or whose place cannot be reached yet, keeps its mask and stops the write-back. -/
def State.lineBack (s : State) (k line : Nat) : State × Option Stop :=
  let gid := s.cur.gid
  let w := tget {} s.tm.lmap k
  let offs := ((List.range 256).map (· + 256 * line)).filter w.dirty.contains
  let va := w.lineAddr line
  let clean (s : State) := s.modT fun t => t.cleanLine k line
  if offs.isEmpty then (s, none)
  else
    match s.locate s.lane0 va 256 .write with
    | .ok x =>
      let op (t : Target) (v : Nat) (bs : List Byte) : StoreOp := { ret := 0, lane := 0, tgt := t, va := v, act := .bytes bs }
      if !s.placeOpen gid (op x.tgt va (List.replicate 256 0)) then (s, some (.block (.reach x.tgt false)))
      else
        (clean ((runsOf offs).foldl (fun s r =>
          let bs := s.tm.lread r.1 r.2
          s.performBytes gid (op (x.tgt.plus (r.1 % 256)) (va + r.1 % 256) bs) bs) s), none)
    | .error (.trap t) =>
      let s := clean (s.lostWrite gid 3 va (256 * 7 + 65536 * b2n t.freezes))
      (if t.freezes then s.freezeCtx s.g.die s.g.ctx 3 0 s.g.who s.cur.pc.toNat va t.detail gid else s, none)
    | .error e => (s, some e)

/-- Lines written back in order until one stops. -/
def State.linesBack (s : State) (k : Nat) : List Nat → State × Option Stop
  | [] => (s, none)
  | l :: ls =>
    match s.lineBack k l with
    | (s, some e) => (s, some e)
    | (s, none) => s.linesBack k ls

/-- The larder lines of a window that hold masked bytes. -/
def LWindow.dirtyLines (w : LWindow) : List Nat := if w.wb then distinct (w.dirty.map (· / 256)) else []

/-- The masked lines of a window whose global address passes a test, written back to where the window was mapped (09 R166); of a read-only window
nothing is (09 R164). -/
def State.windowBack (s : State) (k : Nat) (p : Nat → Bool) : State × Option Stop :=
  let w := tget {} s.tm.lmap k
  if w.len = 0 then (s, none) else s.linesBack k (w.dirtyLines.filter fun l => p (w.lineAddr l))

/-- Windows 0 to 3 written back in order until one stops. -/
def State.windowsBack (s : State) (p : Nat → Bool) : List Nat → State × Option Stop
  | [] => (s, none)
  | k :: ks =>
    match s.windowBack k p with
    | (s, some e) => (s, some e)
    | (s, none) => s.windowsBack p ks

/-! ### The end of a stall (11 R206) -/

/-- The Return that a request's lanes belong to. -/
def ReqUse.ret? : ReqUse → Option Nat
  | .load r _ _ _ => some r
  | .row r _ _ => some r
  | .atom r _ _ _ _ => some r
  | .reduce r _ _ _ => some r
  | .drain _ => none
  | .mcst _ _ _ _ => none
  | .sub r _ _ _ => some r
  | .unsub _ _ => none
  | .fill _ _ _ _ => none
  | .crate _ => none
  | .copyRead _ _ => none
  | .copyWrite _ _ => none
  | .parkRead _ _ _ => none

/-- The negative answer of the lowest lane. -/
def lowestNeg : List (Nat × Nat × Nat) → Option (Nat × Nat × Nat)
  | [] => none
  | x :: xs => match lowestNeg xs with | some y => if y.1 < x.1 then some y else some x | none => some x

/-- The trap of a negative answer (11 Table 11.2; 12 R249): PROT with cause 7, or 4 for a frozen context; POISON that names a tile row. -/
def Return.negTrap (r : Return) (x : Nat × Nat × Nat) : Trap :=
  if x.2.1 = 5 then
    { code := tPOISON, addr := x.2.2,
      detail := match r.regs.head? with | some q => x.1 + 256 * q.cls + 2 ^ 32 * q.idx | none => x.1 }
  else { code := tPROT, detail := x.1 + 256 * (if x.2.1 = 4 then 4 else 7), addr := x.2.2 }

/-- A Return given up: its counter falls and its registers are no longer pending. -/
def Group.giveUp (g : Group) (id : Nat) : Group := (g.setRet id fun r => { r with lanes := [], left := 0 }).settle id

/-- The batch of an issue stands at its instruction again, with what it waits for since when. -/
def Group.backTo (g : Group) (i : Issue) (w : Wait) (now : Nat) : Group :=
  g.forLanes (g.lanes i.mask) fun g l =>
    if (g.fib l).life = .live then g.setF l fun f => { f with pc := i.pc, wait := w, waitSince := now } else g

/-- A Return whose lanes were performed one by one, so that a replay may perform none of them twice: of an atomic or a WATCH. -/
def Return.lanewise (r : Return) : Bool := r.kind == .atomic || r.kind == .watch

/-- The replay of an instruction that another module answered NOMAP or NONRES: its batch stands at it again, all of a load's or a tile's; of an atomic and
a WATCH, whose other lanes have been performed and keep what they returned, the refused lanes (11 R206; 12 R249; DEDUCED, log 111). -/
def Group.replays (g : Group) (r : Return) (now : Nat) : Group :=
  if r.lanewise then
    let out := r.neg.map (·.1)
    let g := (r.lanes.filter fun x => !out.contains x.lane).foldl (fun g x => g.landLane r.id x.lane x.ws) g
    (g.giveUp r.id).backTo { r.issue with mask := maskOf (out.eraseDups) } .resend now
  else (g.giveUp r.id).backTo r.issue .resend now

/-- Once every lane of an instruction is answered or performed its stall is over. A negative answer that calls for a trap is taken at the instruction,
with no register written; one that calls for a replay makes the group replayable at it: it issues again after 4 µs (11 R206; 12 R249). -/
def State.stallOver (s : State) (gid ret : Nat) : State :=
  if (s.reqs.any fun q => q.gid == gid && q.use.ret? == some ret) || (s.grp gid).stores.any (·.ret == ret) then s
  else
    match (s.grp gid).ret? ret with
    | none => s
    | some r =>
      match lowestNeg r.neg with
      | none => s.setG gid fun g => g.setRet ret fun r => { r with stall := false }
      | some x =>
        if x.2.1 = 1 ∨ x.2.1 = 2 then s.setG gid fun g => g.replays r s.now
        else
          let s := s.setG gid fun g =>
            let g := (g.giveUp ret).backTo r.issue .none s.now
            if r.kind = .qnt then g.oneDone (ret + 1) else g
          s.trapAt gid r.issue (r.negTrap x)

/-- An acquire whose value came from another module takes effect with the answer (10 R184; 11 R209, R219). -/
def State.acquireAt (s : State) (gid : Nat) (i : Issue) : State :=
  if (preOrder i.pre).acq && (preScope i.pre).beyond && (s.grp gid).hasL1 then s.l1Acquire (s.grp gid).place else s

/-- Lanes of a Return answered: values ready, and the stall over with the last. -/
def State.lanesReady (s : State) (gid ret : Nat) (i : Issue) (ws : List (Nat × List RegWrite)) : State :=
  ((s.setG gid fun g => ws.foldl (fun g w => g.ready ret w.1 w.2) g).acquireAt gid i).stallOver gid ret

/-- Lanes of a Return answered negatively, for a trap or a replay. -/
def State.lanesNeg (s : State) (gid ret : Nat) (xs : List (Nat × Nat × Nat)) : State :=
  (s.setG gid fun g => g.setRet ret fun r => { r with neg := r.neg ++ xs }).stallOver gid ret

/-- The record of a lane of a Return. -/
def State.laneRet (s : State) (gid ret lane : Nat) : LaneRet :=
  match (s.grp gid).ret? ret with
  | some r => (r.lanes.find? fun x => x.lane == lane).getD { lane := lane }
  | none => { lane := lane }

/-! ### Subscriptions (10 R190 to R193; 11 R223 to R225) -/

/-- The subscription of a slot. -/
def Team.sub? (t : Team) (slot : Nat) : Option Sub := t.subs.find? fun u => u.slot == slot

/-- Slots subscribed by the resident teams of a core, those asked of another module among them (11 R224). -/
def State.coreSubs (s : State) (core : Nat) : Nat :=
  s.teams.foldl (fun n e => if e.2.phase = .resident && e.2.core = core then n + (e.2.subs.filter fun u => u.live || u.remote).length else n) 0

/-- The first tag from `n` on, modulo 65,536, that no subscription of the word holds (12 R252). -/
def State.freeTag (s : State) (n va : Nat) : Nat :=
  let used := s.teams.flatMap fun e => (e.2.subs.filter fun u => u.remote && u.va == va).map (·.tag)
  (n + ((List.range 65536).find? fun t => !used.contains ((n + t) % 65536)).getD 0) % 65536

/-- A subscription registered: the slot starts with the word's value, sequence 0, overrun 0 and SEEN set (10 R190, R191). -/
def Team.startSub (t : Team) (u : Sub) (val : Nat) : Team :=
  let t := t.lwrite u.slot (leBytes 8 val ++ leBytes 8 0)
  { t with subs := (t.subs.filter fun w => w.slot != u.slot) ++ [{ u with live := true, seen := true }] }

/-- A live subscription's removal begins (10 R193): a local word's home removes it at once, another module is asked for a group. -/
def State.subRemove (s : State) (gid tid : Nat) (u : Sub) : State :=
  if u.remote then
    let t := s.team tid
    s.request { tag := 0, gid := gid, core := t.core, die := dieOfCore t.core, ctx := t.ctx, use := .unsub 0 u.slot,
                pkt := { kind := 7, va := BitVec.ofNat 64 u.va, aux := BitVec.ofNat 64 u.tag, payload := leBytes 4 tid ++ leBytes 4 u.slot } }
  else
    let mine (p : Peg) : Bool := !p.remote && p.tid == tid && p.slot == u.slot
    let q := ((s.pegs.find? mine).map (·.count)).getD 0
    let s := s.setT tid fun t => { t with subs := t.subs.map fun w => if w.slot = u.slot then { w with last := some q } else w }
    { s with pegs := s.pegs.filter fun p => !mine p }

/-- A subscription is registered; an UNWATCH that has waited for it removes it (10 R193). -/
def State.subStart (s : State) (gid tid slot val : Nat) : State :=
  match (s.team tid).sub? slot with
  | none => s
  | some u =>
    let s := s.setT tid fun t => t.startSub { u with heldPushes := [] } val
    if u.ending.isEmpty then s else s.subRemove gid tid u

/-- A subscription refused: its slot is free again, and an UNWATCH of it is over (11 R225). -/
def State.subDrop (s : State) (tid slot : Nat) : State :=
  match (s.team tid).sub? slot with
  | none => s
  | some u =>
    let s := s.setT tid fun t => { t with subs := t.subs.filter fun w => w.slot != slot }
    u.ending.foldl (fun s e => if e.1 = 0 then s else s.setG e.1 fun g => g.oneDone e.2) s

/-- One lane of WATCH at its word's home (11 R223, R224): its P register is ready, or another module is asked. -/
def State.performWatch (s : State) (gid : Nat) (o : StoreOp) (slot pidx pte : Nat) : State :=
  let g := s.grp gid
  let say (b : Bool) (s : State) : State := s.setG gid fun g => g.ready o.ret o.lane [.p o.lane pidx b]
  let refuse := say false (s.subDrop g.tid slot)
  if decide (512 ≤ s.coreSubs g.place) then refuse
  else
    match o.tgt with
    | .dev pa _ =>
      if pteBit pte 10 || !s.pegRoom pa then refuse
      else say true ((s.pegAdd { pa := pa, tid := g.tid, slot := slot, ctx := g.ctx }).subStart gid g.tid slot (s.homeField pa 8))
    | .remote va =>
      let (n, s) := s.newId
      let tag := s.freeTag n va
      let s := s.setT g.tid fun t => { t with subs := t.subs.map fun u => if u.slot = slot then { u with tag := tag, remote := true } else u }
      s.request { tag := 0, gid := gid, core := g.place, die := g.die, ctx := g.ctx, use := .sub o.ret o.lane slot pidx,
                  pkt := { kind := 6, va := BitVec.ofNat 64 va, aux := BitVec.ofNat 64 tag, payload := leBytes 4 g.tid ++ leBytes 4 slot } }
    | _ => refuse

/-! ### FLUSHR and INVR (11 R230) -/

/-- A 256-byte line overlaps a range of addresses (11 R230). -/
def lineMeets (base len va : Nat) : Bool := overlaps base len va 256

/-- A line of device memory lies in a range of a context's addresses: by the address that brought one of its bytes into the L1, or as the context's
translation stands; no fault is taken (11 R230). -/
def State.rangeLine (s : State) (core ctx base len line : Nat) : Bool :=
  ((s.core core).l1.any fun e => e.1 / 256 == line && e.2.ctx == ctx && lineMeets base len (e.2.va / 256 * 256)) ||
  ((List.range ((base + len - 1) / 65536 + 1 - base / 65536)).any fun k =>
    let page := 65536 * (base / 65536 + k)
    s.isLocal page &&
      match s.xlate (dieOfCore core) ctx page .read false (some core) with
      | .ok (.dev pa _) _ => decide (line / 256 = pa / 65536) && lineMeets base len (page + 256 * line % 65536)
      | _ => false)

/-- The head of a group's queue stalls on MOVING at a page: the stall counts from its first look at that page (16 R315). -/
def State.stallHead (s : State) (gid page : Nat) : State :=
  s.setG gid fun g =>
    match g.stores with
    | o :: os => if o.since ≠ 0 ∧ o.va = page then g else { g with stores := { o with since := s.now, va := page } :: os }
    | [] => g

/-- FLUSHR or INVR performed for the group that stands as the issuing one: the bool says that it is complete but for the drains it counts. A window
write-back whose page is not there makes its group replayable (09 R166). -/
def State.performFlush (s : State) (gid : Nat) (o : StoreOp) (base len : Nat) (inv : Bool) : Bool × State :=
  let core := s.g.place
  let ctx := s.g.ctx
  match (if inv then (s, none) else s.windowsBack (lineMeets base len) [0, 1, 2, 3]) with
  | (s, some (.replay a r l)) => (false, if s.g.hold.isSome then s else s.makeReplayable gid o.pc.toNat a r l)
  | (s, some (.block (.moving p))) =>
    let s := s.stallHead gid p
    match s.xlateSince s.g.die ctx (65536 * p) .write true (if o.va = p ∧ o.since ≠ 0 then o.since else s.now) (some core) with
    | .replay r l => (false, if s.g.hold.isSome then s else s.makeReplayable gid o.pc.toNat (65536 * p) r l)
    | _ => (false, s)
  | (s, some _) => (false, s)
  | (s, none) =>
    let lines := (s.core core).l1Lines.filter (s.rangeLine core ctx base len)
    let mine := fun (a : Nat) (_ : L1Byte) => lines.contains (a / 256)
    let s := s.l1Back core mine
    if s.l1Dirty core mine then (false, s)
    else
      let s := if inv then s.l1Drop core mine else s
      (true, s.drainCounted gid o.ret (if inv then [] else (s.core core).wc.filter fun w => w.ctx == ctx && lineMeets base len (256 * w.line)))

/-! ### MCST (11 R228, R229; 12 R250, R251; 21 R370) -/

/-- A group record of the context (12 R250; 16 R320): its 288 bytes, where the handle is in range and the record is the context's own. -/
def State.groupRecord (s : State) (ctx h : Nat) : Option (List Byte) :=
  let c := s.ctx ctx
  if c.fld 0x52 2 ≤ h then none
  else
    let r := s.homeRead (c.fld 0x38 8 + 320 * h) 288
    if fieldAt r 0 1 % 64 = ctx then some r else none

/-- Members in member order (12 R250). -/
def groupMembers (r : List Byte) : List Nat :=
  if fieldAt r 1 1 = 0 then (List.range (fieldAt r 2 2)).map fun i => fieldAt r (0x20 + 4 * i) 4 % 2 ^ 19
  else (bitsSet 512 (fieldAt r 0x20 64)).map (· + fieldAt r 4 4)

/-- The MCAST payload (21 R370). -/
def mcastPayload (line r : List Byte) : List Byte :=
  line ++ sliceAt r 1 1 ++ [0] ++ sliceAt r 2 6 ++ (if fieldAt r 1 1 = 0 then sliceAt r 0x20 (4 * fieldAt r 2 2) else sliceAt r 0x20 64)

/-- The acknowledgement (11 Table 11.3) of members with their answers in member order. -/
def ackBytes (rs : List (Nat × Nat)) : List Byte :=
  let neg := rs.filter fun r => r.2 != 0
  record [(4, rs.length - neg.length), (4, neg.length)] ++
    ((List.range 4).flatMap fun i => match neg[i]? with | some r => leBytes 4 (r.1 + 2 ^ 24 * r.2) | none => leBytes 4 0) ++
    record [(4, rs.length), (4, 0)]

/-- The acknowledgement written as one larder step, and ST falls (11 R228). -/
def State.mcstDone (s : State) (gid ret ack : Nat) (bytes : List Byte) : State :=
  (s.ownWrite (s.grp gid).tid ack bytes).setG gid fun g => g.oneDone ret

/-- The port an MCAST leaves by (21 R370). -/
def State.mcastPort (s : State) (die h : Nat) : Option Nat :=
  ([0, 1, 2, 3].map fun k => 4 * die + (h + k) % 4).find? s.portLive

/-- The issuing module's own answer as a member, written here; none where it is no member or its walk stalls (12 R251). -/
def State.mcastOwn (s : State) (p : Packet) (ms : List Nat) (since : Nat) : Option (Option Nat × State) :=
  let me := s.nodeid.toNat
  if ms.contains me then
    match s.serveKind { p with va := BitVec.ofNat 64 (me * 2 ^ 45 + p.va.toNat % 2 ^ 45) } since with
    | (.answer op _ _, s) => some (some op, s)
    | (.stall _, _) => none
  else some (none, s)

/-- The packet sent, or the members all unreachable (12 R241, R244; 21 R370); none while the issuing module's own walk stalls. -/
def State.multicast (s : State) (gid : Nat) (o : StoreOp) (h va ack : Nat) (line r : List Byte) (rel : Bool) : Option State :=
  let g := s.grp gid
  let ms := groupMembers r
  match (if s.nodeid = 0x7FFFF ∨ (s.ctx g.ctx).skey = 0 then none else s.mcastPort g.die h) with
  | none => some (s.mcstDone gid o.ret ack (ackBytes (ms.map fun m => (m, 7))))
  | some port =>
    let (n, s) := s.newTag
    let p : Packet := { kind := 5, flags := b2n rel, src := s.srcField g.die, ckey := (s.ctx g.ctx).skey, va := BitVec.ofNat 64 va,
                        aux := BitVec.ofNat 64 h, tag := n, port := port, payload := mcastPayload line r }
    match s.mcastOwn p ms (if o.since = 0 then s.now else o.since) with
    | none => none
    | some (own, s) =>
      let s := if own = some 6 then s.freezeCtx g.die g.ctx 4 2 g.who s.cur.pc.toNat va 6 else s
      let q : Req := { tag := n, pkt := p, use := .mcst o.ret ack ms own, gid := gid, core := g.place, die := g.die, ctx := g.ctx, sentAt := s.now,
                       ftmo := s.ftmo }
      some (State.emit { s with reqs := s.reqs ++ [q] } p)

/-- MCST at the head of its queue: with release order, every earlier access of the core's fibres is first performed at its home, whatever the scope
(11 R228). -/
def State.performMcst (s : State) (gid : Nat) (o : StoreOp) (h va ack : Nat) (line r : List Byte) (rel : Option Scope) : Bool × State :=
  let core := (s.grp gid).place
  let (ok, s) := if rel.isSome then s.releaseDone core .system else (true, s)
  if !ok || s.routeHeld then (false, s)
  else
    match s.multicast gid o h va ack line r rel.isSome with
    | some t => (true, t)
    | none => (false, s.stallHead gid 0)

/-! ### The queue drained with these among it (10 R180) -/

/-- The instruction that issued a queued access. -/
def State.issuerOf (s : State) (gid : Nat) (o : StoreOp) : Issue :=
  match (s.grp gid).ret? o.ret with | some r => r.issue | none => { gid := gid, pc := o.pc }

/-- A queued access of these units performed, while its instruction stands as the issuing one; the bool says that it left the queue. -/
def State.performLate (s : State) (gid : Nat) (o : StoreOp) : Bool × State :=
  match o.act with
  | .index n => s.indexHead gid o n
  | act =>
  let c := s.cur
  let i := s.issuerOf gid o
  let (ok, s) :=
    match act with
    | .flushr base len inv => State.performFlush { s with cur := i } gid o base len inv
    | .watch slot pidx pte => if s.placeOpen gid o then (true, s.performWatch gid o slot pidx pte) else (false, s)
    | .mcst h va ack line r rel => s.performMcst gid o h va ack line r rel
    | _ => (true, s)
  let s := { s with cur := c }
  (ok, if ok then s.setG gid fun g => { g with stores := g.stores.drop 1 } else s)

/-- The head of a queue performed if it can be; the bool says that it was. -/
def State.headStep (s : State) (gid : Nat) (o : StoreOp) : Bool × State :=
  if o.act.late then s.performLate gid o
  else
    match s.tryHead gid o with
    | (false, s) => (false, s)
    | (true, s) => (true, s.performStore gid o)

/-- The queue performed from its head while nothing blocks (10 R180); the bool says that it emptied. -/
def State.lateDrain (s : State) (gid : Nat) : Nat → Bool × State
  | 0 => ((s.grp gid).stores.isEmpty, s)
  | n + 1 =>
    match (s.grp gid).stores with
    | [] => (true, s)
    | o :: _ =>
      match s.headStep gid o with
      | (false, s) => (false, s)
      | (true, s) => s.lateDrain gid n

/-- A group's whole queue performed. -/
def State.drainAll (s : State) (gid : Nat) : Bool × State := s.lateDrain gid (s.grp gid).stores.length

/-- Accesses of an instruction enter its group's queue, which is performed as far as it can be; nothing waits (11 Table 11.1). -/
def State.enqueue (s : State) (gid : Nat) (os : List StoreOp) : State :=
  ((s.setG gid fun g => { g with stores := g.stores ++ os }).drainAll gid).2

/-! ### FENCE (11 R222) -/

/-- A fence's effect on the issuing core; the bool says that it is complete. -/
def State.fenceNow (s : State) (k : Scope) (a : MOrder) : Bool × State :=
  if !k.beyond then (true, s)
  else
    match s.drainAll s.cur.gid with
    | (false, s) => (false, s)
    | (true, s) =>
      match (if a.rel then s.releaseDone s.g.place k else (true, s)) with
      | (false, s) => (false, s)
      | (true, s) => (true, if a.acq then s.l1Acquire s.g.place else s)

/-- FENCE (11 R222): it blocks until its effect is complete. -/
def execFence (k : Scope) (a : MOrder) (e : Bool) (s : State) : Out :=
  s.runEnd avCore []
    (match s.fenceNow k a with
     | (false, s) => .ok (s.blockOn (.fence k))
     | (true, s) => .ok ((s.raceTick s.cur.gid s.batch.length).retire e))

/-! ### WATCH, UNWATCH, WAITW (10 R190 to R193; 11 R223 to R226) -/

/-- The slot offset in V[b] for each lane of the batch. -/
def State.slotOffs (s : State) (b : Reg) : List (Nat × Nat) := s.batch.map fun l => (l, (s.g.old l b).toNat)

/-- A slot lies in the declared allocation (11 R223). -/
def State.checkSlots (s : State) (xs : List (Nat × Nat)) (windows : Bool) : Except Stop Unit :=
  firstErr
    [ eachLane xs (fun x => decide (x.2 + 16 ≤ s.tm.larderSize)) (fun x => memTrap tBOUNDS 3 x.1 x.2),
      if windows then eachLane xs (fun x => !s.tm.meetsWindow x.2 16) (fun x => memTrap tBOUNDS 3 x.1 x.2) else .ok () ]

/-- Some slot is subscribed, or stands twice in a list, which counts as subscribed by the lower lane: the lowest such lane (11 R223; DEDUCED, log 129). -/
def takenSlot (t : Team) : List Nat → List (Nat × Nat) → Option (Nat × Nat)
  | _, [] => none
  | seen, x :: xs => if seen.contains x.2 || (t.sub? x.2).isSome then some x else takenSlot t (x.2 :: seen) xs

/-- WATCH's slots are free. -/
def State.checkFreeSlots (s : State) (xs : List (Nat × Nat)) : Except Stop Unit :=
  match takenSlot s.tm [] xs with | some x => .error (memTrap tBOUNDS 5 x.1 x.2) | none => .ok ()

/-- A uniform instruction's one queued access. -/
def State.uniOp (s : State) (ret : Nat) (a : Action) : StoreOp :=
  { ret := ret, lane := 0, tgt := .larder 0, act := a, order := preOrder s.cur.pre, scope := preScope s.cur.pre, pc := s.cur.pc }

/-- WATCH (11 R223, R224): the registration of each lane is its own. -/
def execWatch (c b : Reg) (a : PReg) (e : Bool) (s : State) : Out :=
  s.runEnd avHome [vsrc b, vsrc c 2, pref a.toNat]
    (let xs := s.slotOffs b
     let va (l : Nat) := (s.g.vpair l (s.g.phys l c)).toNat
     match firstErr
         [ s.checkCtr .ld,
           eachLane xs (fun x => decide (x.2 % 16 = 0 ∧ va x.1 % 8 = 0)) (fun x => memTrap tALIGN 2 x.1 (if x.2 % 16 = 0 then va x.1 else x.2)),
           s.checkSlots xs true, s.checkFreeSlots xs ], s.locateAll (xs.map fun x => (x.1, va x.1)) 8 .read with
     | .error st, _ => .error st
     | _, .error st => .error st
     | .ok _, .ok as =>
       let gid := s.cur.gid
       let npc := s.cur.npc
       let (rid, s) := s.newId
       let far := as.any fun x => x.tgt.isRemote
       let s := (s.tlbNote as).modG fun g =>
         g.begin { id := rid, kind := .watch, ctr := some .ld, regs := [{ cls := 5, idx := a.toNat }], stall := far, issue := s.cur,
                   lanes := as.map fun x => { lane := x.lane, addr := x.va } }
       let s := s.modT fun t => { t with subs := t.subs ++ (xs.zip as).map fun q => ({ slot := q.1.2, va := q.2.va, live := false } : Sub) }
       let s := s.enqueue gid ((xs.zip as).map fun q =>
         { s.uniOp rid (.watch q.1.2 a.toNat q.2.pte) with lane := q.2.lane, tgt := q.2.tgt, va := q.2.va })
       .ok (if far then s.retireAt fun _ => npc else s.retire e))

/-- One slot of UNWATCH for a Return (10 R193): a slot without a subscription is over at once; a subscription not yet registered is removed as soon
as it is. -/
def State.unwatchLane (s : State) (ret slot : Nat) : State :=
  let g := s.g
  match s.tm.sub? slot with
  | none => s.modG fun g => g.oneDone ret
  | some u =>
    let s := s.setT g.tid fun t =>
      { t with subs := t.subs.map fun w => if w.slot = slot then { w with ending := w.ending ++ [(s.cur.gid, ret)] } else w }
    if u.ending.isEmpty && u.live then s.subRemove s.cur.gid g.tid u else s

/-- UNWATCH (11 R225): it counts in LD until it completes under 10 R193. -/
def execUnwatch (b : Reg) (e : Bool) (s : State) : Out :=
  s.runEnd avHome [vsrc b]
    (let xs := s.slotOffs b
     match firstErr
         [ s.checkCtr .ld, eachLane xs (fun x => decide (x.2 % 16 = 0)) (fun x => memTrap tALIGN 2 x.1 x.2), s.checkSlots xs true ] with
     | .error st => .error st
     | .ok _ =>
       let (rid, s) := s.newId
       let s := s.modG fun g => g.begin { id := rid, kind := .unwatch, ctr := some .ld, left := xs.length, issue := s.cur }
       .ok ((xs.foldl (fun s x => s.unwatchLane rid x.2) s).retire e))

/-- WAITW (11 R226): each lane returns on its own (ASYNCHRONOUS_RETURN). -/
def execWaitw (c b a : Reg) (e : Bool) (s : State) : Out :=
  s.runEnd avHome [vsrc b, vsrc c, vdst a 4]
    (let xs := s.slotOffs b
     match firstErr
         [ s.checkCtr .ld, eachLane xs (fun x => decide (x.2 % 16 = 0)) (fun x => memTrap tALIGN 2 x.1 x.2), s.checkSlots xs false ] with
     | .error st => .error st
     | .ok _ =>
       match s.fillAll xs 16 2048 with
       | .error st => .error st
       | .ok (false, s) => .ok (s.blockOn .remote)
       | .ok (true, s) =>
         let g := s.g
         let (rid, s) := s.newId
         let ls := xs.map fun x =>
           ({ lane := x.1, dst := g.phys x.1 a, slot := x.2, lastSeq := (g.old x.1 c).toNat, addr := x.2 } : LaneRet)
         .ok ((s.modG fun g => g.begin { id := rid, kind := .waitw, ctr := some .ld, regs := s.destRegs a 4, lanes := ls, issue := s.cur }).retire e))

/-! ### Drains (11 R227, R230) -/

/-- A return that counts one instruction's events in ST. -/
def State.beginCount (s : State) : Nat × State :=
  let (rid, s) := s.newId
  (rid, s.modG fun g => g.begin { id := rid, kind := .store, ctr := some .st, left := 1, issue := s.cur })

/-- DRAINWC (11 R227): the entries that the buffer holds at issue drain, and count in ST until each is performed. -/
def execDrainwc (e : Bool) (s : State) : Out :=
  s.runEnd avHome []
    (match s.checkCtr .st with
     | .error st => .error st
     | .ok _ =>
       let (rid, s) := (s.drainAll s.cur.gid).2.beginCount
       .ok ((s.drainCounted s.cur.gid rid (s.core s.g.place).wc).retire e))

/-- FLUSHR, and INVR where `inv` is set, of S operands (11 R230). -/
def State.opFlush (s : State) (b a : Reg) (inv e : Bool) : Out :=
  s.runEnd avHome [sref a 2, sref b]
    (let base := (s.g.spair a.toNat).toNat
     let len := (s.g.sreg b.toNat).toNat
     if len = 0 then .ok (s.retire e)
     else
       match s.checkCtr .st with
       | .error st => .error st
       | .ok _ =>
         let (rid, s) := s.beginCount
         .ok ((s.enqueue s.cur.gid [s.uniOp rid (.flushr base len inv)]).retire e))

/-- FLUSHR (11 R230). -/
def execFlushr (b a : Reg) (e : Bool) (s : State) : Out := s.opFlush b a false e
/-- INVR (11 R230). -/
def execInvr (b a : Reg) (e : Bool) (s : State) : Out := s.opFlush b a true e

/-- A bounds or alignment trap of a uniform operand: the batch's lowest lane (11 R207). -/
def State.uniTrap (s : State) (code cause addr : Nat) : Stop := memTrap code cause s.lane0 addr

/-- MCST (11 R228): the source line is read at issue. -/
def execMcst (c b a : Reg) (e : Bool) (s : State) : Out :=
  s.runEnd avHome [sref a, sref b 2, sref c 2]
    (let h := (s.g.sreg a.toNat).toNat
     let va := (s.g.spair b.toNat).toNat
     let src := (s.g.sreg c.toNat).toNat
     let ack := (s.g.sreg (c.toNat + 1)).toNat
     let size := s.tm.larderSize
     match firstErr
         [ s.checkCtr .st, need (decide (h < 65536)) (s.uniTrap tBOUNDS 6 0), need (s.groupRecord s.g.ctx h).isSome (s.uniTrap tHANDLE 1 h),
           need (decide (va % 256 = 0)) (s.uniTrap tALIGN 2 va), need (decide (src % 256 = 0)) (s.uniTrap tALIGN 2 src),
           need (decide (ack % 32 = 0)) (s.uniTrap tALIGN 2 ack), need (decide (src + 256 ≤ size)) (s.uniTrap tBOUNDS 3 src),
           need (decide (ack + 32 ≤ size)) (s.uniTrap tBOUNDS 3 ack) ] with
     | .error st => .error st
     | .ok _ =>
       match s.fillAll [(s.lane0, src)] 256 2048 with
       | .error st => .error st
       | .ok (false, s) => .ok (s.blockOn .remote)
       | .ok (true, s) =>
         let (line, pois, s) := s.readAt s.cur.gid (.larder src) 256
         if pois then .error (.trap { code := tPOISON, addr := src })
         else
           let rel := if (preOrder s.cur.pre).rel then some (preScope s.cur.pre) else none
           let (rid, s) := s.orderTick.beginCount
           .ok ((s.enqueue s.cur.gid [s.uniOp rid (.mcst h va ack line ((s.groupRecord s.g.ctx h).getD []) rel)]).retire e))

end Sys2Proof.Machine
end

