-- ==== Sys2Proof/Machine/Branch.lean ====
section
/-! DEFINITION. Branches, calls, windows, waits and the clock (15 R284 to R290), and the creation and end of fibres (15 R291, R292). -/
namespace Sys2Proof.Machine

/-! ### Branches (15 R284 to R286) -/

/-- The target of a displacement in parcels (15 R284). -/
def State.relTarget (s : State) (d : Int) : Dword := s.cur.pc + BitVec.ofInt 64 (2 * d)

/-- BR, uncond = 1 (15 R284). -/
def execBr (d : BitVec 18) (_e : Bool) (s : State) : Out :=
  s.runEnd avAll [] (.ok (s.retireAt fun _ => s.relTarget d.toInt))

/-- BR with a condition (15 R284): the run ends if a fibre takes it. -/
def execBrCond (d : BitVec 18) (sn : Bool) (p : PReg) (e : Bool) (s : State) : Out :=
  let taken (l : Nat) := s.g.pbit l p.toNat == sn
  s.runEnd avAll [pref p.toNat]
    (if s.batch.any taken then .ok (s.retireAt fun l => if taken l then s.relTarget d.toInt else s.cur.npc) else .ok (s.retire e))

/-- The window moved for each fibre of the batch. -/
def State.eachWb (s : State) (f : Nat → BitVec 8) : State := s.eachFib fun l k => { k with wb8 := f l }

/-- CALL (15 R285): the link goes to the callee's V0 to V2, on a sequencer to S30 and S31. -/
def execCall (d : BitVec 19) (sl : BitVec 2) (_e : Bool) (s : State) : Out :=
  let np := s.cur.npc
  if s.g.kind = .sequencer then
    if sl = 0 then
      s.runEnd avAll [sref 30 2] (.ok ((s.modG fun g => g.ssets 30 [np.extractLsb' 0 32, np.extractLsb' 32 32]).retireAt fun _ => s.relTarget d.toInt))
    else .next (s.halt (kindReserved 8 9))
  else
    s.runEnd avAll [{ cls := 0, field := 8 * sl.toNat, n := 3 }]
      (.ok (((s.modG fun g => g.forLanes s.batch fun g l =>
          g.vsets l (g.wb l + 8 * sl.toNat) [np.extractLsb' 0 32, np.extractLsb' 32 32, w32 (g.wb l)]).eachWb
        fun l => (s.g.fib l).wb8 + BitVec.ofNat 8 sl.toNat).retireAt fun _ => s.relTarget d.toInt))

/-- No lane's target is odd (03 R46). -/
def State.checkTargets (s : State) (t : Nat → Dword) : Except Stop Unit :=
  eachLane s.batch (fun l => !(t l).getLsbD 0) (fun l => memTrap tALIGN 2 l (t l).toNat)

/-- RET (15 R285). -/
def execRet (_e : Bool) (s : State) : Out :=
  let g := s.g
  if g.kind = .sequencer then
    s.runEnd avAll [sref 30 2]
      (match s.checkTargets fun _ => g.spair 30 with
       | .error st => .error st
       | .ok _ => .ok (s.retireAt fun _ => g.spair 30))
  else
    let t (l : Nat) := g.vpair l (g.wb l)
    s.runEnd avAll [{ cls := 0, field := 0, n := 3, read := true }]
      (match s.checkTargets t with
       | .error st => .error st
       | .ok _ => .ok ((s.eachWb fun l => (g.vval l (g.wb l + 2)).extractLsb' 3 5 |>.setWidth 8).retireAt t))

/-- JMPR (15 R286). -/
def execJmpr (a : Reg) (_e : Bool) (s : State) : Out :=
  let g := s.g
  let t (l : Nat) := if g.kind = .sequencer then g.spair a.toNat else g.vpair l (g.phys l a)
  s.runEnd avScalar [if g.kind = .sequencer then sref a 2 else vsrc a 2]
    (match s.checkTargets t with
     | .error st => .error st
     | .ok _ => .ok (s.retireAt t))

/-! ### SKP (15 R287) -/

/-- A word is a prefix (03 R54): it has major 0x3F. -/
def prefixWord (w : Nat) : Bool := w % 2 == 1 && bitsOf w 7 2 == 0x3F

/-- One instruction with its prefixes passed over, for its length alone: at most two prefixes stand before it (03 R54). -/
def State.passOne (s : State) : Nat → Except Stop State
  | 0 => .ok s
  | k + 1 =>
    match s.fetchWord with
    | (_, .error e) => .error e
    | (ps, .ok _) => if prefixWord (wordOf ps) then (s.took ps).passOne k else .ok (s.took ps)

/-- The PC past n instructions, or the fetch fault that a skipped parcel meets. -/
def State.passOver (s : State) : Nat → Except Stop State
  | 0 => .ok s
  | n + 1 => match s.passOne 3 with | .error e => .error e | .ok t => t.passOver n

/-- The fibres of a mask remembered by the run as standing past a SKP (15 R287). -/
def State.runSkips (s : State) (mask : Nat) : State :=
  match (s.core s.g.place).slotOf s.cur.gid with
  | some k => s.setC s.g.place fun c => { c with slots := tmod {} c.slots k fun r => { r with skip := r.skip ||| mask } }
  | none => s

/-- SKP (15 R287): it does not end the run, which goes on past the skipped instructions where every fibre skips. -/
def execSkp (n : Fld3) (sn : Bool) (p : PReg) (e : Bool) (s : State) : Out :=
  let skips := s.batch.filter fun l => s.g.pbit l p.toNat == sn
  s.runEnd avCore [pref p.toNat]
    (if skips.isEmpty then .ok (s.retire e)
     else
       match s.passOver (n.toNat + 1) with
       | .error st => .error st
       | .ok t =>
         let rest := s.batch.filter fun l => !skips.contains l
         let u := s.standAt fun l => if skips.contains l then t.cur.npc else s.cur.npc
         if rest.isEmpty then .ok (({ u with cur := { s.cur with npc := t.cur.npc } } : State).goOn e)
         else .ok (({ (u.runSkips (maskOf skips)) with cur := { s.cur with mask := maskOf rest } } : State).goOn e))

/-- SWIN (15 R288). -/
def execSwin (a : Reg) (e : Bool) (s : State) : Out :=
  s.runOk avCore [] e (s.eachWb fun _ => BitVec.ofNat 8 a.toNat)

/-! ### NOP, YIELD, RDCLK, WAIT (15 R289, R290) -/

/-- NOP (15 R289). -/
def execNop (e : Bool) (s : State) : Out := s.runOk avAll [] e s

/-- The contexts of a sequencer core other than one (07 Table 7.1). -/
def State.otherContexts (s : State) (gid : Nat) : List Nat :=
  (s.groups.filter fun e => e.2.kind == .sequencer && e.2.place == (s.grp gid).place && e.1 != gid).map (·.1)

/-- YIELD (15 R289). -/
def execYield (_e : Bool) (s : State) : Out :=
  let s' := if s.g.kind = .sequencer then s.modG fun g => { g with seq := { g.seq with yieldTo := s.otherContexts s.cur.gid } } else s
  s.runEnd avScalar [] (.ok (s'.retireAt fun _ => s.cur.npc))

/-- RDCLK (15 R289): a cellar core samples the count at its own 2 GHz cycle. -/
def execRdclk (a : Reg) (e : Bool) (s : State) : Out :=
  let t := if s.g.kind = .cellar then s.now / 2 * 2 else s.now
  s.runOk avAll [sref a 2] e (s.writeS a [w32 t, w32 (t / 2 ^ 32)])

/-- The counters are at or below the limits of a WAIT (15 R290). -/
def Group.countsMet (g : Group) (ld st cp tl : Nat) : Bool := decide (g.ld ≤ ld ∧ g.st ≤ st ∧ g.cp ≤ cp ∧ g.tl ≤ tl)

/-- WAIT (15 R290). -/
def execWait (t : BitVec 6) (c : BitVec 6) (st : BitVec 6) (l : BitVec 6) (e : Bool) (s : State) : Out :=
  s.runEnd avAll []
    (if s.g.countsMet l.toNat st.toNat c.toNat t.toNat then .ok (s.retire e)
     else .ok (s.blockOn (.counts l.toNat st.toNat c.toNat t.toNat)))

/-! ### Barrier phases (15 R293) -/

/-- The fibres of a team that have been created and have not ended: group and lane (15 R293). -/
def State.teamFibres (s : State) (tid : Nat) : List (Nat × Nat) :=
  (s.team tid).groups.flatMap fun gid => (s.grp gid).unended.map fun l => (gid, l)

/-- Every live fibre of a team has arrived in the current phase of a barrier. -/
def State.phaseFull (s : State) (tid n : Nat) : Bool :=
  let fs := s.teamFibres tid
  let ph := tget 0 (s.team tid).barriers n
  !fs.isEmpty && fs.all fun x => tget 0 ((s.grp x.1).fib x.2).arrived n == ph + 1

/-- Phases that every live fibre has arrived in complete (15 R293). -/
def State.phases (s : State) (tid : Nat) : State :=
  (List.range 8).foldl (fun s n => if s.phaseFull tid n then s.setT tid fun t => { t with barriers := tmod 0 t.barriers n (· + 1) } else s) s

/-- Every live fibre of a team is blocked at the BARG of its grid's current phase (15 R294). -/
def State.bargFull (s : State) (tid : Nat) : Bool :=
  let fs := s.teamFibres tid
  let ph := (s.grid (s.team tid).grid).bargPhase
  !fs.isEmpty && fs.all fun x => let f := (s.grp x.1).fib x.2; f.life == .live && f.bargAt == ph + 1

/-- The grid barrier's phase completes when every team of the grid has arrived or retired (15 R294). -/
def State.bargPhase (s : State) (n : Nat) : State :=
  let g := s.grid n
  let ts := s.teams.filter fun e => e.2.grid == n
  if g.unplaced = 0 && !g.open_ && !ts.isEmpty && ts.all fun e => e.2.bargArrived == g.bargPhase + 1 then
    s.setGrid n fun g => { g with bargPhase := g.bargPhase + 1 }
  else s

/-- What a fibre's arrival or end may complete: the team's barriers, its arrival at the grid's, and the grid's phase. -/
def State.barriers (s : State) (tid : Nat) : State :=
  if tid = 0 then s
  else
    let s := s.phases tid
    let s := if s.bargFull tid then s.setT tid fun t => { t with bargArrived := (s.grid t.grid).bargPhase + 1 } else s
    s.bargPhase (s.team tid).grid

/-! ### FORK and FEND (15 R291, R292) -/

/-- A lane slot that holds no fibre, and to which no return is in flight (15 R291, R292). -/
def Group.slotFree (g : Group) (l : Nat) : Bool := (g.fib l).life == .free && !(g.returns.any fun r => r.lanes.any fun x => x.lane == l)

/-- One fibre of a FORK. -/
def Group.forkOne (g : Group) (a : Nat) (b c : Reg) (l : Nat) : Group :=
  let arg := g.vval l (g.phys l c)
  let t := g.vpair l (g.phys l b)
  match (List.range g.width).find? g.slotFree with
  | none => (g.pset l a false).vset l (g.phys l c) 0xFFFFFFFF
  | some k =>
    let g' := (g.vzero k).setF k fun _ => { life := .live, pc := t, wb8 := (g.fib l).wb8 }
    ((g'.vsets k (g.wb l) [arg, w32 l]).pset l a true).vset l (g.phys l c) (w32 k)

/-- FORK (15 R291). -/
def execFork (c b : Reg) (a : PReg) (e : Bool) (s : State) : Out :=
  s.runEnd avHome [vsrc b 2, vsrc c, vdst c, pref a.toNat, { cls := 0, field := 0, n := 2 }]
    (match s.checkTargets fun l => s.g.vpair l (s.g.phys l b) with
     | .error st => .error st
     | .ok _ => .ok ((s.modG fun g => g.forLanes s.batch fun g l => g.forkOne a.toNat b c l).retire e))

/-- The fibres of the batch end at home (15 R292): they leave a handler, and barriers no longer count them. -/
def State.endFibres (s : State) : State :=
  let s := s.modG fun g => (g.forLanes s.batch Group.freeLane).leaveHandler s.cur.mask
  (s.barriers s.g.tid).endRun

/-- The fibres of the batch end at a guest (15 R292; 10 R194): the end notice leaves once their accesses are performed. -/
def State.endAway (s : State) : State :=
  let gid := s.cur.gid
  match s.flushGroup gid with
  | (false, s) => s.blockOn .depart
  | (true, s) =>
    if s.g.returns.any fun r => r.lanes.any fun x => s.batch.contains x.lane then s.blockOn .depart
    else
      (s.leaveGuest gid s.batch s.cur.npc.toNat true).endRun

/-- FEND (15 R292). -/
def execFend (_e : Bool) (s : State) : Out :=
  s.runEnd { cellar := s.g.isGuest, guest := true } [] (.ok (if s.g.isGuest then s.endAway else s.endFibres))

end Sys2Proof.Machine
end

