-- ==== Sys2Proof/Machine/Queue.lean ====
section
/-! DEFINITION. Work queues: their rings, the taking of packets, refusals and holds (13 R256 to R259; 17 R381). -/
namespace Sys2Proof.Machine

/-! ### Bytes the N8 reads and writes for itself (16 R316) -/

/-- Bytes at a place, as the N8 reads them for itself. -/
def State.tgtRead (s : State) (t : Target) (n : Nat) : List Byte :=
  match t with | .dev pa _ => s.homeRead pa n | .host pa => s.hostRead pa n | _ => List.replicate n 0

/-- Bytes written at a place by the N8 for itself. -/
def State.tgtWrite (s : State) (t : Target) (bs : List Byte) : State :=
  match t with | .dev pa pol => s.homeWrite pol pa bs (fullMask bs) | .host pa => s.hostWrite pa bs (fullMask bs) | _ => s

/-- A place `n` bytes further on. -/
def Target.off (t : Target) (n : Nat) : Target :=
  match t with | .dev pa pol => .dev (pa + n) pol | .host pa => .host (pa + n) | t => t

/-- The die that holds a place's home slice; host memory's traffic is carried by die 0 (01 R23). -/
def Target.homeDie (t : Target) : Nat := match t with | .dev pa _ => dieOfPa pa | _ => 0

/-- How the N8's own access to an address ends: cause 1 NOMAP, 2 NONRES, 3 PROT, 4 WALK_FORMAT (13 Table 13.3). -/
inductive Own where
  | ok (t : Target)
  | bad (cause : Nat)
  | moving
  /-- behind a link that is down: it waits (01 R11; 17 R344) -/
  | cut
  deriving DecidableEq, Repr

/-- A context's address for the N8 itself, which stands at die 0 (DESIGN CHOICE, log 125); `write` waits on a leaf with MOVING (16 R315, R316). -/
def State.ownPlace (s : State) (ctx va : Nat) (write : Bool) : Own :=
  if !s.isLocal va then .bad 1
  else
    match s.xlate 0 ctx va .read false with
    | .ok t e => if write && pteBit e 7 then .moving else if s.cutTo 0 t then .cut else .ok t
    | .moving l => if l = 0 then .cut else .moving
    | .replay r _ => .bad (if r = 8 then 4 else r)
    | .prot _ => .bad 3

/-! ### Rings (13 R256 to R258) -/

/-- A place of a queue's ring: physical on a privileged queue, through the context otherwise. -/
def State.ringPlace (s : State) (q off : Nat) (write : Bool) : Own :=
  let k := s.queue q
  if k.priv then (let t : Target := .dev (k.ring + off) 2; if s.cutTo 0 t then .cut else .ok t) else s.ownPlace k.ctx (k.ring + off) write

/-- The address of a slot in the ring. -/
def WQueue.slotOff (k : WQueue) (i : Nat) : Nat := 64 + 64 * (i % k.entries)

/-- The packet that stands at RIDX. -/
structure Taken where
  hdr : Target
  slot : Target
  idx : Nat
  bytes : List Byte
  deriving DecidableEq, Repr

/-- What a read of a queue's head finds. -/
inductive HeadRead where
  | none
  | packet (t : Taken)
  /-- unreadable: cause, address (13 R258) -/
  | bad (cause va : Nat)
  | moving (va : Nat)
  | cut
  deriving DecidableEq, Repr

/-- How the read of a queue's head goes where a place of it is not to be had. -/
def Own.head (o : Own) (va : Nat) : HeadRead :=
  match o with
  | .ok _ => .none
  | .moving => .moving va
  | .bad c => .bad c va
  | .cut => .cut

/-- The queue's header and the slot at RIDX (13 R258): a packet stands there when KIND is not 0 and SLOT equals RIDX modulo 2^32. It is taken by writes to
both, which a leaf with MOVING holds back (16 R315; DEDUCED, log 124). -/
def State.headRead (s : State) (q : Nat) : HeadRead :=
  let k := s.queue q
  match s.ringPlace q 0 false with
  | .ok hdr =>
    let idx := leNat (s.tgtRead (hdr.off 8) 8)
    match s.ringPlace q (k.slotOff idx) false with
    | .ok slot =>
      let b := s.tgtRead slot 64
      if fieldAt b 0 1 ≠ 0 ∧ fieldAt b 0x38 4 = idx % 2 ^ 32 then
        match s.ringPlace q 0 true, s.ringPlace q (k.slotOff idx) true with
        | .ok _, .ok _ => .packet { hdr := hdr, slot := slot, idx := idx, bytes := b }
        | .ok _, o => o.head (k.ring + k.slotOff idx)
        | o, _ => o.head k.ring
      else .none
    | o => o.head (k.ring + k.slotOff idx)
  | o => o.head k.ring

/-- The queue may be taken (13 R258; 16 R325): it is in use, holds no packet back, and its context runs. -/
def State.queueOpen (s : State) (q : Nat) : Bool :=
  let k := s.queue q
  k.used && k.entries != 0 && k.held.isNone && k.launch == 0 && k.cmd.isNone && (k.priv || (s.ctx k.ctx).phase == .active)

/-- Where the header of a queue lies: as it translates now, or as it last did. -/
def State.hdrNow (s : State) (q : Nat) : Option Target :=
  match s.ringPlace q 0 false with | .ok t => some t | _ => (s.queue q).hdr

/-- Where the header of a queue lies is kept, so that its home notices WIDX (13 R258). -/
def State.noteHeader (s : State) (q : Nat) : State := let h := s.hdrNow q; s.setQ q fun k => { k with hdr := h }

/-- Where the headers of queues in use lie, as they translate now. -/
def State.noteHeaders (s : State) : State :=
  { s with queues := s.queues.map fun e => if e.2.used && e.2.entries != 0 then (e.1, { e.2 with hdr := s.hdrNow e.1 }) else e }

/-- The die to whose fault buffer a queue's events go: the header's home (17 R381). -/
def State.queueDie (s : State) (q : Nat) : Nat := match s.hdrNow q with | some t => t.homeDie | none => 0

/-- The queue is held on an unreadable header or slot, and event 0x8001 is posted once (13 R258). -/
def State.holdQueue (s : State) (q cause va : Nat) : State :=
  let k := s.queue q
  let die := s.queueDie q
  let s := s.setQ q fun k => { k with held := some (cause, va), heldAt := s.now, poked := false, since := none }
  s.postEvent die k.ctx q 0x8001 (leBytes 8 cause ++ leBytes 8 va)

/-- A read of the N8 for a queue stalls on MOVING: the bool says that the stall has lasted 100 µs. Each address counts from its own first stall (16
R315). -/
def State.queueStall (s : State) (q va : Nat) : Bool × State :=
  match (s.queue q).since with
  | some (a, t) => if a = va then (decide (t + movingLimit ≤ s.now), s) else (false, s.setQ q fun k => { k with since := some (va, s.now) })
  | none => (false, s.setQ q fun k => { k with since := some (va, s.now) })

/-- An access of the ring that stalls on MOVING; after 100 µs it holds the queue as not resident (13 R258; 16 R315). -/
def State.stallQueue (s : State) (q va : Nat) : State :=
  match s.queueStall q va with
  | (true, s) => s.holdQueue q 2 va
  | (false, s) => s

/-- A stall on MOVING at a place of the ring is over once its head can be read (16 R315). -/
def State.ringGoes (s : State) (q : Nat) : State :=
  s.setQ q fun k =>
    { k with since := match k.since with | some (a, t) => if k.ring ≤ a ∧ a < k.ring + 64 + 64 * k.entries then none else some (a, t) | none => none }

/-- The packet is freed: KIND 0, then RIDX advances with a release store (13 R258). -/
def State.freePacket (s : State) (q : Nat) (t : Taken) : State :=
  let s := (s.tgtWrite t.slot [0]).tgtWrite (t.hdr.off 8) (leBytes 8 (t.idx + 1))
  s.setQ q fun k => { k with since := none }

/-- A refusal (13 R259): ERRCNT, ERRCODE and ERRIDX, the packet freed, event 0x8000. -/
def State.refusePacket (s : State) (q : Nat) (t : Taken) (code cause : Nat) : State :=
  let k := s.queue q
  let cnt := leNat (s.tgtRead (t.hdr.off 0x10) 4)
  let s := (s.tgtWrite (t.hdr.off 0x10) (leBytes 4 (cnt + 1))).tgtWrite (t.hdr.off 0x14) (leBytes 1 code ++ leBytes 1 cause)
  let s := (s.tgtWrite (t.hdr.off 0x18) (leBytes 8 t.idx)).freePacket q t
  s.postEvent t.hdr.homeDie k.ctx q 0x8000 (leBytes 1 code ++ leBytes 7 cause ++ leBytes 8 t.idx)

/-- The offset of the first reserved field (offset, length) that is nonzero, in order (13 Table 13.3 code 1). -/
def firstNonzero (b : List Byte) : List (Nat × Nat) → Option Nat
  | [] => none
  | r :: rs => if fieldAt b r.1 r.2 = 0 then firstNonzero b rs else some r.1

/-- A kind that no table gives (13 Table 13.2; 16 R328). -/
def kindReserved? (k : Nat) : Bool := decide ((4 ≤ k ∧ k ≤ 127) ∨ 145 ≤ k)

/-- A kind allowed on a queue (13 R259; 16 R328). -/
def WQueue.allows (q : WQueue) (k : Nat) : Bool := if 128 ≤ k then q.priv else bitOf q.kinds (k - 1)

/-- The head of an open queue is looked at; a packet of the wanted kind that the queue allows goes to `f`. A packet of another kind is left to
its own step. -/
def State.takeKind (s : State) (q : Nat) (want : Nat → Bool) (f : State → Taken → State) : State :=
  if !s.queueOpen q then s
  else
    let s := s.noteHeader q
    match s.headRead q with
    | .none => (s.ringGoes q).setQ q fun k => { k with refuse := none }
    | .moving va => s.stallQueue q va
    | .bad c va => s.holdQueue q c va
    | .cut => s
    | .packet t =>
      let s := s.ringGoes q
      let k := fieldAt t.bytes 0 1
      match (s.queue q).refuse with
      | some c => (s.setQ q fun k => { k with refuse := none }).refusePacket q t 6 c
      | none =>
      if !want k then s
      else if kindReserved? k then s.refusePacket q t 1 0
      else if !(s.queue q).allows k then s.refusePacket q t 2 k
      else f s t

/-- A step of a unit that the module has; an event row that names another does nothing. -/
def unitStep (s : State) (there : Bool) (t : State) : Out := .next (if there then t else s)
/-- A queue's number: 0 to 255 (13 R256). -/
def queueOk (s : State) (q : Nat) (t : State) : Out := unitStep s (decide (q < 256)) t

/-- RESERVED_PACKET_KIND (13 R259). -/
def execReservedPacketKind (q : Nat) (s : State) : Out := queueOk s q (s.takeKind q kindReserved? fun s _ => s)

/-- EVENT_PACKET (13 R259; 17 R381): delivered to the driver in the fault buffer of the header's die. -/
def execEventPacket (q : Nat) (s : State) : Out :=
  queueOk s q (s.takeKind q (· == 3) fun s t =>
    match firstNonzero t.bytes [(1, 1), (4, 4), (0x3C, 4)] with
    | some o => s.refusePacket q t 1 o
    | none => (s.freePacket q t).postEvent t.hdr.homeDie (s.queue q).ctx q (fieldAt t.bytes 2 2) (sliceAt t.bytes 8 48))

/-- QUEUE_HOLD_RETRY (13 R258): every 100 µs, and whenever a write to WIDX was serialised. -/
def execQueueHoldRetry (q : Nat) (s : State) : Out :=
  let k := s.queue q
  queueOk s q
    (match k.held with
     | none => s
     | some _ =>
       if !k.poked && decide (s.now < k.heldAt + 100 * usTicks) then s
       else
         let s := s.noteHeader q
         match s.headRead q with
         | .bad c va => s.setQ q fun k => { k with held := some (c, va), heldAt := s.now, poked := false }
         | .moving _ => s.setQ q fun k => { k with heldAt := s.now, poked := false }
         | .cut => s.setQ q fun k => { k with heldAt := s.now, poked := false }
         | .none => s.setQ q fun k => { k with held := none, poked := false }
         | .packet _ => s.setQ q fun k => { k with held := none, poked := false })

end Sys2Proof.Machine
end

