-- ==== Sys2Proof/Machine/Copy.lean ====
section
/-! DEFINITION. Copy instructions, sync words, and the copy engines (09 R167; 10 R187 to R189; 11 R231 to R240; 13 R258, R259; 17 R338). -/
namespace Sys2Proof.Machine

/-! ### Checks at issue (11 R236) -/

/-- COPYARG (11 R236): bits 15:8 of DETAIL hold the cause. -/
def copyArg (cause : Nat) : Stop := .trap { code := tCOPYARG, detail := 256 * cause }

/-- A COPYARG cause unless the condition holds. -/
def arg (cause : Nat) (ok : Bool) : Except Stop Unit := need ok (copyArg cause)

/-- A sync offset operand (11 R231): none, or a multiple of 16 inside the allocation. -/
def State.syncOk (s : State) (off : Nat) : Bool := off == 0xFFFFFFFF || (off % 16 == 0 && decide (off + 16 ≤ s.tm.larderSize))

/-- The SYNC field of a packet (11 Table 11.4). -/
def syncField (off : Nat) : Nat := if off = 0xFFFFFFFF then 0xFFFF else off / 16

/-- A loft range of a die lies in the context's window (09 R168). -/
def State.loftOk (s : State) (die off n : Nat) : Bool := decide (off + n ≤ (tget (0, 0) (s.ctx s.g.ctx).loft die).2)

/-- A copy's range in a space: 0 global, 1 larder, 2 loft. -/
structure CopyEnd where
  space : Nat
  off : Nat
  die : Nat := 0
  deriving DecidableEq, Repr

/-- Alignment of a larder offset (cause 2), then its range (cause 3), a mapped window under a destination (cause 4; 09 R165), the loft window
(cause 5). -/
def State.checkEnd (s : State) (x : CopyEnd) (n : Nat) (dst : Bool) : Except Stop Unit :=
  if x.space = 1 then
    firstErr [arg 3 (decide (x.off + n ≤ s.tm.larderSize)), arg 4 (!(dst && s.tm.meetsWindow x.off n))]
  else if x.space = 2 then arg 5 (s.loftOk x.die x.off n)
  else .ok ()

/-- A larder end stands at a multiple of 16. -/
def CopyEnd.aligned (x : CopyEnd) : Bool := x.space != 1 || x.off % 16 == 0

/-- A shape record of a context (11 R234; 16 R320): its 64 bytes. -/
def State.shapeRecord (s : State) (ctx h : Nat) : Option (List Byte) :=
  let c := s.ctx ctx
  if c.fld 0x50 2 ≤ h then none
  else
    let r := s.homeRead (c.fld 0x30 8 + 64 * h) 64
    if fieldAt r 0 1 % 64 = ctx then some r else none

/-- Element size of a shape (11 Table 11.5). -/
def shEsize (r : List Byte) : Nat := 2 ^ fieldAt r 1 1
/-- Extent of dimension d. -/
def shDim (r : List Byte) (d : Nat) : Nat := fieldAt r (8 + 4 * d) 4
/-- Tile extent of dimension d. -/
def shTile (r : List Byte) (d : Nat) : Nat := fieldAt r (0x30 + 2 * d) 2
/-- Byte stride of dimension d: the element size for dimension 0. -/
def shStride (r : List Byte) (d : Nat) : Nat := if d = 0 then shEsize r else fieldAt r (0x18 + 8 * (d - 1)) 8
/-- Bytes of a tile row, dimension 0. -/
def shRow (r : List Byte) : Nat := shTile r 0 * shEsize r
/-- Bytes of a tile (11 R235). -/
def shBytes (r : List Byte) : Nat := shRow r * shTile r 1 * shTile r 2 * shTile r 3

/-! ### Posting a packet (11 R232, R233; 13 R257) -/

/-- ORIGIN of a packet (11 Table 11.4). -/
def State.origin (s : State) (lane : Nat) : Nat := s.g.ctx + 64 * s.g.place + 65536 * s.g.slot + 2 ^ 22 * lane

/-- The queue of a control word: a user queue of the context that takes COPY (11 R233). -/
def State.checkCopyQueue (s : State) (q : Nat) : Except Stop Unit :=
  let k := s.queue q
  need (k.used && !k.priv && k.ctx == s.g.ctx && bitOf k.kinds 0) (s.uniTrap tHANDLE 1 q)

/-- A write to the ring is placed as the instruction's own access (16 R316). -/
def State.ringWrite (s : State) (va n : Nat) : Except Stop Target :=
  match s.locate s.lane0 va n .write with
  | .error e => .error e
  | .ok x => if x.tgt.isRemote then .error (.replay va 1 1) else .ok x.tgt

/-- Every slot a claim takes is placed. -/
def State.ringSlots (s : State) (q : Nat) (i n : Nat) : Except Stop (List Target) :=
  firstStop (fun k => s.ringWrite ((s.queue q).ring + (s.queue q).slotOff (i + k)) 64) (List.range n)

/-- The scope at which a core's SLOT store releases: MODULE (13 R257), but SYSTEM where the copy's source is homed on another module, so that the source
read follows the fibre's own stores there (10 R187; DEDUCED, log 117). -/
def State.slotScope (s : State) (pkt : List Byte) : Scope := if fieldAt pkt 2 1 % 4 = 0 && !s.isLocal (fieldAt pkt 8 8) then .system else .module

/-- n slots claimed and their packets written in order (11 R233; 13 R257). Each SLOT store follows in the group's queue with release order, so a packet
is there to be taken once every earlier access of the fibre is performed (10 R187, R183; DEDUCED, log 117); CP counts until the last is written. -/
def State.postCopies (s : State) (q : Nat) (pkts : List (List Byte)) : Except Stop State :=
  match s.ringWrite (s.queue q).ring 64 with
  | .error e => .error e
  | .ok hdr =>
    let widx := leNat (s.tgtRead hdr 8)
    let ridx := leNat (s.tgtRead (hdr.off 8) 8)
    let n := pkts.length
    if decide ((s.queue q).entries < (widx + 2 ^ 64 - ridx) % 2 ^ 64 + n) then .error (.block (.ring q n))
    else
      match s.ringSlots q widx n with
      | .error e => .error e
      | .ok ts =>
        let gid := s.cur.gid
        let c := s.cur
        let batch := s.g.sealNext
        let (rid, s) := s.newId
        let s := (s.tgtWrite hdr (leBytes 8 (widx + n))).modG fun g =>
          { g.begin { id := rid, kind := .copy, ctr := some .cp, left := n, issue := c } with
            copies := g.copies ++ (List.range n).map fun k => (q, widx + k, batch) }
        let s := (ts.zip pkts).foldl (fun s x => s.tgtWrite x.1 (padTo 56 x.2)) s
        .ok (s.enqueue gid (((ts.zip pkts).zipIdx).map fun x =>
          { ret := rid, lane := 0, tgt := x.1.1.off 0x38, act := .bytes (leBytes 4 (widx + x.2) ++ leBytes 4 0), order := .release,
            scope := s.slotScope x.1.2, pc := c.pc }))

/-- A copy packet less its SLOT (11 Table 11.4). -/
def State.copyPacket (s : State) (lane op spaces dloft shape sync : Nat) (src dst len : Nat) (coord : List Nat) : List Byte :=
  record [(1, 1), (1, op), (1, spaces), (1, dloft), (2, shape), (2, sync), (8, src), (8, dst), (4, len), (4, 0)] ++
    (List.range 4).flatMap (fun i => leBytes 4 (coord.getD i 0)) ++ record [(4, s.origin lane), (4, s.g.sealNext)]

/-- The window lines of a copy's larder source are filled first (09 R165). -/
def State.fillSources (s : State) : List (Nat × Nat × Nat) → Except Stop (Bool × State)
  | [] => .ok (true, s)
  | (lane, off, n) :: xs =>
    match s.fillAll ((List.range ((off + n + 255) / 256 - off / 256)).map fun k => (lane, max off (256 * (off / 256 + k)))) 1 2048 with
    | .error e => .error e
    | .ok (false, s) => .ok (false, s)
    | .ok (true, s) => s.fillSources xs

/-- What follows the checks of CPY and CPYT: sources filled, packets posted. -/
def State.issueCopies (s : State) (q : Nat) (lar : List (Nat × Nat × Nat)) (pkts : State → List (List Byte)) (e : Bool) : Except Stop State :=
  match s.fillSources lar with
  | .error st => .error st
  | .ok (false, s) => .ok (s.blockOn .remote)
  | .ok (true, s) =>
    match (s.raceTick s.cur.gid s.batch.length).postCopies q (pkts s) with
    | .error st => .ok (s.halt st)
    | .ok s => .ok (s.retire e)

/-- A lane's 64-bit operand k registers on. -/
def Group.lane64 (g : Group) (l : Nat) (r : Reg) (k : Nat) : Nat := (g.vpair l (g.phys l r + k)).toNat
/-- A lane's 32-bit operand k registers on. -/
def Group.lane32 (g : Group) (l : Nat) (r : Reg) (k : Nat) : Nat := (g.vval l (g.phys l r + k)).toNat

/-- CPY (11 R233). -/
def execCpy (c b a : Reg) (e : Bool) (s : State) : Out :=
  s.runEnd avHome [vsrc a 5, sref b, sref c]
    (let w := (s.g.sreg b.toNat).toNat
     let sync := (s.g.sreg c.toNat).toNat
     let q := w % 256
     let ss := bitsOf w 9 8
     let ds := bitsOf w 11 10
     let sd := bitsOf w 14 12
     let dd := bitsOf w 17 15
     let ls := s.batch
     let g := s.g
     let src (l : Nat) : CopyEnd := { space := ss, off := g.lane64 l a 0, die := sd }
     let dst (l : Nat) : CopyEnd := { space := ds, off := g.lane64 l a 2, die := dd }
     let len (l : Nat) := g.lane32 l a 4
     match firstErr
         ([ s.checkCtr .cp, arg 6 (decide (w < 2 ^ 18) && (ss == 2 || sd == 0) && (ds == 2 || dd == 0)), arg 9 (ss != 3 && ds != 3),
            arg 7 (ls.all fun l => len l != 0), s.checkCopyQueue q, arg 2 (ls.all fun l => (src l).aligned && (dst l).aligned), arg 8 (s.syncOk sync) ] ++
          ls.flatMap fun l => [s.checkEnd (src l) (len l) false, s.checkEnd (dst l) (len l) true]) with
     | .error st => .error st
     | .ok _ =>
       let ends := ls.map fun l => (l, (src l).off, len l)
       s.issueCopies q (if ss = 1 then ends else [])
         (fun s => ls.map fun l => s.copyPacket l 0 (ss + 4 * ds + 16 * sd) dd 0 (syncField sync) (src l).off (dst l).off (len l) []) e)

/-- CPYT (11 R235). -/
def execCpyt (c b a : Reg) (e : Bool) (s : State) : Out :=
  s.runEnd avHome [vsrc a 7, sref b, sref c 2]
    (let w := (s.g.sreg b.toNat).toNat
     let h := (s.g.sreg c.toNat).toNat
     let sync := (s.g.sreg (c.toNat + 1)).toNat
     let q := w % 256
     let store := bitOf w 8
     let ls := s.batch
     let g := s.g
     let base (l : Nat) := g.lane64 l a 0
     let lar (l : Nat) : CopyEnd := { space := 1, off := g.lane32 l a 6 }
     let r := (s.shapeRecord g.ctx h).getD []
     match firstErr
         ([ s.checkCtr .cp, arg 6 (decide (w < 2 ^ 9) && decide (h < 65536)), s.checkCopyQueue q,
            need (s.shapeRecord g.ctx h).isSome (s.uniTrap tHANDLE 1 h), arg 1 (ls.all fun l => base l % 16 == 0),
            arg 2 (ls.all fun l => (lar l).aligned), arg 8 (s.syncOk sync) ] ++ ls.map fun l => s.checkEnd (lar l) (shBytes r) (!store)) with
     | .error st => .error st
     | .ok _ =>
       s.issueCopies q (if store then ls.map fun l => (l, (lar l).off, shBytes r) else [])
         (fun s => ls.map fun l =>
           s.copyPacket l (if store then 2 else 1) (if store then 1 else 4) 0 h (syncField sync) (if store then (lar l).off else base l)
             (if store then base l else (lar l).off) 0 ((List.range 4).map fun k => g.lane32 l a (2 + k))) e)

/-! ### The shelf at issue (11 R237, R238) -/

/-- Shelf slots in use or reserved (11 R237). -/
def Cluster.shelfUsed (c : Cluster) : Nat := c.shelf.length + c.parks.length

/-- CPYM (11 R237): a slot is reserved, and the tile is parked by SHELF_PARK. -/
def execCpym (c b a : Reg) (e : Bool) (s : State) : Out :=
  s.runEnd avHome [sref a 2, sref b, sref c]
    (let w := (s.g.sreg b.toNat).toNat
     let src := (s.g.spair a.toNat).toNat
     let len := (s.g.sreg c.toNat).toNat
     let lar := bitOf w 24
     let x : CopyEnd := { space := if lar then 1 else 0, off := src }
     match firstErr
         [ s.checkCtr .cp, arg 6 (decide (w < 2 ^ 25)), arg 7 (decide (16 ≤ len ∧ len ≤ 32768) && len % 16 == 0), arg 1 (lar || src % 16 == 0),
           arg 2 x.aligned, s.checkEnd x len false, need (decide ((s.cluster s.g.cluster).shelfUsed < 64)) (.block .shelf) ] with
     | .error st => .error st
     | .ok _ =>
       match s.fillSources (if lar then [(s.lane0, src, len)] else []) with
       | .error st => .error st
       | .ok (false, s) => .ok (s.blockOn .remote)
       | .ok (true, s) =>
         let g := s.g
         let gid := s.cur.gid
         let (rid, s) := s.newId
         let s := (s.raceTick gid s.batch.length).modG fun g =>
           { g.begin { id := rid, kind := .copy, ctr := some .cp, left := 1, issue := s.cur } with copies := g.copies ++ [(256, rid, g.sealNext)] }
         let s := s.setCl g.cluster fun k =>
           { k with parks := k.parks ++ [{ gid := gid, ret := rid, ctx := g.ctx, tid := g.tid, grid := s.tm.grid, tag := w % 65536, mask := bitsOf w 23 16,
                                           lar := lar, src := src, len := len }] }
         .ok ((s.enqueue gid [{ s.uniOp rid .park with order := .release, scope := .system }]).retire e))

/-- The team of a grid that is resident on core k of a cluster. -/
def State.teamOn (s : State) (grid cluster k : Nat) : Option Nat :=
  (s.teams.find? fun e => e.2.phase == .resident && e.2.grid == grid && e.2.core == 8 * cluster + k).map (·.1)

/-- The slot that a waiting SDRN takes: the oldest of its tag whose mask names its team's core (11 R238). -/
def State.drainSlot (s : State) (cluster : Nat) (d : Drain) : Option (Nat × ShelfSlot) :=
  let g := s.grp d.gid
  let cand := (s.cluster cluster).shelf.filter fun e => e.2.tag == d.tag && bitOf e.2.mask (g.place % 8) && e.2.grid == (s.team g.tid).grid
  cand.foldl (fun b e => match b with | some o => if e.2.order < o.2.order then some e else b | none => some e) none

/-- Bytes that an SDRN is checked for at issue: those of the slot it finds, else one unit, as no slot gives its length yet (DESIGN CHOICE, log 105). -/
def State.drainLen (s : State) (tag : Nat) : Nat :=
  match s.drainSlot s.g.cluster { gid := s.cur.gid, ret := 0, tag := tag, off := 0, sync := 0 } with | some z => z.2.data.length | none => 16

/-- SDRN (11 R238): it waits at the shelf without blocking issue. -/
def execSdrn (c b a : Reg) (e : Bool) (s : State) : Out :=
  s.runEnd avHome [sref a, sref b, sref c]
    (let off := (s.g.sreg b.toNat).toNat
     let sync := (s.g.sreg c.toNat).toNat
     let tag := (s.g.sreg a.toNat).toNat % 65536
     let x : CopyEnd := { space := 1, off := off }
     match firstErr [s.checkCtr .cp, arg 2 x.aligned, arg 8 (s.syncOk sync), s.checkEnd x (s.drainLen tag) true] with
     | .error st => .error st
     | .ok _ =>
       let (rid, s) := s.newId
       let s := s.modG fun g => g.begin { id := rid, kind := .copy, ctr := some .cp, left := 1, issue := s.cur }
       .ok ((s.enqueue s.cur.gid [s.uniOp rid (.sdrn tag off sync)]).retire e))

/-! ### SEAL, BWAIT, SWINIT, SWWAIT (10 R188; 11 R239, R240) -/

/-- A batch is finished when no copy of it or of an earlier one is left (10 R188). -/
def Group.batchDone (g : Group) (n : Nat) : Bool := g.copies.all fun c => decide (n < c.2.2)
/-- The group's unfinished batches. -/
def Group.unfinished (g : Group) : Nat := (g.batches.filter fun b => !g.batchDone b.1).length

/-- SEAL (11 R239): once per issue, it closes the group's open batch. -/
def execSeal (k : Scope) (e : Bool) (s : State) : Out :=
  s.run avHome [] e
    (if 64 ≤ s.g.unfinished then .error (.block .seal)
     else .ok (s.modG fun g => { g with batches := g.batches ++ [(g.sealNext, k)], sealNext := g.sealNext + 1 }))

/-- BWAIT (11 R239): an acquire at each finished batch's scope. -/
def execBwait (a : Reg) (e : Bool) (s : State) : Out :=
  s.run avHome [] e
    (if a.toNat < s.g.unfinished then .error (.block (.bwait a.toNat))
     else
       let done := s.g.batches.filter fun b => s.g.batchDone b.1
       let s := if done.isEmpty then s else s.raceTick s.cur.gid s.batch.length
       let s := if done.any fun b => b.2.beyond then s.l1Acquire s.g.place else s
       .ok (s.modG fun g => { g with batches := g.batches.filter fun b => !g.batchDone b.1 }))

/-- A uniform larder offset of n bytes: ALIGN, then BOUNDS (11 R207). -/
def State.checkWord (s : State) (off algn n : Nat) : Except Stop Unit :=
  firstErr [need (decide (off % algn = 0)) (s.uniTrap tALIGN 2 off), need (decide (off + n ≤ s.tm.larderSize)) (s.uniTrap tBOUNDS 3 off)]

/-- The window line of a sync word's bytes is filled before the access (09 R165). -/
def State.fillWord (s : State) (off algn n : Nat) (k : State → Except Stop State) : Except Stop State :=
  match s.checkWord off algn n with
  | .error st => .error st
  | .ok _ =>
    match s.fillAll [(s.lane0, off)] n 2048 with
    | .error st => .error st
    | .ok (false, s) => .ok (s.blockOn .remote)
    | .ok (true, s) => k s

/-- SWINIT (11 R240): one larder step after the group's earlier stores. -/
def execSwinit (b a : Reg) (e : Bool) (s : State) : Out :=
  s.runEnd avHome [sref a, sref b]
    (let off := (s.g.sreg a.toNat).toNat
     s.fillWord off 16 16 fun s =>
       .ok ((s.enqueue s.cur.gid [{ s.uniOp 0 (.swinit (s.g.sreg b.toNat).toNat) with tgt := .larder off, va := off }]).retire e))

/-- GEN has reached or passed a generation (11 R240). -/
def genReached (gen want : Nat) : Bool := decide ((gen + 2 ^ 32 - want) % 2 ^ 32 < 2 ^ 31)

/-- SWWAIT (11 R240): where it ends it acquires, at CLUSTER scope for the words of an SDRN (10 R183). -/
def execSwwait (b a : Reg) (e : Bool) (s : State) : Out :=
  s.runEnd avHome [sref a, sref b]
    (let off := (s.g.sreg a.toNat).toNat
     let want := (s.g.sreg b.toNat).toNat
     s.fillWord off 16 16 fun s =>
       let (bs, _, t) := s.readAt s.cur.gid (.larder (off + 8)) 4
       if genReached (leNat bs) want then .ok (((t.l1Acquire t.g.place).raceTick t.cur.gid t.batch.length).retire e)
       else .ok (s.blockOn (.swwait off want)))

/-! ### Sync words (09 R167) -/

/-- Bytes of a copy have landed and await their count. -/
def State.landed (s : State) (tid job sync n : Nat) : State :=
  if sync = 0xFFFF then s else s.setT tid fun t => { t with arrivals := t.arrivals ++ [(job, 16 * sync, n)] }

/-- SYNC_WORD_ARRIVAL (09 R167): the team's oldest landed bytes are counted as one larder step. -/
def execSyncWordArrival (tid : Nat) (s : State) : Out :=
  .next (match (s.team tid).arrivals with
    | [] => s
    | (j, w, n) :: as =>
      let s := (s.ownCount tid w n).setT tid fun t => { t with arrivals := as }
      { s with engines := s.engines.map fun e =>
          match e.2.job with | some k => if k.id = j then (e.1, { e.2 with job := some { k with counted := k.counted + n } }) else e | none => e })

/-! ### Taking a COPY packet (11 R232; 13 R258, R259) -/

/-- The group whose copy a slot of a queue holds, with its batch (10 R188). -/
def State.copyOwner (s : State) (q idx : Nat) : Option (Nat × Nat) :=
  firstSome (fun (e : Nat × Group) => (e.2.copies.find? fun c => c.1 == q && c.2.1 == idx).map fun c => (e.1, c.2.2)) s.groups

/-- A copy has ended or been abandoned: its batch no longer waits for it (10 R188; 17 R338). -/
def State.copyEnded (s : State) (gid q idx : Nat) : State :=
  if thas s.groups gid then s.setG gid fun g => { g with copies := g.copies.filter fun c => !(c.1 == q && c.2.1 == idx) } else s

/-- A copy was refused: it ends no batch, and no retirement waits for it (10 R188). -/
def State.copyRefused (s : State) (own : Option (Nat × Nat)) (q idx : Nat) : State :=
  match own with
  | some (gid, _) =>
    s.setG gid fun g => { g with copies := g.copies.map fun c => if c.1 = q ∧ c.2.1 = idx then (512 + q, c.2) else c }
  | none => s

/-- The first reserved field of a COPY packet that is nonzero (11 Table 11.4; 13 R259). -/
def copyReserved (b : List Byte) (core : Bool) : Option Nat :=
  let op := fieldAt b 1 1
  let sp := fieldAt b 2 1
  let ss := sp % 4
  let ds := sp / 4 % 4
  let ok1 := op ≤ 2
  let ok2 := ss != 3 && ds != 3 && sp / 128 == 0 && (ss == 2 || sp / 16 % 8 == 0) && (op == 0 || (op == 1 && sp == 4) || (op == 2 && sp == 1))
  let ok3 := fieldAt b 3 1 / 8 == 0 && (ds == 2 || fieldAt b 3 1 == 0)
  if !ok1 then some 1
  else if !ok2 then some 2
  else if !ok3 then some 3
  else
    match firstNonzero b ([if op = 0 then (4, 2) else (0x18, 4), (0x1C, 4)] ++ if core then [] else [(0x30, 4), (0x34, 4)]) with
    | some o => some o
    | none => if core && fieldAt b 0x33 1 / 16 != 0 then some 0x30 else firstNonzero b [(0x3C, 4)]

/-- The idle engine that takes the next copy: the lowest (01 R13). -/
def State.idleEngine (s : State) : Option Nat :=
  (List.range 32).find? fun e => (s.engine e).job.isNone && !(s.engine e).withdrawn

/-- A copy's ends: global addresses are looked at where they begin (13 Table 13.3 code 6). -/
def copyGlobals (b : List Byte) : List (Nat × Bool) :=
  let sp := fieldAt b 2 1
  (if sp % 4 = 0 then [(fieldAt b 8 8, false)] else []) ++ (if sp / 4 % 4 = 0 then [(fieldAt b 0x10 8, true)] else [])

/-- The refusal of a copy's addresses: a cause, or a stall on MOVING. -/
def State.copyPlaces (s : State) (ctx : Nat) : List (Nat × Bool) → HeadRead
  | [] => .none
  | (va, w) :: xs =>
    if !s.isLocal va then s.copyPlaces ctx xs
    else
      match s.ownPlace ctx va w with
      | .ok _ => s.copyPlaces ctx xs
      | .bad c => .bad c va
      | .moving => .moving va
      | .cut => .cut

/-- A copy of a team that is out or being saved, not yet started, is saved as a record where it uses the team's larder (13 R269). -/
def State.savesCopy (s : State) (gid : Nat) (b : List Byte) : Bool :=
  let t := s.team (s.grp gid).tid
  gid != 0 && (t.phase == .swapped || t.saving.isSome) && (fieldAt b 2 1 % 4 == 1 || fieldAt b 2 1 / 4 % 4 == 1)

/-! ### The engines (10 R187; 11 R234, R235; 17 R338) -/

/-- A field of a copy's packet. -/
def CopyJob.f (j : CopyJob) (off n : Nat) : Nat := fieldAt j.pkt off n
/-- OP of a copy. -/
def CopyJob.op (j : CopyJob) : Nat := j.f 1 1
/-- Bytes a copy covers: LENGTH, or the dense tile. -/
def CopyJob.total (j : CopyJob) : Nat := if j.op = 0 then j.f 0x18 4 else shBytes j.shape
/-- Source space, die and destination space, die. -/
def CopyJob.srcEnd (j : CopyJob) : CopyEnd := { space := j.f 2 1 % 4, off := j.f 8 8, die := j.f 2 1 / 16 % 8 }
/-- Destination of a copy. -/
def CopyJob.dstEnd (j : CopyJob) : CopyEnd := { space := j.f 2 1 / 4 % 4, off := j.f 0x10 8, die := j.f 3 1 % 8 }

/-- The tile indices of a byte of the dense tile: i0 with its byte, i1, i2, i3 (11 R234). -/
def tileIndex (r : List Byte) (pos : Nat) : Nat × Nat × Nat × Nat × Nat :=
  let row := pos / shRow r
  (pos % shRow r / shEsize r, pos % shEsize r, row % shTile r 1, row / shTile r 1 % shTile r 2, row / shTile r 1 / shTile r 2)

/-- The tensor address of a byte of the dense tile; none where its element lies beyond DIM (11 R234, R235). -/
def CopyJob.tensorAt (j : CopyJob) (base pos : Nat) : Option Nat :=
  let r := j.shape
  let c (d : Nat) := j.f (0x20 + 4 * d) 4
  let (i0, b, i1, i2, i3) := tileIndex r pos
  if c 0 + i0 < shDim r 0 ∧ c 1 + i1 < shDim r 1 ∧ c 2 + i2 < shDim r 2 ∧ c 3 + i3 < shDim r 3 then
    some ((base + (c 0 + i0) * shEsize r + b + (c 1 + i1) * shStride r 1 + (c 2 + i2) * shStride r 2 + (c 3 + i3) * shStride r 3) % 2 ^ 64)
  else none

/-- Where byte k of a copy comes from, none where zero is written, and where it goes, none where nothing is (11 R235). -/
def CopyJob.byteAt (j : CopyJob) (k : Nat) : Option Nat × Option Nat :=
  if j.op = 0 then (some (j.srcEnd.off + k), some (j.dstEnd.off + k))
  else if j.op = 1 then (j.tensorAt j.srcEnd.off k, some (j.dstEnd.off + k))
  else match j.tensorAt j.dstEnd.off k with | some a => (some (j.srcEnd.off + k), some a) | none => (none, none)

/-- The destination line of byte k. -/
def CopyJob.lineAt (j : CopyJob) (k : Nat) : Option Nat := (j.byteAt k).2.map (· / 256)

/-- The bytes of a copy that are written with byte k, as one event: those of its destination line from k on (10 R187). A tile store's line may take
bytes of several rows. -/
def CopyJob.event (j : CopyJob) (k : Nat) : List Nat :=
  if j.op < 2 then (List.range (min (256 - (j.dstEnd.off + k) % 256) (j.total - k))).map (· + k)
  else ((List.range (j.total - k)).map (· + k)).filter fun i => (j.lineAt i).isSome && j.lineAt i == j.lineAt k

/-- The first byte after k whose destination line no byte before it has, or the end. -/
def CopyJob.nextFrom (j : CopyJob) (k : Nat) : Nat :=
  if j.op < 2 then k + (j.event k).length
  else ((List.range j.total).find? fun i => decide (k < i) && (j.lineAt i).isSome && !((List.range i).any fun h => j.lineAt h == j.lineAt i)).getD j.total

/-- The global lines that a copy writes. -/
def CopyJob.lines (j : CopyJob) : List Nat :=
  if j.dstEnd.space ≠ 0 then []
  else if j.op < 2 then (List.range ((j.dstEnd.off + j.total + 255) / 256 - j.dstEnd.off / 256)).map (· + j.dstEnd.off / 256)
  else distinct ((List.range j.total).filterMap j.lineAt)

/-- A failure at an engine's access: CODE, ADDR, DETAIL, and whether it freezes the context. -/
structure EngFault where
  code : Nat
  addr : Nat
  detail : Nat
  freezes : Bool := false
  deriving DecidableEq, Repr

/-- How a place of an engine's access comes out. -/
inductive EngPlace where
  | at (t : Target)
  | remote (va : Nat)
  | fault (f : EngFault)
  | moving
  /-- behind a link that is down -/
  | cut
  /-- the team's larder is gone -/
  | gone
  deriving DecidableEq, Repr

/-- The place of a byte of a space for a copy of a context, team and die (09 R168; 11 R232; 16 R316). -/
def State.engPlace (s : State) (die ctx tid : Nat) (x : CopyEnd) (a : Nat) (write : Bool) : EngPlace :=
  if x.space = 1 then (if (s.team tid).phase = .resident then .at (.larder a) else .gone)
  else if x.space = 2 then
    let w := tget (0, 0) (s.ctx ctx).loft x.die
    if a < w.2 then .at (.loft x.die (w.1 + a)) else .fault { code := tBOUNDS, addr := a, detail := 256 * 3 }
  else if !s.isLocal a then .remote a
  else
    match s.xlate die ctx a (if write then .write else .read) true with
    | .ok t _ => .at t
    | .moving l => if l = 0 then .cut else .moving
    | .replay r l => .fault { code := if r = 8 then 0x15 else 8, addr := a, detail := r + 256 * l }
    | .prot u => .fault { code := tPROT, addr := a, detail := 256 * 7 + 65536 * b2n u, freezes := u }

/-- Bytes of a source as an engine reads them at their place, with the 8-byte units that carry poison. -/
def State.engRead (s : State) (tid : Nat) (t : Target) (n : Nat) : List Byte × Bool :=
  match t with
  | .larder off => ((s.team tid).lread off n, (s.team tid).lbad off n)
  | .loft d p => (mreads (s.die d).loft p n, (s.die d).loftBad p n)
  | .dev pa _ => (s.homeRead pa n, s.homePoison pa n)
  | .host pa => (s.hostRead pa n, s.hostBad pa n)
  | _ => ([], false)

/-- Source bytes from a line on, clipped to what the copy may read there: units of 64 bytes of the line. -/
def SrcBuf.addLine (b : SrcBuf) (units : List (Nat × List Byte × Bool)) : SrcBuf :=
  units.foldl (fun b u =>
    { b with bytes := (cellsOf u.1 (fullMask u.2.1) u.2.1).foldl (fun t c => tput t c.1 c.2) b.bytes,
             bad := if u.2.2 then b.bad ++ [u.1 / 64] else b.bad }) b

/-- The failing sectors of a source let through as poison under DISP 0 (17 R338): the line that could not be read, or the units of poison that the
fault met first. -/
def SrcBuf.letGo (b : SrcBuf) (as : List Nat) : SrcBuf :=
  match as.find? fun a => !thas b.bytes a with
  | some a =>
    let line := a / 256
    let b := b.addLine ((List.range 4).map fun k => (256 * line + 64 * k, List.replicate 64 0, true))
    { b with known := b.known ++ (List.range 4).map (4 * line + ·) }
  | none =>
    match as.find? fun a => b.bad.contains (a / 64) && !b.known.contains (a / 64) with
    | some a => { b with known := b.known ++ [a / 64] }
    | none => b

/-- The buffer holds a byte. -/
def SrcBuf.has (b : SrcBuf) (a : Nat) : Bool := thas b.bytes a

/-- A source line read once, whole, as one event (10 R187): its four units. A larder or loft source is read within `lim`. -/
def State.readLine (s : State) (tid : Nat) (t : Target) (a lim : Nat) : List (Nat × List Byte × Bool) :=
  let line := a / 256 * 256
  (List.range 4).filterMap fun k =>
    let lo := line + 64 * k
    let n := min 64 (lim - lo)
    if n = 0 then none
    else
      let u : Target := match t with
        | .larder o => .larder (o - a + lo)
        | .loft d p => .loft d (p + lo - a)
        | .dev pa pol => .dev (pa + lo - a) pol
        | .host pa => .host (pa + lo - a)
        | t => t
      let (bs, bad) := s.engRead tid u n
      some (lo, bs, bad)

/-- What getting an event's source bytes came to. -/
inductive Fetched where
  | have (b : SrcBuf)
  | ask (line : Nat)
  | wait
  | fault (f : EngFault)
  | moving (addr : Nat)
  | gone
  deriving DecidableEq, Repr

/-- The link from a die to the place of a copy's access is down: of a larder, to the die of its team's core (01 R11; 17 R344). -/
def State.engCut (s : State) (die tid : Nat) (t : Target) : Bool :=
  match t with | .larder _ => s.cut die (dieOfCore (s.team tid).core) | t => s.cutTo die t

/-- The larder lines that a copy's source read has brought in since `old` are read: subscribed slots among them have been seen (10 R191). -/
def State.srcSeen (s : State) (tid : Nat) (x : CopyEnd) (old new : SrcBuf) : State :=
  if x.space = 1 then
    s.setT tid fun t => (distinct ((new.bytes.filter fun e => !thas old.bytes e.1).map (·.1 / 256))).foldl (fun t l => t.sees (256 * l) 256) t
  else s

/-- The source lines of the bytes at a list of addresses are in the buffer, each read once; `fuel` bounds the lines. -/
def State.fetchSrc (s : State) (die ctx tid : Nat) (x : CopyEnd) (lim : Nat) (as : List Nat) (b : SrcBuf) : Nat → Fetched
  | 0 => .have b
  | fuel + 1 =>
    match as.find? fun a => !b.has a with
    | none => .have b
    | some c =>
      match s.engPlace die ctx tid x c false with
      | .at t => if s.engCut die tid t then .wait else s.fetchSrc die ctx tid x lim as (b.addLine (s.readLine tid t c lim)) fuel
      | .remote va => if b.asked.contains (va / 256) then .wait else .ask (va / 256)
      | .fault f => .fault f
      | .moving => .moving c
      | .cut => .wait
      | .gone => .gone

/-- The first byte that a copy may not read: the end of its larder or loft range. -/
def State.srcLimit (s : State) (ctx tid : Nat) (x : CopyEnd) : Nat :=
  if x.space = 1 then (s.team tid).larderSize else if x.space = 2 then (tget (0, 0) (s.ctx ctx).loft x.die).2 else 2 ^ 64

/-- PC of a KIND 0x03 record: the packet's queue and slot (17 Table 17.2). -/
def CopyJob.where_ (j : CopyJob) : Nat := j.queue % 256 + 2 ^ 32 * (j.slot % 2 ^ 32)

/-- An engine's fault (11 R236; 16 R324; 17 R338): a KIND 0x03 record, or a freeze that also withdraws the engine. -/
def State.engFault (s : State) (e : Nat) (j : CopyJob) (f : EngFault) : State :=
  if f.freezes then
    (s.freezeCtx (e / 4) j.ctx 3 1 (engineWho e % 2 ^ 19) j.where_ f.addr f.detail).setE e fun k => { k with withdrawn := true }
  else
    let s := s.setE e fun k => { k with job := some { j with stuck := true } }
    s.postHeld { die := e / 4, job := some j.id, bytes := faultBytes 3 f.code j.ctx false (engineWho e) j.where_ f.addr f.detail }

/-- The start of a stall on MOVING at an address, which each page counts from its own first look (16 R315): the new record, and whether 100 µs have
passed. -/
def pageStall (since : Option (Nat × Nat)) (now addr : Nat) : Option (Nat × Nat) × Bool :=
  match since with
  | some (p, t) => if p = addr / 65536 then (since, decide (t + movingLimit ≤ now)) else (some (addr / 65536, now), false)
  | none => (some (addr / 65536, now), false)

/-- A copy's stall on MOVING goes on, or ends after 100 µs as a page that is not resident (16 R315). -/
def State.engStall (s : State) (e : Nat) (j : CopyJob) (addr : Nat) : State :=
  match pageStall j.since s.now addr with
  | (since, false) => s.setE e fun k => { k with job := some { j with since := since } }
  | (_, true) => s.engFault e { j with since := none } { code := 8, addr := addr, detail := 2 }

/-- Runs of bytes at consecutive ascending addresses. -/
def cellRuns : List Host.Cell → List (Nat × List Byte)
  | [] => []
  | c :: cs =>
    match cellRuns cs with
    | (b, bs) :: rs => if b = c.1 + 1 then (c.1, c.2 :: bs) :: rs else (c.1, [c.2]) :: (b, bs) :: rs
    | [] => [(c.1, [c.2])]

/-- Bytes of a copy written as one event at offsets from a place, those of failing sectors as poison (17 R338, R344). -/
def State.engWrite (s : State) (tid : Nat) (t : Target) (cs : List Host.Cell) (bad : List Nat) : State :=
  match t with
  | .larder off =>
    s.setT tid fun k =>
      let k := (cellRuns cs).foldl (fun k r => k.lwrite (off + r.1) r.2) k
      { k with larderPoison := k.larderPoison ++ distinct (bad.map fun b => (off + b) / 8) }
  | .loft d p =>
    s.setD d fun k =>
      let k := (cellRuns cs).foldl (fun k r => k.loftWrite (p + r.1) r.2) k
      { k with loftPoison := k.loftPoison ++ distinct (bad.map fun b => (p + b) / 8) }
  | .dev pa pol =>
    let s := s.homeCells pol (cs.map fun c => (pa + c.1, c.2))
    ((cellRuns cs).foldl (fun s r => s.raceReset (pa + r.1) r.2.length) s).poisonSectors (distinct (bad.map fun b => (pa + b) / 64))
  | .host pa =>
    let s := s.hostCells (cs.map fun c => (pa + c.1, c.2))
    let s := (cellRuns cs).foldl (fun s r => s.raceReset (2 ^ 46 + pa + r.1) r.2.length) s
    { s with hostPoison := (distinct (bad.map fun b => (pa + b) / 64)).foldl withSector s.hostPoison }
  | _ => s

/-! ### Ownership of destination lines (10 R187) -/

/-- An engine takes a line exclusively: every L2's copy goes. A line that another engine owns it takes only when it writes it. -/
def State.ownLine (s : State) (e line : Nat) : State :=
  let d := s.dirOf line
  match d.owner with
  | some (.engine _) => s
  | _ =>
    let s := ((List.range 8).filter fun k => d.sharers.getLsbD k).foldl (fun s k => s.setD k fun k => { k with l2 := k.l2.filter (· != line) }) s
    s.setDir line { owner := some (.engine e) }

/-- An engine's ownership of a line ends with its write. -/
def State.disown (s : State) (e line : Nat) : State :=
  if (s.dirOf line).owner = some (.engine e) then s.setDir line { s.dirOf line with owner := none } else s

/-- An engine owns nothing any more. -/
def State.disownAll (s : State) (e : Nat) : State :=
  (s.dir.filter fun x => x.2.owner == some (.engine e)).foldl (fun s x => s.disown e x.1) s

/-- A copy starts: the engine takes exclusive ownership of its destination lines, those whose page is there to be found (10 R187). -/
def State.engStart (s : State) (e : Nat) (j : CopyJob) : State :=
  let s := s.setE e fun k => { k with job := some { j with engine := some e, startedAt := s.now } }
  j.lines.foldl (fun s l =>
    match s.engPlace (e / 4) j.ctx j.tid j.dstEnd (256 * l) true with
    | .at (.dev pa _) => s.ownLine e (pa / 256)
    | _ => s) s

/-- The engine is free. -/
def State.engFree (s : State) (e : Nat) : State := (s.setE e fun k => { k with job := none }).disownAll e

/-- The copy has written all its bytes, or is abandoned: the engine is free, and its batch no longer waits (10 R188; 17 R338). -/
def State.engDone (s : State) (e : Nat) (j : CopyJob) : State := (s.engFree e).copyEnded j.gid j.queue j.slot

/-- The copy goes on with the next event, or is done. -/
def State.engNext (s : State) (e : Nat) (j : CopyJob) : State :=
  let j := { j with pos := j.nextFrom j.pos, since := none }
  if j.total ≤ j.pos then s.engDone e j else s.setE e fun k => { k with job := some j }

/-- A request of an engine to another module; it holds back no core. -/
def State.engAsk (s : State) (e : Nat) (j : CopyJob) (p : Packet) (u : ReqUse) : State :=
  s.request { tag := 0, core := 1024 + e, die := e / 4, ctx := j.ctx, use := u, pkt := p, issue := { pc := BitVec.ofNat 64 j.where_ } }

/-- A line's bytes sent to another module as one event, in one packet, which names its failing sectors (10 R187; 17 R338; DESIGN CHOICE, log 126). -/
def State.engSend (s : State) (e : Nat) (j : CopyJob) (va : Nat) (cs : List Host.Cell) (bad : List Nat) : State :=
  let sectors := maskOf (distinct (bad.map fun b => b % 256 / 64))
  let s := s.setE e fun k => { k with job := some { j with flying := 1, lands := 0, redo := false, since := none } }
  s.engAsk e j { kind := 2, flags := if bad.isEmpty then 0 else 4, va := BitVec.ofNat 64 (va / 256 * 256), aux := BitVec.ofNat 64 sectors,
                 payload := writePayload (cs.map fun c => (c.1 % 256, c.2)) } (.copyWrite j.id cs.length)

/-- The next event of a copy, its source bytes in the buffer: written at its place (10 R187; 11 R233 to R235). Poison that has not been let through is
a fault (11 R236; 17 R338). -/
def State.engPut (s : State) (e : Nat) (j : CopyJob) : State :=
  let b := j.buf
  let ks := j.event j.pos
  let cells := ks.filterMap fun k => match j.byteAt k with
    | (some a, some d) => some (d, tget 0 b.bytes a, b.bad.contains (a / 64), a)
    | (none, some d) => some (d, (0 : Byte), false, 0)
    | (_, none) => none
  match cells with
  | [] => s.engNext e j
  | c0 :: _ =>
    match cells.find? fun c => c.2.2.1 && !b.known.contains (c.2.2.2 / 64) with
    | some c => s.engFault e j { code := tPOISON, addr := c.2.2.2, detail := 0 }
    | none =>
      let lo := cells.foldl (fun m c => min m c.1) c0.1
      let cs := cells.foldl (fun l c => l2put l (c.1 - lo, c.2.1)) []
      let bad := (cells.filter fun c => c.2.2.1 || j.spoil == some j.pos).map fun c => c.1 - lo
      match s.engPlace (e / 4) j.ctx j.tid j.dstEnd lo true with
      | .gone => s.engDone e j
      | .fault f => s.engFault e j f
      | .moving => s.engStall e j lo
      | .cut => s.setE e fun k => { k with job := some j }
      | .at t =>
        if s.engCut (e / 4) j.tid t then s.setE e fun k => { k with job := some j }
        else
          let s := (s.engWrite j.tid t cs bad).landed j.tid j.id (j.f 6 2) cs.length
          let s := match t with | .dev pa _ => s.disown e (pa / 256) | _ => s
          s.engNext e j
      | .remote va => s.engSend e j va (cs.map fun c => (va % 256 + c.1, c.2)) (bad.map (va % 256 + ·))

/-- One step of an engine: the next event's source read, each line once, then the event written (10 R187). A line written to another module is answered
before the next is sent. -/
def State.engStep (s : State) (e : Nat) (j : CopyJob) : State :=
  if j.flying ≠ 0 then s
  else if j.total ≤ j.pos then s.engDone e j
  else
    let as := (j.event j.pos).filterMap fun k => (j.byteAt k).1
    match s.fetchSrc (e / 4) j.ctx j.tid j.srcEnd (s.srcLimit j.ctx j.tid j.srcEnd) as j.buf (as.length + 1) with
    | .gone => s.engDone e j
    | .wait => s
    | .fault f => s.engFault e j f
    | .moving a => s.engStall e j a
    | .ask l =>
      let j := { j with buf := { j.buf with asked := j.buf.asked ++ [l] } }
      (s.setE e fun k => { k with job := some j }).engAsk e j { kind := 1, va := BitVec.ofNat 64 (256 * l), aux := 256 } (.copyRead j.id l)
    | .have b => (s.srcSeen j.tid j.srcEnd j.buf b).engPut e { j with buf := b }

/-- COPY_PACKET (11 R232): checks, then the copy goes to the lowest idle engine (DESIGN CHOICE, log 125); with none idle the packet stays in its ring. A refused copy never writes its
bytes, so its batch stays unfinished (10 R188). -/
def execCopyPacket (q : Nat) (s : State) : Out :=
  queueOk s q (s.takeKind q (· == 1) fun s t =>
    let ctx := (s.queue q).ctx
    let b := t.bytes
    let own := s.copyOwner q t.idx
    let sp := fieldAt b 2 1
    match copyReserved b own.isSome with
    | some o => (s.refusePacket q t 1 o).copyRefused own q t.idx
    | none =>
      if own.isNone && (sp % 4 == 1 || sp / 4 % 4 == 1) then s.refusePacket q t 4 0
      else
        let shape := s.shapeRecord ctx (fieldAt b 4 2)
        if fieldAt b 1 1 != 0 && shape.isNone then (s.refusePacket q t 5 0).copyRefused own q t.idx
        else
          match s.copyPlaces ctx (copyGlobals b) with
          | .bad c _ => (s.refusePacket q t 6 c).copyRefused own q t.idx
          | .moving va => (match s.queueStall q va with | (true, s) => (s.refusePacket q t 6 2).copyRefused own q t.idx | (false, s) => s)
          | .cut => s
          | _ =>
            let gid := match own with | some (g, _) => g | none => 0
            if s.savesCopy gid b then
              (s.freePacket q t).setT (s.grp gid).tid fun k =>
                { k with savedCopies := k.savedCopies ++ [(b, (own.map (·.2)).getD 0, gid, q, t.idx, if fieldAt b 1 1 = 0 then [] else shape.getD [])] }
            else
            match s.idleEngine with
            | none => s
            | some e =>
              let (n, s) := (s.freePacket q t).newId
              let job : CopyJob := {
                id := n, queue := q, slot := t.idx, ctx := ctx, pkt := b, gid := gid, batch := (own.map (·.2)).getD 0, tid := (s.grp gid).tid,
                shape := if fieldAt b 1 1 = 0 then [] else shape.getD [] }
              s.engStart e job)

/-- COPY_LINE_WRITE (10 R187): one step of an engine's copy; an idle engine takes a copy that was queued again (13 R269). -/
def execCopyLineWrite (engine : Nat) (s : State) : Out :=
  unitStep s (decide (engine < 32))
    (match (s.engine engine).job with
     | some j => if j.stuck || (s.engine engine).withdrawn || (s.ctx j.ctx).phase != .active then s else s.engStep engine j
     | none =>
       match s.jobs.find? fun j => (s.ctx j.ctx).phase == .active && !s.savesCopy j.gid j.pkt with
       | some j =>
         if (s.engine engine).withdrawn then s
         else State.engStart { s with jobs := s.jobs.filter fun k => k.id != j.id } engine j
       | none => s)

/-! ### The shelf (10 R189; 11 R237, R238) -/

/-- A receiver's bit is taken; the slot frees when none is left (10 R189). -/
def Cluster.takeBit (c : Cluster) (slot k : Nat) : Cluster :=
  let z := tget { tag := 0, mask := 0, grid := 0, data := [] } c.shelf slot
  let m := z.mask &&& (255 - 2 ^ k)
  { c with shelf := if m = 0 then tdel c.shelf slot else tput c.shelf slot { z with mask := m } }

/-- A slot delivered into the team's larder and counted (11 R238); bytes past the allocation go nowhere. -/
def State.deliver (s : State) (cluster : Nat) (d : Drain) (k : Nat) (z : ShelfSlot) : State :=
  let g := s.grp d.gid
  let bs := z.data.take ((s.team g.tid).larderSize - d.off)
  let s := s.setT g.tid fun t => t.lwrite d.off bs
  let s := s.setT g.tid fun t => { t with larderPoison := t.larderPoison ++ z.bad.flatMap fun u => (List.range 8).map fun i => d.off / 8 + 8 * u + i }
  let s := s.setCl cluster fun c => { c.takeBit k (g.place % 8) with drains := c.drains.filter fun q => q.ret != d.ret }
  (s.landed g.tid 0 (syncField d.sync) bs.length).setG d.gid fun g => g.oneDone d.ret

/-- A CPYM whose source is read is parked: bits whose core holds no team of the grid are cleared (11 R237). -/
def State.park (s : State) (cluster : Nat) (p : Park) : State :=
  let mask := (List.range 8).foldl (fun m k => if bitOf p.mask k && (s.teamOn p.grid cluster k).isSome then m + 2 ^ k else m) 0
  let data := (List.range p.len).map fun i => tget 0 p.buf.bytes (p.src + i)
  let bad := (List.range (p.len / 16 + 3)).filter fun u => p.buf.bad.any fun q => overlaps (p.src + 64 * u) 64 (64 * q) 64 && decide (64 * u < p.len)
  let (n, s) := s.newId
  let s := s.setCl cluster fun c =>
    let k := ((List.range 64).find? fun k => !thas c.shelf k).getD 0
    { c with parks := c.parks.filter fun q => q.ret != p.ret,
             shelf := if mask = 0 then c.shelf else tput c.shelf k { tag := p.tag, mask := mask, grid := p.grid, data := data, bad := bad, order := n } }
  if thas s.groups p.gid then (s.setG p.gid fun g => g.oneDone p.ret).copyEnded p.gid 256 p.ret else s

/-- A CPYM of a cluster changed. -/
def State.setPark (s : State) (cluster : Nat) (p : Park) : State :=
  s.setCl cluster fun c => { c with parks := c.parks.map fun q => if q.ret = p.ret then p else q }

/-- The instruction of a CPYM under way. -/
def State.parkIssue (s : State) (p : Park) : Issue := match (s.grp p.gid).ret? p.ret with | some r => r.issue | none => {}

/-- A fault of a CPYM's source read (11 R236; 16 R324): reported for its group, at its instruction, as a copy fault. -/
def State.parkFault (s : State) (cluster : Nat) (p : Park) (f : EngFault) : State :=
  let die := dieOfCluster cluster
  let who := (s.grp p.gid).who
  let pc := (s.parkIssue p).pc.toNat
  if f.freezes then s.freezeCtx die p.ctx 3 0 who pc f.addr f.detail
  else
    (s.setPark cluster { p with stuck := true }).postHeld
      { die := die, park := some (cluster, p.ret), bytes := faultBytes 3 f.code p.ctx false who pc f.addr f.detail }

/-- A CPYM's stall on MOVING goes on, or ends after 100 µs as a page that is not resident (16 R315). -/
def State.parkStall (s : State) (cluster : Nat) (p : Park) (addr : Nat) : State :=
  match pageStall p.since s.now addr with
  | (since, false) => s.setPark cluster { p with since := since }
  | (_, true) => s.parkFault cluster { p with since := none } { code := 8, addr := addr, detail := 2 }

/-- One step of a CPYM's source read, or its parking. -/
def State.parkStep (s : State) (cluster : Nat) (p : Park) : State :=
  let x : CopyEnd := { space := if p.lar then 1 else 0, off := p.src }
  match s.fetchSrc (dieOfCluster cluster) p.ctx p.tid x (s.srcLimit p.ctx p.tid x) ((List.range p.len).map (· + p.src)) p.buf 130 with
  | .gone => s.setCl cluster fun c => { c with parks := c.parks.filter fun q => q.ret != p.ret }
  | .wait => s
  | .fault f => s.parkFault cluster p f
  | .moving a => s.parkStall cluster p a
  | .ask l =>
    (s.setPark cluster { p with since := none, buf := { p.buf with asked := p.buf.asked ++ [l] } }).request
      { tag := 0, core := 2048 + cluster, die := dieOfCluster cluster, ctx := p.ctx, use := .parkRead cluster p.ret l, issue := s.parkIssue p,
        pkt := { kind := 1, va := BitVec.ofNat 64 (256 * l), aux := 256 } }
  | .have b =>
    let s := s.srcSeen p.tid x p.buf b
    match b.bad.find? fun u => overlaps p.src p.len (64 * u) 64 && !b.known.contains u with
    | some u => s.parkFault cluster { p with buf := b } { code := tPOISON, addr := 64 * u, detail := 0 }
    | none => s.park cluster { p with buf := b }

/-- SHELF_PARK (11 R237, R238): the first SDRN that finds a slot is served, else the first CPYM goes on. -/
def execShelfPark (cluster : Nat) (s : State) : Out :=
  unitStep s (decide (cluster < 128))
    (match firstSome (fun d => (s.drainSlot cluster d).map fun z => (d, z)) (s.cluster cluster).drains with
     | some (d, k, z) => s.deliver cluster d k z
     | none =>
       match (s.cluster cluster).parks.find? fun p => p.armed && !p.stuck && (s.ctx p.ctx).phase == .active with
       | some p => s.parkStep cluster p
       | none => s)

end Sys2Proof.Machine
end

