-- ==== Sys2Proof/Machine/Launch.lean ====
section
/-! DEFINITION. Launches: the record and its checks, dependence words, LAUNCH packets and instructions, and the child-launch aggregator (05 R97;
13 R259 to R263, R270; 15 R295). -/
namespace Sys2Proof.Machine

/-! ### The launch record (13 R260, Tables 13.4 to 13.6) -/

/-- A role entry of a launch record. -/
structure Role where
  groups : Nat
  sregs : Nat
  vregs : Nat
  tiles : Nat
  entry : Nat
  deriving DecidableEq, Repr

/-- Role entry r of a record (13 Table 13.5). -/
def roleOf (b : List Byte) (r : Nat) : Role :=
  let o := 0x40 + 16 * r
  { groups := fieldAt b o 1, sregs := fieldAt b (o + 1) 1, vregs := fieldAt b (o + 2) 2, tiles := fieldAt b (o + 4) 1, entry := fieldAt b (o + 8) 4 }

/-- The roles of a record, at most four. -/
def rolesOf (b : List Byte) : List Role := (List.range (Nat.min 4 (fieldAt b 0x21 1))).map (roleOf b)

/-- Groups of a team. -/
def groupsOf (b : List Byte) : Nat := ((rolesOf b).map (·.groups)).foldl (· + ·) 0

/-- A number rounded up to a multiple. -/
def ceilTo (m n : Nat) : Nat := (n + m - 1) / m * m

/-- What a team takes of a core and its cluster (13 R262). -/
structure Demand where
  slots : Nat := 0
  rows : Nat := 0
  sfile : Nat := 0
  tiles : Nat := 0
  larder : Nat := 0
  zt : Nat := 0
  bins : Nat := 0
  queues : Nat := 0
  seq : Nat := 0
  deriving DecidableEq, Repr

/-- The demand of one team of a record (13 R262). -/
def demandOf (b : List Byte) : Demand :=
  let w := fieldAt b 0x20 1
  let sum (f : Role → Nat) := ((rolesOf b).map fun r => r.groups * f r).foldl (· + ·) 0
  { slots := groupsOf b * (w / 32), rows := sum fun r => ceilTo 8 r.vregs * (w / 32), sfile := sum fun r => ceilTo 4 r.sregs,
    tiles := sum (·.tiles), larder := ceilTo 4096 (fieldAt b 0x28 4), zt := fieldAt b 0x2C 1, bins := fieldAt b 0x2E 1, queues := fieldAt b 0x2D 1,
    seq := b2n (fieldAt b 8 8 != 0) }

/-- Two demands together. -/
def Demand.add (a b : Demand) : Demand :=
  { slots := a.slots + b.slots, rows := a.rows + b.rows, sfile := a.sfile + b.sfile, tiles := a.tiles + b.tiles, larder := a.larder + b.larder,
    zt := a.zt + b.zt, bins := a.bins + b.bins, queues := a.queues + b.queues, seq := a.seq + b.seq }

/-- Limits of a core (13 R262). -/
def Demand.coreFits (a : Demand) : Bool :=
  decide (a.slots ≤ 64 ∧ a.rows ≤ 4096 ∧ a.sfile ≤ 4096 ∧ a.tiles ≤ 128 ∧ a.larder ≤ 393216)
/-- Limits of a cluster (13 R262). -/
def Demand.clusterFits (a : Demand) : Bool := decide (a.zt ≤ 8 ∧ a.bins ≤ 128 ∧ a.queues ≤ 64 ∧ a.seq ≤ 8)
/-- The team needs its cluster's matrix resources (17 R346). -/
def Demand.matrix (a : Demand) : Bool := a.zt != 0 || a.bins != 0 || a.seq != 0

/-- A die is permitted by DIEMASK (13 Table 13.4). -/
def dieAllowed (b : List Byte) (d : Nat) : Bool := fieldAt b 0x34 1 == 0 || bitOf (fieldAt b 0x34 1) d

/-- Some core in service of a permitted die holds the team when empty (13 Table 13.5 cause 6; 17 R346). -/
def State.everFits (s : State) (b : List Byte) : Bool :=
  let d := demandOf b
  d.coreFits && d.clusterFits &&
    (List.range 1024).any fun c => dieAllowed b (dieOfCore c) && !(s.core c).out && !(d.matrix && (s.cluster (clusterOfCore c)).matrixOut)

/-- The first cause of refusal code 3 that a record meets; causes are taken in the order of their numbers (13 Table 13.5). -/
def State.recordCause (s : State) (ctx : Nat) (b : List Byte) : Option Nat :=
  let f := fieldAt b
  let w := f 0x20 1
  let nr := f 0x21 1
  let fl := f 0x22 2
  let rs := rolesOf b
  let zeros (o n : Nat) : Bool := (sliceAt b o n).all (· == 0)
  let checks : List (Nat × Bool) :=
    [ (1, (w == 32 || w == 64) && decide (1 ≤ nr ∧ nr ≤ 4 ∧ 1 ≤ f 0x18 4 ∧ f 0x18 4 < 2 ^ 31 ∧ 1 ≤ f 0x1C 2 ∧ 1 ≤ f 0x1E 2)),
      (2, rs.all fun r => decide (1 ≤ r.groups ∧ r.groups ≤ 32 ∧ r.sregs ≤ 32 ∧ 1 ≤ r.vregs ∧ r.vregs ≤ 256 ∧ r.tiles ≤ 8)),
      (3, decide (groupsOf b * w ≤ 1024)),
      (4, decide (f 0x28 4 ≤ 393216 ∧ f 0x2C 1 ≤ 8 ∧ f 0x2D 1 ≤ 8 ∧ f 0x2E 1 ≤ 128 ∧ f 0x2F 1 % 8 = 0 ∧ f 0x2F 1 ≤ 248 ∧ 1 ≤ f 0xB8 4 ∧ f 0xB8 4 ≤ 4096) &&
        (let d := fl / 16 % 8
         if bitOf fl 2 then decide (1 ≤ d ∧ d ≤ 4) else d == 0)),
      (5, decide (128 * groupsOf b ≤ f 0x28 4)), (6, s.everFits b),
      (7, zeros 0x35 3 && zeros 0xBC 68 && decide (fl < 256 ∧ f 0x30 4 < 256) &&
        (List.range 4).all fun r => if r < nr then zeros (0x45 + 16 * r) 3 && zeros (0x4C + 16 * r) 4 else zeros (0x40 + 16 * r) 16),
      (8, decide (f 0 8 % 2 = 0 ∧ f 0x80 8 % 2 = 0 ∧ f 0x38 8 % 64 = 0 ∧ f 0x88 8 % 32 = 0 ∧ f 0x98 8 % 4 = 0 ∧ f 0xA0 8 % 4 = 0 ∧ f 0xA8 8 % 4 = 0) &&
        rs.all fun r => r.entry % 2 == 0),
      (9, (s.kernEntry ctx (f 0x24 4)).isSome), (10, f 8 8 == 0 || (f 0x2E 1 != 0 && f 0x2C 1 != 0)) ]
  (checks.find? fun c => !c.2).map (·.1)

/-! ### Acceptance (13 R260, R261) -/

/-- How the acceptance of a launch ends. -/
inductive Accept where
  /-- refusal code and cause -/
  | refused (code cause : Nat)
  /-- a stall on MOVING at an address -/
  | moving (va : Nat)
  /-- a stall behind a link, at an address -/
  | cut (va : Nat)
  | grid (g : Grid)

/-- How a failed place ends a launch (13 Table 13.3 code 6). -/
def Own.accept (o : Own) (va : Nat) : Accept :=
  match o with
  | .bad c => .refused 6 c
  | .moving => .moving va
  | .cut => .cut va
  | .ok _ => .cut va

/-- The eight format slots read one by one (05 R97); zero gives eight empty slots. -/
def State.launchSlots (s : State) (ctx va : Nat) : Nat → Except Accept (List Byte)
  | 0 => .ok []
  | n + 1 =>
    if va = 0 then .ok (List.replicate 512 0)
    else
      match s.ownPlace ctx va false with
      | .ok t => (match s.launchSlots ctx (va + 64) n with | .ok l => .ok (s.tgtRead t 64 ++ l) | .error e => .error e)
      | o => .error (o.accept va)

/-- The dependence words with their translations (13 R261). -/
def State.launchDeps (s : State) (ctx : Nat) : List (Nat × Nat) → Except Accept (List (Nat × Option Target × Nat))
  | [] => .ok []
  | d :: ds =>
    if d.1 = 0 then s.launchDeps ctx ds
    else
      match s.ownPlace ctx d.1 false with
      | .ok t => (match s.launchDeps ctx ds with | .ok l => .ok ((d.1, some t, d.2) :: l) | .error e => .error e)
      | o => .error (o.accept d.1)

/-- The crate masks of a kernel (04 R78): SMASK and VMASK of its KERNTAB entry. -/
def State.kernMasks (s : State) (ctx kh : Nat) : Nat × Nat :=
  match s.kernEntry ctx kh with | some e => (kernSmask e, kernVmask e) | none => (0, 0)

/-- A record read and checked once (13 R260), and with it the kernel's crate masks (04 R78): PARAM and GRIDX may be given in place of its own (15 R295). -/
def State.acceptLaunch (s : State) (ctx cls rec_ : Nat) (grid0 : Option (Nat × Nat)) : Accept :=
  if rec_ % 256 ≠ 0 then .refused 3 8
  else
    match s.ownPlace ctx rec_ false with
    | .bad c => .refused 6 c
    | .moving => .moving rec_
    | .cut => .cut rec_
    | .ok t =>
      let b := s.tgtRead t 256
      let b := match grid0 with
        | some (param, gx) => b.take 0x18 ++ leBytes 4 gx ++ (b.take 0x90).drop 0x1C ++ leBytes 8 param ++ b.drop 0x98
        | none => b
      match s.recordCause ctx b with
      | some c => .refused 3 c
      | none =>
        match s.launchSlots ctx (fieldAt b 0x38 8) 8 with
        | .error o => o
        | .ok sl =>
          match s.launchDeps ctx [(fieldAt b 0xA0 8, fieldAt b 0xB0 4), (fieldAt b 0xA8 8, fieldAt b 0xB4 4)] with
          | .error o => o
          | .ok ds => .grid { ctx := ctx, cls := cls, launch := b, slots := sl, deps := ds, smask := (s.kernMasks ctx (fieldAt b 0x24 4)).1,
                              vmask := (s.kernMasks ctx (fieldAt b 0x24 4)).2, teams := fieldAt b 0x18 4 * fieldAt b 0x1C 2 * fieldAt b 0x1E 2 }

/-- A launch begins with no stale code: the instruction caches are emptied (03 R47; log 103). -/
def State.dropCode (s : State) : State := { s with cores := s.cores.map fun e => (e.1, { e.2 with icache := [] }) }

/-- A grid's teams become pending in linear order (13 R261, R263). -/
def State.gridReady (s : State) (n : Nat) : State :=
  let (k, s) := s.newId
  s.setGrid n fun g => { g with waiting := false, unplaced := g.teams, queuedAt := k, deps := [], stalls := [] }

/-- A grid accepted, its words satisfied or awaited. -/
def State.addGrid (s : State) (g : Grid) : Nat × State :=
  let (n, s) := s.dropCode.newId
  let g := { g with deps := g.deps.filter fun d => !s.depMet d }
  if g.deps.all s.depMet then (n, State.gridReady { s with grids := tput s.grids n g } n)
  else (n, { s with grids := tput s.grids n { g with waiting := true } })

/-- LAUNCH_PACKET (13 R259 to R261): the packet is freed once its dependence words are satisfied. -/
def execLaunchPacket (q : Nat) (s : State) : Out :=
  queueOk s q (s.takeKind q (· == 2) fun s t =>
    let k := s.queue q
    match firstNonzero t.bytes [(1, 7), (0x10, 40), (0x3C, 4)] with
    | some o => s.refusePacket q t 1 o
    | none =>
      match s.acceptLaunch k.ctx k.cls (fieldAt t.bytes 8 8) none with
      | .refused c d => s.refusePacket q t c d
      | .moving va => (match s.queueStall q va with | (true, s) => s.refusePacket q t 6 2 | (false, s) => s)
      | .cut _ => s
      | .grid g =>
        let (n, s) := s.addGrid { g with queue := q }
        if (s.grid n).waiting then s.setQ q fun k => { k with launch := n, since := none } else s.freePacket q t)

/-! ### Dependence words (13 R261) -/

/-- A word whose translation was removed is translated again. -/
def State.redep (s : State) (ctx : Nat) (d : Nat × Option Target × Nat) : Except Own (Nat × Option Target × Nat) :=
  match d.2.1 with
  | some _ => .ok d
  | none => match s.ownPlace ctx d.1 false with | .ok t => .ok (d.1, some t, d.2.2) | o => .error o

/-- The packet of a held launch, where its ring can be read; otherwise the queue is held, or stalls, and the launch waits on (13 R258). The bool says
that the launch may go on. -/
def State.heldPacket (s : State) (q : Nat) : Option (Option Taken) × State :=
  match s.headRead q with
  | .packet t => (some (some t), s)
  | .none => (some none, s)
  | .bad c v => (none, if (s.queue q).held.isSome then s else s.holdQueue q c v)
  | .moving v => (none, if (s.queue q).held.isSome then s else s.stallQueue q v)
  | .cut => (none, s)

/-- The grid is refused at a later translation, at that moment (13 R261): its packet is freed as one refused, once its ring can be reached. -/
def State.refuseGrid (s : State) (n cause va : Nat) : State :=
  let g := s.grid n
  let gone : State := { s with grids := tdel s.grids n }
  match g.byDie with
  | some d => gone.postEvent d g.ctx 0 0x8003 (leBytes 1 6 ++ leBytes 7 cause ++ leBytes 8 va)
  | none =>
    match (gone.setQ g.queue fun k => { k with launch := 0, refuse := some cause }).heldPacket g.queue with
    | (none, s) => s
    | (some p, s) =>
      let s := s.setQ g.queue fun k => { k with refuse := none }
      match p with | some t => s.refusePacket g.queue t 6 cause | none => s

/-- The grid's words are satisfied: its packet is freed and its teams become pending. -/
def State.depsDone (s : State) (n : Nat) : State :=
  let g := s.grid n
  match g.byDie with
  | some _ => s.gridReady n
  | none =>
    match s.heldPacket g.queue with
    | (none, s) => s
    | (some p, s) =>
      let s := (s.gridReady n).setQ g.queue fun k => { k with launch := 0 }
      match p with | some t => s.freePacket g.queue t | none => s

/-- A dependence word as a look finds it: translated, or its walk stalls on MOVING, or behind a link, or the launch is refused with a cause (13 R261). -/
inductive DepLook where
  | word (d : Nat × Option Target × Nat)
  | moving
  | cut
  | refused (cause : Nat)

/-- A word looked at: a stall on MOVING that has lasted 100 µs refuses the launch as not resident (16 R315). -/
def State.depLook (s : State) (g : Grid) (d : Nat × Option Target × Nat) : DepLook :=
  match s.redep g.ctx d with
  | .ok e => .word e
  | .error (.bad c) => .refused c
  | .error .cut => .cut
  | .error (.ok _) => .cut
  | .error .moving => if thas g.stalls d.1 && decide (tget 0 g.stalls d.1 + movingLimit ≤ s.now) then .refused 2 else .moving

/-- The words of a waiting grid looked at, each with its own stall; each is awaited until it is satisfied once. -/
def State.depsLook (s : State) (n : Nat) : State :=
  let g := s.grid n
  let looks := g.deps.map fun d => (d, s.depLook g d)
  match firstSome (fun x => match x.2 with | .refused c => some (c, x.1.1) | _ => none) looks with
  | some (c, va) => s.refuseGrid n c va
  | none =>
    let deps := looks.map fun x => match x.2 with | .word e => e | _ => x.1
    let stalls := looks.filterMap fun x =>
      match x.2 with | .moving => some (x.1.1, if thas g.stalls x.1.1 then tget 0 g.stalls x.1.1 else s.now) | _ => none
    let left := deps.filter fun d => !s.depMet d
    let s := s.setGrid n fun g => { g with deps := left, stalls := stalls }
    if left.isEmpty then s.depsDone n else s

/-- LAUNCH_DEPENDENCE_MET (13 R261): the words are examined; the read that satisfies them is an acquire. A frozen context's queue
keeps its packet (16 R325). -/
def execLaunchDependenceMet (grid : Nat) (s : State) : Out :=
  unitStep s (thas s.grids grid) (if (s.grid grid).waiting && ((s.grid grid).byDie.isSome || (s.ctx (s.grid grid).ctx).phase == .active) then s.depsLook grid else s)

/-! ### LAUNCH and the aggregator (13 R270; 15 R295) -/

/-- A record may join an aggregate (13 R270). -/
def aggregable (b : List Byte) : Bool := bitOf (fieldAt b 0x22 2) 7 && fieldAt b 0x1C 2 == 1 && fieldAt b 0x1E 2 == 1

/-- A record without PARAM and GRIDX. -/
def aggKey (b : List Byte) : List Byte := b.take 0x18 ++ (b.take 0x90).drop 0x1C ++ b.drop 0x98

/-- Children that an aggregate of a context may have: 4,096, and no more than its area holds (13 R270; 16 Table 16.1). -/
def State.aggCap (s : State) (ctx : Nat) : Nat := Nat.min 4096 ((s.ctx ctx).fld 0x24 4)

/-- An aggregate is closed: its GRIDX is the sum of its children's, its table is written, and its teams become pending (13 R270). -/
def State.closeAggregate (s : State) (n : Nat) : State :=
  let g := s.grid n
  let total := (g.children.map (·.2.1)).foldl (· + ·) 0
  let table := g.children.flatMap fun c => leBytes 8 c.1 ++ leBytes 4 c.2.1 ++ leBytes 4 0
  let s := s.homeStore ((s.ctx g.ctx).fld 0x28 8) table
  (s.setGrid n fun g => { g with open_ := false, teams := total, launch := g.launch.take 0x18 ++ leBytes 4 total ++ g.launch.drop 0x1C }).gridReady n

/-- The open aggregate that a grid matches. -/
def State.openFor (s : State) (g : Grid) : Option Nat :=
  (s.grids.find? fun e => e.2.open_ && e.2.ctx == g.ctx && aggKey e.2.launch == aggKey g.launch).map (·.1)

/-- An aggregate is due to close: 4 µs after its first child, or with all the children it may have (13 R270). -/
def State.aggDue (s : State) (n : Nat) : Bool :=
  let g := s.grid n
  decide (g.openedAt + 4 * usTicks ≤ s.now ∨ s.aggCap g.ctx ≤ g.children.length)

/-- A grid as the first child of a new aggregate. -/
def State.openAggregate (s : State) (g : Grid) : State :=
  let (n, s) := s.dropCode.newId
  let c := (fieldAt g.launch 0x90 8, fieldAt g.launch 0x18 4, 0, 0, fieldAt g.launch 0x98 8)
  { s with grids := tput s.grids n { g with deps := [], open_ := true, openedAt := s.now, children := [c] } }

/-- An accepted child joins the aggregate it matches, or opens one; an aggregate that it may not join any more is closed first. -/
def State.aggregate (s : State) (g : Grid) : State :=
  let gx := fieldAt g.launch 0x18 4
  match s.openFor g with
  | none => s.openAggregate g
  | some n =>
    let total := ((s.grid n).children.map (·.2.1)).foldl (· + ·) 0
    if s.aggDue n || decide (2 ^ 31 ≤ total + gx) then (s.closeAggregate n).openAggregate g
    else
      s.setGrid n fun a => { a with children := a.children ++ [(fieldAt g.launch 0x90 8, gx, total, 0, fieldAt g.launch 0x98 8)] }

/-- AGGREGATE_CLOSE (13 R270). -/
def execAggregateClose (grid : Nat) (s : State) : Out :=
  unitStep s (thas s.grids grid) (if (s.grid grid).open_ && s.aggDue grid then s.closeAggregate grid else s)

/-- Accepted grids of a context with teams not yet placed (15 R295). -/
def State.unplacedGrids (s : State) (ctx : Nat) : Nat :=
  (s.grids.filter fun e => e.2.ctx == ctx && (e.2.waiting || e.2.open_ || e.2.unplaced != 0)).length

/-- The status of a LAUNCH returns in its S register (15 R295). -/
def State.launchStatus (s : State) (a : Reg) (st : Nat) : State :=
  let (rid, s) := s.newId
  s.modG fun g => g.begin { id := rid, kind := .launch, ctr := some .ld, regs := [{ cls := 1, idx := a.toNat }], issue := s.cur,
                            lanes := [{ lane := s.lane0, ready := true, ws := [.s a.toNat (w32 st)] }] }

/-- An accepted grid of a LAUNCH instruction. -/
def State.launchGrid (s : State) (g : Grid) : State :=
  if aggregable g.launch && g.deps.all s.depMet && s.aggCap g.ctx != 0 then s.aggregate g else (s.addGrid g).2

/-- LAUNCH (15 R295): the child's class is that of the issuing grid. -/
def execLaunch (o : Bool) (c b a : Reg) (e : Bool) (s : State) : Out :=
  s.runEnd avHome ([sref a 2] ++ (if o then [sref b 2, sref c] else []))
    (let g := s.g
     let grid0 := if o then some ((g.spair b.toNat).toNat, (g.sreg c.toNat).toNat) else none
     match s.checkCtr .ld with
     | .error st => .error st
     | .ok _ =>
       if 4096 ≤ s.unplacedGrids g.ctx then .ok (s.blockOn .launch)
       else
         match (s.raceTick s.cur.gid s.batch.length).fenceNow .system .release with
         | (false, s) => .ok (s.blockOn (.fence .system))
         | (true, s) =>
           match s.acceptLaunch g.ctx s.gr.cls (g.spair a.toNat).toNat grid0 with
           | .moving va =>
             if s.now < s.stallStart s.cur.gid s.lane0 va + movingLimit then .ok (s.halt (movingStop va))
             else .ok ((s.launchStatus a (256 * 6 + 2)).retire e)
           | .cut va => .ok (s.halt (linkStop va))
           | .refused k d => .ok ((s.launchStatus a (256 * k + d)).retire e)
           | .grid q => .ok (((s.launchGrid { q with byDie := some g.die }).launchStatus a 0).retire e))

end Sys2Proof.Machine
end

