-- ==== Sys2Proof/Machine/Place.lean ====
section
/-! DEFINITION. The placement of teams, their retirement, and the end notices of their away fibres (02 R29; 07 R136; 08 R154; 13 R261 to R263;
15 R292; 17 R346; 22 R376). -/
namespace Sys2Proof.Machine

/-! ### What stands on a core and a cluster (13 R262) -/

/-- The demand of a team. -/
def State.teamDemand (s : State) (t : Team) : Demand := demandOf (s.grid t.grid).launch

/-- The resident teams that a test picks, together. -/
def State.used (s : State) (p : Team → Bool) : Demand :=
  s.teams.foldl (fun d e => if e.2.phase = .resident && p e.2 then d.add (s.teamDemand e.2) else d) {}

/-- The first run of n bins of a cluster that no resident team holds (08 R154); freed bins are zeroed. -/
def State.binRun (s : State) (cl n : Nat) : Option Nat :=
  let taken := s.teams.flatMap fun e =>
    if e.2.phase = .resident && clusterOfCore e.2.core = cl then (List.range e.2.binQuota).map (e.2.binBase + ·) else []
  (List.range (129 - n)).find? fun b => (List.range n).all fun i => !taken.contains (b + i)

/-- Where a team's bins must stand: anywhere, or at the base it had (17 R341). -/
def State.binsAt (s : State) (cl : Nat) (d : Demand) (base : Option Nat) : Option Nat :=
  match base with
  | none => s.binRun cl d.bins
  | some b =>
    let taken := s.teams.any fun e => e.2.phase == .resident && clusterOfCore e.2.core == cl && overlaps b d.bins e.2.binBase e.2.binQuota
    if taken then none else some b

/-- A team fits a core beside its resident teams (13 R262; 17 R346). -/
def State.fits (s : State) (b : List Byte) (base : Option Nat) (core : Nat) : Bool :=
  let d := demandOf b
  let cl := clusterOfCore core
  dieAllowed b (dieOfCore core) && !(s.core core).out && (s.core core).retiring.isNone && !(d.matrix && (s.cluster cl).matrixOut) &&
    (d.add (s.used fun t => t.core == core)).coreFits && (d.add (s.used fun t => clusterOfCore t.core == cl)).clusterFits && (s.binsAt cl d base).isSome

/-! ### Non-resident teams (13 R263) -/

/-- A non-resident team: the next of a grid's pending teams, or one that is out. -/
structure Cand where
  cls : Nat
  order : Nat
  grid : Nat
  /-- the team that is out; 0 for a pending one -/
  tid : Nat := 0
  /-- since when it has fitted nowhere (13 R269) -/
  noFit : Option Nat := none
  deriving DecidableEq, Repr

/-- A team that is out waits at a BARG that has not completed, so it is passed over (13 R263). -/
def State.atBarg (s : State) (t : Team) : Bool := t.bargArrived == (s.grid t.grid).bargPhase + 1

/-- A candidate placed in the list's order: by class, then by the order of becoming non-resident. -/
def insertCand (c : Cand) : List Cand → List Cand
  | [] => [c]
  | d :: l => if c.cls < d.cls ∨ (c.cls = d.cls ∧ c.order < d.order) then c :: d :: l else d :: insertCand c l

/-- A team that was saved because its core is suspect is restored with the core's retirement, not placed elsewhere before (17 R346). -/
def State.retained (s : State) (tid : Nat) : Bool :=
  match (s.core (s.team tid).core).retiring with | some l => l.contains tid | none => false

/-- The non-resident teams in the order of their lists; the pending teams of a grid are in linear order, so its next one stands for them. -/
def State.candidates (s : State) : List Cand :=
  let ps := s.grids.filterMap fun e =>
    if e.2.unplaced = 0 ∨ e.2.waiting ∨ e.2.open_ ∨ (s.ctx e.2.ctx).phase ≠ .active then none
    else some { cls := e.2.cls, order := e.2.queuedAt, grid := e.1, noFit := e.2.noFit }
  let ts := s.teams.filterMap fun e =>
    if e.2.phase = .swapped && !s.atBarg e.2 && !e.2.spoiled && !s.retained e.1 && (s.ctx e.2.ctx).phase == .active then
      some { cls := e.2.cls, order := e.2.queuedAt, grid := e.2.grid, tid := e.1, noFit := e.2.noFit }
    else none
  (ps ++ ts).foldl (fun l c => insertCand c l) []

/-- The bin base a candidate asks for. -/
def State.candBase (s : State) (c : Cand) : Option Nat := if c.tid ≠ 0 && (s.team c.tid).binQuota ≠ 0 then some (s.team c.tid).binBase else none

/-- A candidate fits a core. -/
def State.candFits (s : State) (c : Cand) (core : Nat) : Bool := s.fits (s.grid c.grid).launch (s.candBase c) core

/-- A candidate fits somewhere. -/
def State.candFitsSome (s : State) (c : Cand) : Bool := (List.range 1024).any (s.candFits c)

/-- The candidate that the N8 places next, if it fits a given core: the first of the lists that fits somewhere (13 R263). -/
def State.nextFor (s : State) (core : Nat) : List Cand → Option Cand
  | [] => none
  | c :: cs => if s.candFits c core then some c else if s.candFitsSome c then none else s.nextFor core cs

/-! ### Placement (02 R29; 13 R262) -/

/-- Group slots of a core that no resident group has (01 R12). -/
def State.freeSlots (s : State) (core : Nat) : List Nat :=
  let taken := s.groups.filterMap fun e => if e.2.kind = .core ∧ e.2.place = core ∧ !e.2.isGuest then some e.2.slot else none
  (List.range 64).filter fun k => !taken.contains k

/-- Contexts of a sequencer that no team has (07 Table 7.1). -/
def State.freeContext (s : State) (cl : Nat) : Nat :=
  let taken := s.groups.filterMap fun e => if e.2.kind = .sequencer ∧ e.2.place = cl then some e.2.slot else none
  ((List.range 8).find? fun k => !taken.contains k).getD 0

/-- A group at its start (02 R29): every fibre live at its role's entry, FPMODE from the record. -/
def newGroup (b : List Byte) (ctx tid core slot role number now : Nat) : Group :=
  let r := roleOf b role
  let w := fieldAt b 0x20 1
  let pc : Dword := BitVec.ofNat 64 (fieldAt b 0 8 + r.entry)
  { kind := .core, width := w, ctx := ctx, tid := tid, role := role, number := number, place := core, slot := slot, vAlloc := r.vregs, sAlloc := r.sregs,
    tAlloc := r.tiles, fibres := (List.range w).map fun l => (l, { life := .live, pc := pc }), fpmode := w32 (fieldAt b 0x30 4), readySince := now }

/-- A sequencer context at its start (07 R136). -/
def newSeq (b : List Byte) (ctx tid cl slot now : Nat) : Group :=
  { kind := .sequencer, width := 1, ctx := ctx, tid := tid, place := cl, slot := slot, vAlloc := 0, sAlloc := 32, tAlloc := 0,
    fibres := [(0, { life := .live, pc := BitVec.ofNat 64 (fieldAt b 8 8) })], readySince := now }

/-- The roles of a team's groups in team order. -/
def roleList (b : List Byte) : List Nat := (List.range (rolesOf b).length).flatMap fun r => List.replicate (roleOf b r).groups r

/-- The next pending team of a grid placed on a core (02 R29; 07 R136; 13 R262). Each group takes the lowest free slot number, a W = 64 group one number
too, though it counts as two of the core's 64 slots (DESIGN CHOICE, log 29). The placement follows the launch's acquire, so the core's clean lines go
(10 R183). -/
def State.placeTeam (s : State) (n core : Nat) : State :=
  let g := s.grid n
  let b := g.launch
  let cl := clusterOfCore core
  let tid := s.nextId
  let roles := roleList b
  let slots := s.freeSlots core
  let gs := (roles.zipIdx).map fun r => (tid + 1 + r.2, newGroup b g.ctx tid core (slots.getD r.2 0) r.1 r.2 s.now)
  let sg := tid + 1 + roles.length
  let seq := if fieldAt b 8 8 = 0 then [] else [(sg, newSeq b g.ctx tid cl (s.freeContext cl) s.now)]
  let t : Team := { ctx := g.ctx, grid := n, cls := g.cls, index := g.teams - g.unplaced, core := core, larderSize := fieldAt b 0x28 4,
                    qregs := fieldAt b 0x2D 1, zAlloc := fieldAt b 0x2C 1, binBase := (s.binRun cl (fieldAt b 0x2E 1)).getD 0,
                    binQuota := fieldAt b 0x2E 1, groups := gs.map (·.1), seqGid := if seq.isEmpty then 0 else sg }
  let s := s.l1Acquire core
  State.setGrid { s with groups := tputs s.groups (gs ++ seq), teams := tput s.teams tid t, nextId := sg + 1 } n fun g => { g with unplaced := g.unplaced - 1, noFit := none }

/-- TEAM_PLACEMENT (13 R263): the next non-resident team, where it is a pending one and fits the core. -/
def execTeamPlacement (core : Nat) (s : State) : Out :=
  unitStep s (decide (core < 1024))
    (match s.nextFor core s.candidates with
     | some c => if c.tid = 0 then s.placeTeam c.grid core else s
     | none => s)

/-! ### Retirement (10 R189, R193; 13 R261; 15 R292; 22 R376) -/

/-- A team has nothing left to do (15 R292). -/
def State.teamIdle (s : State) (tid : Nat) : Bool :=
  let t := s.team tid
  t.phase == .resident && t.saving.isNone &&
    t.groups.all fun gid =>
      let g := s.grp gid
      g.unended.isEmpty && g.ld = 0 && g.st = 0 && g.cp = 0 && g.tl = 0 && g.returns.isEmpty && g.stores.isEmpty && g.copies.all fun c => decide (512 ≤ c.1)

/-- The subscriptions that stand are removed (10 R193): a local one at once, another module is asked. -/
def State.endSubs (s : State) (tid : Nat) : State :=
  let t := s.team tid
  let far := t.subs.filter fun u => u.remote
  let s := { s with pegs := s.pegs.filter fun p => p.remote || p.tid != tid, pushes := s.pushes.filter fun p => p.remote || p.tid != tid }
  let s := s.setT tid fun t => { t with subs := far.map fun u => { u with ending := if u.ending.isEmpty then [(0, 0)] else u.ending } }
  (far.filter fun u => u.ending.isEmpty && u.live).foldl (fun s u =>
    s.request { tag := 0, core := t.core, die := dieOfCore t.core, ctx := t.ctx, use := .unsub 0 u.slot,
                pkt := { kind := 7, va := BitVec.ofNat 64 u.va, aux := BitVec.ofNat 64 u.tag, payload := leBytes 4 tid ++ leBytes 4 u.slot } }) s

/-- How an add to a completion word ends (13 R261). -/
inductive DoneAdd where
  | added (s : State)
  | failed (code : Nat)
  | moving
  /-- behind a link that is down, or a line that a copy engine owns -/
  | waits

/-- An atomic add of 1 to DONE with release order (13 R261). -/
def State.doneAdd (s : State) (ctx va since : Nat) : DoneAdd :=
  if va = 0 then .added s
  else if !s.isLocal va then .failed 1
  else
    match s.xlateSince 0 ctx va .write false since with
    | .moving l => if l = 0 then .waits else .moving
    | .replay r _ => .failed (if r = 1 then 1 else 2)
    | .prot _ => .failed 3
    | .ok (.dev pa pol) _ =>
      if s.recalls pa 4 || s.cut 0 (dieOfPa pa) then .waits else
      let (_, pois, t) := s.homeAtomic pol pa 4 .add 1 0
      if pois then .failed 5 else .added t
    | .ok (.host pa) _ =>
      if s.hostCut 0 then .waits else
      let (_, pois, t) := s.hostAtomic pa 4 .add 1 0
      if pois then .failed 5 else .added t
    | .ok _ _ => .failed 1

/-- The completion words that a team's retirement adds to: its child's, or the grid's; none while others of the child or grid are left. -/
def State.doneWord (s : State) (tid : Nat) : Option Nat :=
  let t := s.team tid
  let g := s.grid t.grid
  match (g.children.filter fun c => decide (c.2.2.1 ≤ t.index)).getLast? with
  | some c => if c.2.2.2.1 + 1 = c.2.1 then some c.2.2.2.2 else none
  | none => if g.retired + 1 = g.teams then some (g.fld 0x98 8) else none

/-- The grid's account of a retired team; a grid whose last team has retired is no more (13 R261, R270). -/
def State.countRetired (s : State) (t : Team) : State :=
  let g := s.grid t.grid
  let k := (g.children.filter fun c => decide (c.2.2.1 ≤ t.index)).length
  let cs := g.children.zipIdx.map fun c => if c.2 + 1 = k then (c.1.1, c.1.2.1, c.1.2.2.1, c.1.2.2.2.1 + 1, c.1.2.2.2.2) else c.1
  if g.retired + 1 = g.teams then { s with grids := tdel s.grids t.grid }
  else (s.setGrid t.grid fun g => { g with retired := g.retired + 1, children := cs }).bargPhase t.grid

/-- The units that a team held are free: its groups, its context with what it has under way, its bins, which are zeroed, and the shelf slots
that awaited it alone (08 R154; 10 R189; 22 R376). -/
def State.freeTeam (s : State) (tid : Nat) : State :=
  let t := s.team tid
  let cl := clusterOfCore t.core
  let gids := t.seqGid :: t.groups
  let s := { s with groups := s.groups.filter fun e => !(e.1 != 0 && gids.contains e.1), teams := tdel s.teams tid }
  let s := s.setC t.core fun c => { c with slots := c.slots.filter fun e => !gids.contains e.2.gid }
  let s := s.setCl cl fun c =>
    { (c.binZero t.binBase t.binQuota) with
      ops := c.ops.filter fun o => o.gid = 0 || !gids.contains o.gid, running := c.running.filter fun o => o.gid = 0 || !gids.contains o.gid }
  if (s.teamOn t.grid cl (t.core % 8)).isSome then s
  else
    s.setCl cl fun c => (c.shelf.filter fun e => e.2.grid == t.grid && bitOf e.2.mask (t.core % 8)).foldl (fun c e => c.takeBit e.1 (t.core % 8)) c

/-- A failed add to DONE (13 R261): a KIND 0x04 record at the die of the team's core. -/
def State.doneFailed (s : State) (t : Team) (code va : Nat) : State :=
  s.postLoose (dieOfCore t.core) (faultBytes 4 code t.ctx false (t.core % 1024 + 65536 * dieOfCore t.core) 0 va 0)

/-- The team retires; a stall on MOVING at the completion word holds it back. -/
def State.retireTeam (s : State) (tid : Nat) : State :=
  let t := s.team tid
  match s.doneWord tid with
  | none => (s.freeTeam tid).countRetired t
  | some va =>
    let since := match t.stall with | some (a, n) => if a = va then n else s.now | none => s.now
    match s.doneAdd t.ctx va since with
    | .moving => s.setT tid fun t => { t with stall := some (va, since) }
    | .waits => s
    | .failed c => ((s.freeTeam tid).countRetired t).doneFailed t c va
    | .added s => (s.freeTeam tid).countRetired t

/-- TEAM_RETIREMENT (15 R292): the core's accesses are performed at their homes, and subscriptions removed, before the team retires. Dirty lines of a
window still mapped are dropped: retirement is none of the three points of 09 R166 (DEDUCED, log 58). -/
def execTeamRetirement (tid : Nat) (s : State) : Out :=
  unitStep s (thas s.teams tid)
    (if !s.teamIdle tid then s
     else
       let core := (s.team tid).core
       let s := ((s.l1BackAll core).wcDrain core fun _ => true).endSubs tid
       if s.coreWaits core || s.l1Dirty core (fun _ _ => true) || !(s.team tid).subs.isEmpty then s else s.retireTeam tid)

/-! ### End notices (15 R292, R301) -/

/-- The home of a crate's fibres: the group of this module that the header names. -/
def State.crateHome (s : State) (h : CrateHead) : Option Nat :=
  (s.groups.find? fun e => e.2.kind == .core && !e.2.isGuest && e.2.place == h.homeCore && e.2.slot == h.homeSlot && e.2.ctx == h.ctx).map (·.1)

/-- The group a return crate or an end notice belongs to: its guest's home where the guest stood on this module. -/
def State.crateTo (s : State) (c : Crate) : Option Nat := s.crateHome (crateHead c.bytes)

/-- A crate has arrived: it is no longer under way, and a peer that sent it is answered (12 R254). -/
def State.crateDone (s : State) (c : Crate) : State :=
  let s := { s with crates := s.crates.filter fun d => d.id != c.id }
  match c.req with | some p => s.answer p 11 0 0 [] | none => s

/-- A link on a crate's way within the module is down, so that the crate waits (01 R11; 17 R344). -/
def State.crateCut (s : State) (c : Crate) : Bool :=
  s.cut c.srcDie (if c.ret || c.endNotice then (match s.crateTo c with | some gid => (s.grp gid).die | none => c.srcDie)
    else if c.toCellar then c.stack / 2 else c.die)

/-- END_NOTICE_ARRIVAL (15 R292): the home slots are freed. -/
def execEndNoticeArrival (crate : Nat) (s : State) : Out :=
  match s.crates.find? fun c => c.id == crate with
  | none => .next s
  | some c =>
    if !c.endNotice || c.sent || s.crateCut c then .next s
    else
      let s := s.crateDone c
      match s.crateTo c with
      | none => .next s
      | some gid =>
        let lanes := bitsSet 64 (fieldAt c.bytes 0x28 8)
        let s := s.setG gid fun g => (lanes.foldl Group.freeLane g).leaveHandler (maskOf lanes)
        .next (s.barriers (s.grp gid).tid)

end Sys2Proof.Machine
end

