-- ==== Sys2Proof/Machine/Barrier.lean ====
section
/-! DEFINITION. The barriers of a team and of a grid (10 Table 10.2; 15 R293, R294). -/
namespace Sys2Proof.Machine

/-- Some fibres of the batch move on and the others block at the instruction: the run ends unless all of them move on (03 R48). -/
def State.someMove (s : State) (done : List Nat) (w : Wait) (e : Bool) : State :=
  if s.batch.all done.contains then s.retire e
  else if done.isEmpty then s.blockOn w
  else
    (s.eachFib fun l f =>
      if done.contains l then { f with pc := s.cur.npc, wait := .none, refused := none, fellBack := false }
      else { f with wait := w, waitSince := if f.wait = w then f.waitSince else s.now }).endRun

/-- Lanes of the batch arrive in the current phase of a barrier (15 R293). -/
def State.arrive (s : State) (n : Nat) (ls : List Nat) : State :=
  let ph := tget 0 s.tm.barriers n
  (((s.modG fun g => g.forLanes ls fun g l => g.setF l fun f => { f with arrived := tput f.arrived n (ph + 1) }).raceTick s.cur.gid ls.length).barriers
    s.g.tid)

/-- The phase of a lane's last arrival at a barrier has completed, or it has never arrived (15 R293). -/
def State.passed (s : State) (n l : Nat) : Bool := decide (tget 0 (s.g.fib l).arrived n ≤ tget 0 s.tm.barriers n)

/-- The lanes of the batch that take part, and the release side of their arrival: the group's earlier stores stand in the core's order (10
R180, Table 10.2). -/
def State.released (s : State) (ls : List Nat) : Bool × State := if ls.isEmpty then (true, s) else s.drainAll s.cur.gid

/-- BAR (15 R293): a fibre whose arrival is recorded and not over arrives no second time. -/
def execBar (n : Fld3) (e : Bool) (s : State) : Out :=
  let fresh := s.batch.filter fun l => (s.g.fib l).barring != some n.toNat
  s.runEnd avHome []
    (match s.released fresh with
     | (false, s) => .ok (s.blockOn (.fence .team))
     | (true, s) =>
       let s := s.arrive n.toNat fresh
       let done := s.batch.filter (s.passed n.toNat)
       let s := s.eachFib fun l f => { f with barring := if done.contains l then none else some n.toNat }
       .ok ((s.raceTick s.cur.gid done.length).someMove done (.barrier n.toNat) e))

/-- ARRV (15 R293): a fibre that has arrived in the current phase blocks until it completes. -/
def execArrv (n : Fld3) (e : Bool) (s : State) : Out :=
  let fresh := s.batch.filter (s.passed n.toNat)
  s.runEnd avHome []
    (match s.released fresh with
     | (false, s) => .ok (s.blockOn (.fence .team))
     | (true, s) => .ok ((s.arrive n.toNat fresh).someMove fresh (.rearrive n.toNat) e))

/-- WAITB (15 R293). -/
def execWaitb (n : Fld3) (e : Bool) (s : State) : Out :=
  let done := s.batch.filter (s.passed n.toNat)
  s.runEnd avHome [] (.ok ((s.raceTick s.cur.gid done.length).someMove done (.waitb n.toNat) e))

/-- The phase of a lane's BARG has completed (15 R294). -/
def State.bargPassed (s : State) (l : Nat) : Bool :=
  let f := s.g.fib l
  f.bargAt != 0 && decide (f.bargAt ≤ s.gr.bargPhase)

/-- BARG (15 R294): arrival is a release and departure an acquire at MODULE scope. -/
def execBarg (e : Bool) (s : State) : Out :=
  let fresh := s.batch.filter fun l => (s.g.fib l).bargAt == 0
  s.runEnd avHome []
    (match (if fresh.isEmpty then (true, s) else s.fenceNow .module .release) with
     | (false, s) => .ok (s.blockOn (.fence .module))
     | (true, s) =>
       let ph := s.gr.bargPhase
       let s := (((s.modG fun g => g.forLanes fresh fun g l => g.setF l fun f => { f with bargAt := ph + 1 }).raceTick s.cur.gid fresh.length).barriers
         s.g.tid)
       let done := s.batch.filter s.bargPassed
       let s := (s.raceTick s.cur.gid done.length).modG fun g => g.forLanes done fun g l => g.setF l fun f => { f with bargAt := 0 }
       .ok ((if done.isEmpty then s else s.l1Acquire s.g.place).someMove done .barg e))

end Sys2Proof.Machine
end

