-- ==== Sys2Proof/Machine/Matrix.lean ====
section
/-! DEFINITION. Bin, queue, matrix and accumulator instructions (08 R154 to R161). -/
namespace Sys2Proof.Machine

/-! ### Shared checks (08 R151) -/

/-- A BOUNDS of this chapter (08 R151): a bin number, or 0xFF. -/
def binTrap (d : Nat) : Stop := .trap { code := tBOUNDS, detail := d % 256 }

/-- A bin operand lies in the team's range and is claimed (08 R154). -/
def Team.owns (t : Team) (b : Nat) : Bool := decide (t.binBase ≤ b ∧ b < t.binBase + t.binQuota) && t.claimed.contains b

/-- Every bin of a list is the team's, or the first that is not is reported (08 R151, R154). -/
def State.checkBins (s : State) (bs : List Nat) : Except Stop Unit :=
  match bs.find? fun b => !s.tm.owns b with
  | some b => .error (binTrap b)
  | none => .ok ()

/-- A count, offset or row is in range (08 R151). -/
def checkArg (ok : Bool) : Except Stop Unit := if ok then .ok () else .error (binTrap 0xFF)

/-- A sequencer context's held list has room (08 R161). -/
def State.checkHeld (s : State) : Except Stop Unit :=
  need (s.g.kind != .sequencer || decide ((s.heldOps s.cur.gid).length < 255)) (.block .array)

/-- An operation issued to the array: it counts in TL and joins the operations that wait (08 R151). -/
def State.issueOp (s : State) (k : MatKind) : State :=
  let (rid, s) := s.newId
  let (oid, s) := s.newId
  let c := s.cur
  let s := s.modG fun g => g.begin { id := rid, kind := .matrix, ctr := some .tl, left := 1, issue := c }
  s.setCl s.g.cluster fun cl => { cl with ops := cl.ops ++ [{ id := oid, gid := c.gid, ret := rid, kind := k, pc := c.pc }] }

/-- Core and sequencer, never at a guest: the S register that holds a bin. -/
def Group.binOf (g : Group) (r : Reg) : Nat := (g.sreg r.toNat).toNat

/-! ### Bins (08 R155) -/

/-- The lowest start of k unclaimed consecutive bins of the team's range (08 R155). -/
def Team.freeRun (t : Team) (k : Nat) : Option Nat :=
  ((List.range t.binQuota).map (t.binBase + ·)).find? fun b =>
    decide (b + k ≤ t.binBase + t.binQuota) && (List.range k).all fun i => !t.claimed.contains (b + i)

/-- Bins claimed (08 R155). -/
def Team.claim (t : Team) (b k : Nat) : Team := { t with claimed := t.claimed ++ (List.range k).map (b + ·) }

/-- BCLM (08 R155). -/
def execBclm (k : Fld3) (a : Reg) (e : Bool) (s : State) : Out :=
  let n := k.toNat + 1
  s.run avHomeSeq [sref a] e
    (match checkArg (decide (n ≤ s.tm.binQuota)), s.tm.freeRun n with
     | .error st, _ => .error st
     | .ok _, some b => .ok ((s.modT fun t => t.claim b n).writeS a [w32 b])
     | .ok _, none => .error (.block (.claim 0 n)))

/-- BCLMT (08 R155). -/
def execBclmt (k : Fld3) (a : Reg) (e : Bool) (s : State) : Out :=
  let n := k.toNat + 1
  s.run avHomeSeq [sref a] e
    (match checkArg (decide (n ≤ s.tm.binQuota)), s.tm.freeRun n with
     | .error st, _ => .error st
     | .ok _, some b => .ok ((s.modT fun t => t.claim b n).writeS a [w32 b])
     | .ok _, none => .ok (s.writeS a [0xFFFFFFFF]))

/-- BREL (08 R155): unclaimed at issue; the array zeroes the bins in its turn. -/
def execBrel (k : Fld3) (b : Reg) (e : Bool) (s : State) : Out :=
  let n := k.toNat + 1
  let f := s.g.binOf b
  s.run avHomeSeq [sref b] e
    (match firstErr [s.checkBins ((List.range n).map (f + ·)), s.checkCtr .tl, s.checkHeld] with
     | .error st => .error st
     | .ok _ => .ok ((s.modT fun t => { t with claimed := t.claimed.filter fun x => !(decide (f ≤ x ∧ x < f + n)) }).issueOp (.release f n)))

/-- The pieces of a BFILLT: offset and bytes (08 R155). -/
def fillPieces (rows : Bool) (off : Nat) (tile : List Byte) : List (Nat × List Byte) :=
  if rows then (List.range 32).map fun r => (off + 256 * r, (tile.drop (32 * r)).take 32) else [(off, tile)]

/-- BFILLT (08 R155): `rows` is layout m = 1. -/
def execBfillt (rows : Bool) (c : Fld3) (b a : Reg) (e : Bool) (s : State) : Out :=
  let bin := s.g.binOf a
  let off := s.g.binOf b
  s.run avHome [sref a, sref b, tref c] e
    (match firstErr [s.checkBins [bin],
        checkArg (off % 32 = 0 && decide (off + (if rows then 256 * 31 + 32 else 1024) ≤ 32768)),
        s.checkCtr .tl] with
     | .error st => .error st
     | .ok _ => .ok (s.issueOp (.fill bin (fillPieces rows off (s.g.tile c.toNat)))))

/-- What BSTAT writes (08 R155). -/
def Team.binStat (t : Team) (n : Nat) : Word :=
  if n = 0 then w32 (t.binBase + 256 * t.binQuota + 65536 * t.claimed.length)
  else w32 (maskOf ((List.range 32).filter fun i => t.owns (t.binBase + 32 * (n - 1) + i)))

/-- BSTAT (08 R155). -/
def execBstat (n : Fld3) (a : Reg) (e : Bool) (s : State) : Out :=
  s.runOk avHomeSeq [sref a] e (s.writeS a [s.tm.binStat n.toNat])

/-! ### Queues (02 R36; 07 R137; 08 R156; 22 R376) -/

/-- A team's queue register. -/
def Team.queue (t : Team) (q : Nat) : List QEntry := tget [] t.queues q
/-- A team's queue register changed. -/
def Team.setQueue (t : Team) (q : Nat) (l : List QEntry) : Team := { t with queues := tput t.queues q l }

/-- The places of the takeable entries of a queue, oldest first: held by nothing, and behind no held entry of its own agent unless exempt (07
R137; 22 R376). -/
def takeableFrom : List QEntry → List QEntry → Nat → List Nat
  | _, [], _ => []
  | before, x :: xs, i =>
    let r := takeableFrom (before ++ [x]) xs (i + 1)
    if x.held.isEmpty && (x.exempt || !(before.any fun y => y.by_ == x.by_ && !y.held.isEmpty)) then i :: r else r

/-- The places of a queue's takeable entries. -/
def takeable (l : List QEntry) : List Nat := takeableFrom [] l 0

/-- The operations behind which a push of the issuing agent is held (07 R137; 22 R376). -/
def State.pushHeld (s : State) : List Nat × Bool :=
  let q := s.g.seq
  let ops := (s.agentOps s.cur.gid).map (·.id)
  if s.g.kind = .sequencer ∧ q.stopped.isSome then (ops.filter (q.stopMark ≤ ·), true) else (ops, false)

/-- Entries pushed by the issuing agent (08 R156), a release at TEAM (10 R183): they wait until its group's earlier stores are performed. -/
def State.pushAll (s : State) (q : Nat) (ws : List Word) : Except Stop State :=
  match s.drainAll s.cur.gid with
  | (false, _) => .error (.block (.fence .team))
  | (true, s) =>
    let (held, ex) := s.pushHeld
    .ok ((s.raceTick s.cur.gid s.batch.length).modT fun t =>
      t.setQueue q (t.queue q ++ ws.map fun w => { val := w, by_ := s.cur.gid, held := held, exempt := ex }))

/-- A queue has room for n entries, or the push waits (02 R36). -/
def State.checkRoom (s : State) (q n : Nat) : Except Stop Unit :=
  need (decide ((s.tm.queue q).length + n ≤ 32)) (.block (.qFull q n))

/-- QPSH (08 R156). -/
def execQpsh (b : Reg) (a : Fld3) (e : Bool) (s : State) : Out :=
  s.run avHomeSeq [sref b, qref a] e
    (match s.checkRoom a.toNat 1 with
     | .error st => .error st
     | .ok _ => s.pushAll a.toNat [s.g.sreg b.toNat])

/-- QPSHV (08 R156). -/
def execQpshv (b : Reg) (a : Fld3) (e : Bool) (s : State) : Out :=
  s.run avHome [vsrc b, qref a] e
    (match firstErr [checkArg (decide (s.batch.length ≤ 32)), s.checkRoom a.toNat s.batch.length] with
     | .error st => .error st
     | .ok _ => s.pushAll a.toNat (s.batch.map fun l => s.g.old l b))

/-- The oldest takeable entry leaves its queue, an acquire at TEAM (10 R183). -/
def State.popOne (s : State) (q : Nat) : Option (Word × State) :=
  match takeable (s.tm.queue q) with
  | i :: _ =>
    (s.tm.queue q)[i]?.map fun x =>
      (x.val, (s.raceTick s.cur.gid s.batch.length).modT fun t => t.setQueue q (t.queue q |>.eraseIdx i))
  | [] => none

/-- A popped value's way into Sa: an asynchronous return counted in LD on a core, at once on a sequencer (08 R156). -/
def State.landPop (s : State) (a : Reg) (w : Word) : State :=
  if s.g.kind = .sequencer then s.writeS a [w]
  else
    let (rid, s) := s.newId
    let c := s.cur
    s.modG fun g => g.begin { id := rid, kind := .pop, ctr := some .ld, regs := [{ cls := 1, idx := a.toNat }], issue := c,
                              lanes := [{ lane := 0, ready := true, ws := [.s a.toNat w] }] }

/-- QPOP (08 R156). -/
def execQpop (b : Fld3) (a : Reg) (e : Bool) (s : State) : Out :=
  s.run avHomeSeq [qref b, sref a] e
    (match s.checkCtr .ld, s.popOne b.toNat with
     | .error st, _ => .error st
     | .ok _, some (w, t) => .ok (t.landPop a w)
     | .ok _, none => .error (.block (.qEmpty b.toNat 1)))

/-- QTRY (08 R156). -/
def execQtry (c : PReg) (b : Fld3) (a : Reg) (e : Bool) (s : State) : Out :=
  s.run avHomeSeq [qref b, sref a, pref c.toNat] e
    (match s.checkCtr .ld, s.popOne b.toNat with
     | .error st, _ => .error st
     | .ok _, some (w, t) => .ok ((t.landPop a w).writeP c fun _ => (true, 0))
     | .ok _, none => .ok (s.writeP c fun _ => (false, 0)))

/-- QCNT (08 R156). -/
def execQcnt (b : Fld3) (a : Reg) (e : Bool) (s : State) : Out :=
  s.runOk avHomeSeq [qref b, sref a] e (s.writeS a [w32 (takeable (s.tm.queue b.toNat)).length])

/-- QUEUE_ENTRY_TAKEABLE: the entries of a queue are freed of the operations that have completed, which those saved with a team that is out have not
(07 R137). -/
def execQueueEntryTakeable (tid q : Nat) (s : State) : Out :=
  let live := s.groups.foldl (fun l e => if e.2.tid = tid then l ++ (s.agentOps e.1).map (·.id) else l)
    (((s.team tid).savedRun.toList ++ (s.team tid).savedOps).map (·.id))
  if thas s.teams tid then
    .next (s.setT tid fun t => t.setQueue q ((t.queue q).map fun x => { x with held := x.held.filter live.contains }))
  else .next s

/-- FSLOT (08 R157). -/
def execFslot (k : Fld3) (w : BitVec 4) (a : Reg) (e : Bool) (s : State) : Out :=
  s.run avHomeSeq [sref a] e
    (match s.checkSlot k.toNat fun _ => true with
     | .error st => .error st
     | .ok _ => .ok (s.writeS a [w32 (fieldAt (s.slotBytes k.toNat) (4 * w.toNat) 4)]))

/-! ### Matrix operations (07 R149; 08 R158) -/

/-- Bins of an operation, parameter bins last (08 R158). -/
def mmaBins (m : MShape) (a b : Nat) : List Nat := if m.grouped then [a, b, a + 1, b + 1] else [a, b]

/-- Operations that write one of these bins have been issued and not completed, those held behind a stop apart, but for
releases (07 R149; 08 R155; 22 R376). -/
def State.binsPending (s : State) (cl : Nat) (bins : List Nat) : Bool :=
  let c := s.cluster cl
  c.ops.any fun o => (if s.heldBack c o then o.isRelease else o.writesBins) && (s.opBins o).any bins.contains

/-- The earlier work that an MMAS waits for (07 R149): the group's own operations, ZRDs among them, and what any agent is writing into bin A. -/
def State.mmasWaits (s : State) (gid a : Nat) : Bool :=
  !(s.agentOps gid).isEmpty || ((s.grp gid).returns.any fun r => r.kind == .matrix) || s.binsPending (s.grp gid).cluster [a]

/-- The first illegal metadata word of a bin, in the order of steps (07 R149). -/
def Cluster.firstIllegal (c : Cluster) (m : MShape) (o : MmaOp) : Option (Nat × Nat × (Nat × Nat)) :=
  firstSome (fun d => firstSome (fun i => (c.rowIllegal m o i d).map fun w => (d, i, w)) (List.range 128)) (List.range m.units)

/-- The check that an MMAS issued by a group makes before anything of it is performed (07 R149). -/
def State.checkMmas (s : State) (m : MShape) (o : MmaOp) : Except Stop Unit :=
  if !minorSparse o.minor || s.g.kind = .sequencer then .ok ()
  else if s.mmasWaits s.cur.gid o.a then .error (.block (.mmas o.a))
  else
    match (s.cluster s.g.cluster).firstIllegal m o with
    | some (d, i, w) => .error (.trap { code := tMMETA, detail := stopDetail o.zd d i 0 true (some w), addr := s.cur.pc.toNat })
    | none => .ok ()

/-- A matrix operation issued (08 R158). -/
def State.opMma (s : State) (minor : Nat) (k : Fld3) (b a : BitVec 7) (zd : Fld3) (e : Bool) : Out :=
  let m := mshape (s.slotBytes k.toNat)
  let o : MmaOp := ⟨minor, k.toNat, a.toNat, b.toNat, zd.toNat⟩
  s.run avHomeSeq [zref zd] e
    (match firstErr [s.checkSlot k.toNat (minorTakes minor), s.checkBins (mmaBins m a.toNat b.toNat), s.checkCtr .tl, s.checkHeld, s.checkMmas m o] with
     | .error st => .error st
     | .ok _ => .ok (s.issueOp (.mma minor k.toNat a.toNat b.toNat zd.toNat)))

/-- MMA and MMA.Z (08 R158). -/
def execMma (z : Bool) (k : Fld3) (b a : BitVec 7) (zd : Fld3) (e : Bool) (s : State) : Out := s.opMma (b2n z) k b a zd e
/-- MMAS and MMAS.Z (08 R158). -/
def execMmas (z : Bool) (k : Fld3) (b a : BitVec 7) (zd : Fld3) (e : Bool) (s : State) : Out := s.opMma (2 + b2n z) k b a zd e
/-- MMAQ and MMAQ.Z (08 R158). -/
def execMmaq (z : Bool) (k : Fld3) (b a : BitVec 7) (zd : Fld3) (e : Bool) (s : State) : Out := s.opMma (4 + b2n z) k b a zd e
/-- MMAT (08 R158). -/
def execMmat (k : Fld3) (b a : BitVec 7) (zd : Fld3) (e : Bool) (s : State) : Out := s.opMma 6 k b a zd e

/-! ### Accumulators (08 R160, R161) -/

/-- ZRD (08 R160): the last completed sum unit's values and count, as a return that counts in TL. -/
def execZrd (c : Reg) (b : Fld3) (a : Reg) (e : Bool) (s : State) : Out :=
  let n := if s.g.width = 64 then 2 else 4
  s.run avHome [sref c 2, zref b, vdst a n] e
    (match s.checkCtr .tl with
     | .error st => .error st
     | .ok _ =>
       let i := (s.g.sreg c.toNat).toNat % 128
       let row := s.tm.zdone b.toNat i
       let cnt := tget 0 s.tm.zSteps b.toNat
       let (rid, s) := s.newId
       let g := s.g
       let l0 := s.lane0
       let lanes := s.batch.map fun l =>
         { lane := l, ready := true, dst := g.phys l a,
           ws := ((List.range n).map fun q => RegWrite.v l (g.phys l a + q) { val := row.getD (n * l + q) 0, pois := s.tm.zbad b.toNat i (n * l + q) }) ++
             (if l = l0 then [.s (c.toNat + 1) cnt] else []) }
       .ok (s.modG fun g => g.begin { id := rid, kind := .matrix, ctr := some .tl, issue := s.cur, lanes := lanes,
                                      regs := s.destRegs a n ++ [{ cls := 1, idx := c.toNat + 1 }] }))

/-- ZST (08 R160). -/
def execZst (m : ZstMode) (b : Fld3) (a : Reg) (e : Bool) (s : State) : Out :=
  let bin := s.g.binOf a
  s.run avHomeSeq [sref a, zref b] e
    (match firstErr [s.checkBins (if m = .raw then [bin, bin + 1] else [bin]), s.checkCtr .tl, s.checkHeld] with
     | .error st => .error st
     | .ok _ => .ok (s.issueOp (.zst (zstCode m) b.toNat bin)))

/-- ZCLR (08 R160). -/
def execZclr (b : Fld3) (e : Bool) (s : State) : Out :=
  s.run avHomeSeq [zref b] e
    (match firstErr [s.checkCtr .tl, s.checkHeld] with
     | .error st => .error st
     | .ok _ => .ok (s.issueOp (.zclr b.toNat)))

/-- ZLD (08 R160): poison that stands in its bins traps at the instruction (02 R44), unless what is still to be written there may clear it. -/
def execZld (b : Fld3) (a : Reg) (e : Bool) (s : State) : Out :=
  let bin := s.g.binOf a
  s.run avHomeSeq [sref a, zref b] e
    (match firstErr [s.checkBins [bin, bin + 1], s.checkCtr .tl, s.checkHeld] with
     | .error st => .error st
     | .ok _ =>
       match (if s.binsPending s.g.cluster [bin, bin + 1] || s.g.seq.stopped.isSome then none else zldBad (s.cluster s.g.cluster) bin) with
       | some row => .error (.trap { code := tPOISON, detail := zPoisonDetail b.toNat row })
       | none => .ok (s.issueOp (.zld b.toNat bin)))

/-- What MSAVE writes (08 R161). -/
def State.saveWords (s : State) : List Word :=
  match s.g.seq.stopped with
  | some o =>
    [w32 (2 ^ 31 + 2 ^ 21 * o.tile?.getD 0 + 2 ^ 16 * o.dep + 256 * o.col + o.row), w32 o.pc.toNat, w32 (o.pc.toNat / 2 ^ 32),
     w32 (min 255 (s.heldOps s.cur.gid).length)]
  | none => [0, 0, 0, 0]

/-- MSAVE (08 R161). -/
def execMsave (a : Reg) (e : Bool) (s : State) : Out := s.runOk avSeq [sref a 4] e (s.writeS a s.saveWords)

/-- The matrix instruction at an address, read as an instruction fetch (02 R46; 08 R161). -/
def State.fetchMma (s : State) (mop : Dword) : Except Stop (Option MmaOp) :=
  match ({ s with cur := { s.cur with pc := mop, npc := mop, pre := {}, parcels := [] } } : State).fetchWord with
  | (_, .error e) => .error e
  | (ps, .ok _) =>
    .ok (match decode {} (wordOf ps) with
      | .ok (.mma z k b a zd _) => some ⟨b2n z, k.toNat, a.toNat, b.toNat, zd.toNat⟩
      | .ok (.mmas z k b a zd _) => some ⟨2 + b2n z, k.toNat, a.toNat, b.toNat, zd.toNat⟩
      | .ok (.mmaq z k b a zd _) => some ⟨4 + b2n z, k.toNat, a.toNat, b.toNat, zd.toNat⟩
      | .ok (.mmat k b a zd _) => some ⟨6, k.toNat, a.toNat, b.toNat, zd.toNat⟩
      | .ok _ => none
      | .error _ => none)

/-- MRES's own refusals: BOUNDS with ADDR = MOP (08 R161). -/
def mresTrap (mop : Nat) : Stop := .trap { code := tBOUNDS, detail := 0xFF, addr := mop }

/-- The bins of an MRES that are checked: those that the stopped operation names were its own at its issue, and are read as they stand although a
release in the stop has unclaimed them (08 R161; 22 R376, R380; log 121). -/
def State.mresBins (s : State) (bs : List Nat) : List Nat :=
  match s.g.seq.stopped with
  | some q => bs.filter fun b => !(s.opBins q).contains b
  | none => bs

/-- The operation that MRES re-enters, checked as at issue (08 R161). -/
def State.mresOp (s : State) (a : Reg) : Except Stop (MmaOp × Nat × Nat × Nat × Dword) :=
  let w := (s.g.sreg a.toNat).toNat
  let mop : Dword := s.g.spair (a.toNat + 1)
  let row := bitsOf w 7 0
  let col := bitsOf w 15 8
  let dep := bitsOf w 20 16
  if !bitOf w 31 then .error (mresTrap mop.toNat)
  else
    match s.fetchMma mop with
    | .error e => .error e
    | .ok none => .error (mresTrap mop.toNat)
    | .ok (some o) =>
      let m := mshape (s.slotBytes o.slot)
      if o.zd ≠ bitsOf w 23 21 ∨ 127 < row ∨ 127 < col then .error (mresTrap mop.toNat)
      else
        match firstErr [need (decide (o.zd < s.tm.zAlloc)) (.trap { code := tREGIDX, detail := 3 + 65536 * s.tm.zAlloc + 2 ^ 32 * o.zd }),
            s.checkSlot o.slot (minorTakes o.minor), s.checkBins (s.mresBins (mmaBins m o.a o.b)),
            if m.units ≤ dep then .error (mresTrap mop.toNat) else .ok ()] with
        | .error e => .error e
        | .ok _ => .ok (o, dep, row, col, mop)

/-- MRES (08 R161; 22 R376): the re-entered operation replaces a stopped one, and it and the operations held behind it count as issued now, in their
order, after what was issued in the stop. -/
def execMres (a : Reg) (e : Bool) (s : State) : Out :=
  s.run avSeq [sref a 4] e
    (match firstErr [if s.g.seq.stopped.isSome then .ok () else s.checkCtr .tl, if s.g.seq.stopped.isSome then .ok () else s.checkHeld], s.mresOp a with
     | .error st, _ => .error st
     | _, .error st => .error st
     | .ok _, .ok (o, dep, row, col, mop) =>
       let gid := s.cur.gid
       let enter (q : MatOp) (pinned : Bool) : MatOp :=
         { q with kind := .mma o.minor o.slot o.a o.b o.zd, pc := mop, dep := dep, row := row, col := col, pinned := pinned }
       match s.g.seq.stopped with
       | some q =>
         let c := s.cluster s.g.cluster
         let held := c.ops.filter fun q => q.gid == gid && s.heldBack c q
         let s := s.setCl s.g.cluster fun c =>
           { c with ops := (c.ops.filter fun q => !held.contains q) ++ enter q true :: held.map fun q => { q with pinned := q.pinned || q.tile?.isSome } }
         .ok (s.modG fun g => { g with seq := { g.seq with stopped := none } })
       | none =>
         let s := s.issueOp (.mma o.minor o.slot o.a o.b o.zd)
         .ok (s.setCl s.g.cluster fun c => { c with ops := c.ops.dropLast ++ c.ops.getLast?.toList.map fun q => enter q false }))

/-- MSTAT (08 R161). -/
def execMstat (a : Reg) (e : Bool) (s : State) : Out :=
  let n := (s.agentOps s.cur.gid).length
  s.runOk avHomeSeq [sref a] e
    (s.writeS a [w32 (b2n s.g.seq.stopped.isSome + 2 * b2n (decide (n ≠ 0)) + 256 * min 255 n)])

end Sys2Proof.Machine
end

