-- ==== Sys2Proof/Machine/Migrate.lean ====
section
/-! DEFINITION. GO, GOHOME and REJOIN (10 R194, R195; 15 R305 to R307). -/
namespace Sys2Proof.Machine

/-- Where a GO's address leads: the destination, none for a HOST page, which no die owns (15 R300, R305; 16 R314). -/
def State.goDest (s : State) (lane va : Nat) : Except Stop (Option Dest) :=
  if !s.isLocal va then .ok (s.destOf s.cur.gid va (.remote va))
  else
    match s.xlateSince s.g.die s.g.ctx va .read false (s.stallStart s.cur.gid lane va) s.g.tlbCore with
    | .ok t _ => .ok (s.destOf s.cur.gid va t)
    | .replay r l => .error (.replay va r l)
    | .moving l => .error (stallStop l va)
    | .prot u => .error (protTrap u lane va)

/-- The lanes of a GO that stay write P: set where they stand at the destination already, cleared where they were refused; a free value for a
HOST page, for which the spec names no destination (log 2). -/
def State.goStay (s : State) (p : Nat) (ds : List (Nat × Option Dest)) : State :=
  let s := { s with fresh := s.fresh + 1 }
  s.modG fun g => g.forLanes s.batch fun g l =>
    match ds.find? fun x => x.1 == l with
    | some (_, some d) => g.pset l p (s.g.standsAt d && (s.g.fib l).refused.isNone)
    | _ => g.pset l p ((Config.freeValue (s.fresh - 1)).getLsbD 0)

/-- GO (15 R305). -/
def execGo (b : Reg) (a : PReg) (e : Bool) (s : State) : Out :=
  let va (l : Nat) := (s.g.vpair l (s.g.phys l b)).toNat
  s.runEnd avCore [vsrc b 2, pref a.toNat]
    (match eachLane s.batch (fun l => decide (va l % 8 = 0)) (fun l => memTrap tALIGN 2 l (va l)) with
     | .error st => .error st
     | .ok _ =>
       match firstStop (fun l => match s.goDest l (va l) with | .ok d => .ok (l, d) | .error st => .error st) s.batch with
       | .error st => .error st
       | .ok ds =>
         let s := s.tlbFills s.g.die s.g.ctx ((s.batch.map va).filter s.isLocal) s.g.tlbCore
         let away := ds.filterMap fun x => match x.2 with | some d => if s.g.standsAt d && (s.g.fib x.1).refused.isNone then none else some (x.1, va x.1, d) | none => none
         match (if away.isEmpty then .gone s s.batch else s.migrate s.cur.npc a.toNat away) with
         | .stop s st => .ok (s.halt st)
         | .wait s => .ok (s.blockOn .depart)
         | .gone s left => if left.isEmpty then .ok s.endRun else .ok (((s.narrow left).goStay a.toNat ds).retire e))

/-- A guest's fibres leave for home (15 R306): once their accesses are performed and their returns have landed. -/
def State.goHome (s : State) : State :=
  match s.flushGroup s.cur.gid with
  | (false, s) => s.blockOn .depart
  | (true, s) =>
    if s.g.returns.any fun r => r.lanes.any fun x => s.batch.contains x.lane then s.blockOn .depart
    else (s.leaveGuest s.cur.gid s.batch s.cur.npc.toNat false).endRun

/-- GOHOME (15 R306). -/
def execGohome (e : Bool) (s : State) : Out :=
  s.runEnd { cellar := s.g.isGuest, guest := true } [] (.ok (if s.g.isGuest then s.goHome else s.retire e))

/-- Some fibre of a group is away (15 R307; 22 R375). -/
def Group.anyAway (g : Group) : Bool := g.fibres.any fun e => e.2.life == .away

/-- A fibre is away for REJOIN (15 R307): from its departure, which has begun while it waits only for its earlier accesses (DEDUCED, log 127), until it
stands at home again. -/
def Group.rejoinWaits (g : Group) : Bool := g.anyAway || g.fibres.any fun e => e.2.life == .live && e.2.wait == .depart

/-- REJOIN (15 R307). -/
def execRejoin (e : Bool) (s : State) : Out :=
  s.run avHome [] e
    (if s.g.rejoinWaits then .error (.block .rejoin) else .ok ((s.l1Acquire s.g.place).raceTick s.cur.gid s.batch.length))

end Sys2Proof.Machine
end

