-- ==== Sys2Proof/Machine/Ncall.lean ====
section
/-! DEFINITION. The instructions of cellar calls: NCALL, NWAIT, NRET, MBXS, MBXW, SKIPZ (10 R198; 14 R276 to R282; 15 R296 to R299). -/
namespace Sys2Proof.Machine

/-! ### The argument message (14 R276, R277) -/

/-- An NCALLERR trap: cause, range number, address (14 R277). -/
def callErr (cause rng addr : Nat) : Stop := .trap { code := tNCALLERR, detail := cause + 256 * rng, addr := addr }
/-- NCALLERR cause 2, which has no address; its freeze record names the program's handle (14 R277; 16 R324, R326). -/
def progErr (prog : Nat) : Stop := .trap { code := tNCALLERR, detail := 2, freezes := true, handle := some prog }

/-- A range of the message: VA and LEN (14 Table 14.1). -/
def msgRange (m : List Byte) (k : Nat) : Nat × Nat := (fieldAt m (0x40 + 16 * k) 8, fieldAt m (0x48 + 16 * k) 8)
/-- A range is used: k < NIN, or k − 4 < NOUT. -/
def msgUses (m : List Byte) (k : Nat) : Bool := if k < 4 then decide (k < fieldAt m 6 1) else decide (k - 4 < fieldAt m 7 1)
/-- The used ranges in order: number, VA, LEN. -/
def msgRanges (m : List Byte) : List (Nat × Nat × Nat) := ((List.range 8).filter (msgUses m)).map fun k => (k, msgRange m k)

/-- The cellar cores of a stack in service (17 R346). -/
def State.cellarsIn (s : State) (stack : Nat) : List Nat := ((List.range 32).map (· + 32 * stack)).filter fun c => !(s.cellar c).out

/-- A CELLTAB entry of a context (16 R320): none for a handle out of range. -/
def State.cellEntry (s : State) (ctx h : Nat) : Option (List Byte) :=
  if (s.ctx ctx).fld 0x56 2 ≤ h then none else some (s.homeRead ((s.ctx ctx).fld 0x48 8 + 64 * h) 64)

/-- Cause 1 of 14 R277: every field in its limits. -/
def State.msgFields (s : State) (m : List Byte) : Bool :=
  let f := fieldAt m
  decide (f 4 1 ≤ 15 ∧ 1 ≤ f 5 1 ∧ f 5 1 ≤ (s.cellarsIn (f 4 1)).length ∧ f 6 1 ≤ 4 ∧ f 7 1 ≤ 4 ∧ f 8 4 < 256 ∧ f 0xC 4 % 16 = 0 ∧
    f 0xC 4 + 144 ≤ s.tm.larderSize ∧ f 0x18 8 % 64 = 0) &&
    (List.range 8).all (fun k => msgUses m k || msgRange m k == (0, 0)) && (sliceAt m 0xC0 64).all (· == 0)

/-- Cause 2: PROG names a cellar program of the context; one of another context freezes (16 R320, R324). -/
def State.msgProg (s : State) (m : List Byte) : Except Stop Unit :=
  match s.cellEntry s.g.ctx (fieldAt m 0 4) with
  | none => .error (progErr (fieldAt m 0 4))
  | some b => need (fieldAt b 0 1 == s.g.ctx && decide (0 < fieldAt b 0x10 8 ∧ fieldAt b 0x10 8 ≤ 65536)) (progErr (fieldAt m 0 4))

/-- The pairs of output ranges in order (14 R277). -/
def outPairs : List (Nat × Nat) := [(4, 5), (4, 6), (4, 7), (5, 6), (5, 7), (6, 7)]

/-- Causes 1, 2, 3, 4, 7 and 8 (14 R277). -/
def State.msgChecks (s : State) (m : List Byte) : Except Stop Unit :=
  let rs := msgRanges m
  let bad (c : Nat) (p : Nat × Nat × Nat → Bool) : Except Stop Unit :=
    match rs.find? p with | some r => .error (callErr c r.1 r.2.1) | none => .ok ()
  let meet (p : Nat × Nat) : Bool :=
    msgUses m p.1 && msgUses m p.2 && overlaps (msgRange m p.1).1 (msgRange m p.1).2 (msgRange m p.2).1 (msgRange m p.2).2
  firstErr
    [ need (s.msgFields m) (callErr 1 0 0), s.msgProg m, bad 3 (fun r => decide (r.2.2 = 0 ∨ 2 ^ 64 < r.2.1 + r.2.2)),
      bad 4 (fun r => !s.isLocal r.2.1 || !s.isLocal (r.2.1 + r.2.2 - 1)),
      (match outPairs.find? meet with | some p => .error (callErr 7 p.2 (msgRange m p.2).1) | none => .ok ()),
      need (fieldAt m 0x14 4 = 0 || decide ((fieldAt m 0x10 4 + fieldAt m 0x14 4) * 65536 ≤ (s.stack (fieldAt m 4 1)).ways * 2 ^ 27)) (callErr 8 0 0) ]

/-- The leaf of a page: entry and page size, or what a page without one does (14 R277). -/
def State.leafOf (s : State) (va : Nat) (write : Bool) : Except Stop (Nat × Nat) :=
  match s.lookup s.g.die s.g.ctx va write with
  | .leaf e size _ => .ok (e, size)
  | .bad r l => .error (.replay va r l)
  | .moving l =>
    if l = 0 then .error (linkStop va) else if s.now < s.stallStart s.cur.gid s.lane0 va + movingLimit then .error (movingStop va) else .error (.replay va 2 l)

/-- One page of a range (14 R277): causes 5 and 6, then permission, PROT with cause 7. -/
def State.rangePage (s : State) (stack k va : Nat) : Except Stop (Nat × Nat × Nat) :=
  match s.leafOf va (decide (4 ≤ k)) with
  | .error e => .error e
  | .ok (e, size) =>
    if stackOf (pteAddr e + va % size) != stack then .error (callErr 5 k va)
    else if pteBit e 9 then .error (callErr 6 k va)
    else
      match permits e (if 4 ≤ k then .write else .read) true with
      | some u => .error (protTrap u s.lane0 va)
      | none => .ok (va / size * size, size, pteAddr e)

/-- The pages of bytes from an address up, by at most n of them. -/
def pagesFrom (f : Nat → Except Stop (Nat × Nat × Nat)) (stop : Nat) : Nat → Nat → Except Stop (List (Nat × Nat × Nat))
  | 0, _ => .ok []
  | n + 1, va =>
    if stop ≤ va then .ok []
    else
      match f va with
      | .error e => .error e
      | .ok p => match pagesFrom f stop n (p.1 + p.2.1) with | .error e => .error e | .ok l => .ok (p :: l)

/-- Every page of bytes in ascending address; the smallest page has 64 KiB (16 R313). -/
def pagesOver (f : Nat → Except Stop (Nat × Nat × Nat)) (va len : Nat) : Except Stop (List (Nat × Nat × Nat)) :=
  pagesFrom f (va + len) (len / 65536 + 2) va

/-- The pages of the used ranges in order (14 R277). -/
def State.rangePages (s : State) (stack : Nat) : List (Nat × Nat × Nat) → Except Stop (List (Nat × Nat × Nat))
  | [] => .ok []
  | r :: rs =>
    match pagesOver (s.rangePage stack r.1) r.2.1 r.2.2 with
    | .error e => .error e
    | .ok l => match s.rangePages stack rs with | .error e => .error e | .ok m => .ok (l ++ m)

/-- One page of the program image: base, size, entry (14 R277, R278). -/
def State.imagePage (s : State) (va : Nat) : Except Stop (Nat × Nat × Nat) :=
  if !s.isLocal va then .error (.replay va 1 1)
  else
    match s.leafOf va false with
    | .error e => .error e
    | .ok (e, size) => match permits e .read true with | some u => .error (protTrap u s.lane0 va) | none => .ok (va / size * size, size, e)

/-- The eight format slots of a message, as they stand (05 R97; 14 R275). -/
def State.readSlots (s : State) (va : Nat) : Nat → Except Stop (List Byte)
  | 0 => .ok []
  | n + 1 =>
    if va = 0 then .ok (List.replicate 512 0)
    else
      match s.readRecord va, s.readRecord (va + 32), s.readSlots (va + 64) n with
      | .error e, _, _ => .error e
      | _, .error e, _ => .error e
      | _, _, .error e => .error e
      | .ok a, .ok b, .ok l => .ok (a ++ b ++ l)

/-! ### NCALL (10 R198; 14 R278; 15 R296) -/

/-- The lines that device ranges meet. -/
def rangeLines (ps : List (Nat × Nat)) : List Nat :=
  distinct (ps.flatMap fun p => if p.2 = 0 then [] else (List.range ((p.1 + p.2 - 1) / 256 + 1 - p.1 / 256)).map (· + p.1 / 256))

/-- Lines leave every L2 of the module, what they held modified written back; an engine that owns one stays its owner (09 R173; 10 R187). -/
def State.linesOut (s : State) (lines : List Nat) : State :=
  let s := lines.foldl State.l2Back s
  let s := { s with dies := s.dies.map fun e => (e.1, { e.2 with l2 := e.2.l2.filter fun l => !lines.contains l }) }
  lines.foldl (fun s l =>
    if thas s.dir l then s.setDir l { owner := match (s.dirOf l).owner with | some (.engine e) => some (.engine e) | _ => none } else s) s

/-- The device ranges of a call's granted bytes: pieces of its ranges k with p, page by page. -/
def Call.devRanges (c : Call) (p : Nat → Bool) : List (Nat × Nat) :=
  ((List.range 8).filter p).flatMap fun k =>
    let r := c.range k
    c.pages.filterMap fun q =>
      let lo := Nat.max r.1 q.1
      let hi := Nat.min (r.1 + r.2) (q.1 + q.2.1)
      if lo < hi then some (q.2.2 + (lo - q.1), hi - lo) else none

/-- Calls of a stack accepted and not complete (14 R278). -/
def State.callsAt (s : State) (stack : Nat) : Nat := (s.calls.filter fun e => e.2.stack == stack).length

/-- A call accepted (10 R198; 14 R278): STATE becomes 0, the L2s write back the input ranges' lines and give up the output ranges', and it queues at
its stack. -/
def State.acceptCall (s : State) (c : Call) : State :=
  let (n, s) := s.newId
  let s := (rangeLines (c.devRanges fun k => decide (k < 4))).foldl State.l2Back (s.ownWrite s.g.tid c.statusOff (leBytes 4 0))
  let s := s.linesOut (rangeLines (c.devRanges fun k => decide (4 ≤ k)))
  (({ s with calls := tput s.calls n c } : State)).setS c.stack fun k => { k with callQueue := k.callQueue ++ [n] }

/-- The call a message describes, its checks passed (14 R276, R277). -/
def State.callOf (s : State) (m : List Byte) : Except Stop Call :=
  let ent := (s.cellEntry s.g.ctx (fieldAt m 0 4)).getD []
  match s.msgChecks m with
  | .error e => .error e
  | .ok _ =>
    match s.rangePages (fieldAt m 4 1) (msgRanges m) with
    | .error e => .error e
    | .ok ps =>
      match pagesOver s.imagePage (fieldAt ent 8 8) (fieldAt ent 0x10 8) with
      | .error e => .error e
      | .ok is =>
        match s.readSlots (fieldAt m 0x18 8) 8 with
        | .error e => .error e
        | .ok sl =>
          .ok { gid := s.cur.gid, tid := s.g.tid, ctx := s.g.ctx, stack := fieldAt m 4 1, cores := fieldAt m 5 1, msg := m, slots := sl, pages := ps,
                image := fieldAt ent 8 8, imageSize := fieldAt ent 0x10 8, imagePages := is, statusOff := fieldAt m 0xC 4 }

/-- NCALL (15 R296). -/
def execNcall (a : Reg) (e : Bool) (s : State) : Out :=
  s.runEnd avHome [sref a]
    (let off := (s.g.sreg a.toNat).toNat
     match need (decide (off % 64 = 0 ∧ off + 256 ≤ s.tm.larderSize)) (callErr 1 0 0) with
     | .error st => .error st
     | .ok _ =>
       match s.fillAll [(s.lane0, off)] 256 2048 with
       | .error st => .error st
       | .ok (false, s) => .ok (s.blockOn .remote)
       | .ok (true, s) =>
         let (m, pois, s) := s.readAt s.cur.gid (.larder off) 256
         if pois then .error (.trap { code := tPOISON, addr := off })
         else
           match s.callOf m with
           | .error st => .error st
           | .ok c =>
             if 64 ≤ s.callsAt c.stack then .ok (s.blockOn (.ncall c.stack))
             else
               match s.fenceNow .module .release with
               | (false, s) => .ok (s.blockOn (.fence .module))
               | (true, s) => .ok (((s.acceptCall c).raceTick s.cur.gid s.batch.length).retire e))

/-- NWAIT (15 R297): an acquire at MODULE scope. -/
def execNwait (b a : Reg) (e : Bool) (s : State) : Out :=
  s.runEnd avHome [sref a, sref b]
    (let off := (s.g.sreg b.toNat).toNat
     match s.checkWord off 16 4 with
     | .error st => .error st
     | .ok _ =>
       match s.fillAll [(s.lane0, off)] 4 2048 with
       | .error st => .error st
       | .ok (false, s) => .ok (s.blockOn .remote)
       | .ok (true, s) =>
         let (bs, pois, s) := s.readAt s.cur.gid (.larder off) 4
         if pois then .error (.trap { code := tPOISON, detail := 256 + 2 ^ 32 * a.toNat, addr := off })
         else if leNat bs = 0 then .ok (s.blockOn (.nwait off))
         else .ok ((((s.l1Acquire s.g.place).raceTick s.cur.gid s.batch.length).writeS a [w32 (leNat bs)]).retire e))

/-! ### On the cellar cores (14 R279, R280, R282; 15 R298, R299) -/

/-- NRET (15 R298): the core's part of the call ends with its last fibre. -/
def execNret (_e : Bool) (s : State) : Out :=
  s.runEnd avCellar []
    (let s := s.modG fun g => g.forLanes s.batch Group.freeLane
     .ok (s.modG fun g => { g with ended := g.unended.isEmpty }).endRun)

/-- The call and core index of the issuing group. -/
def State.myCall (s : State) : Call := s.call (s.g.call.getD (0, 0)).1

/-- MBXS (15 R298): a release. -/
def execMbxs (n : BitVec 2) (b a : Reg) (e : Bool) (s : State) : Out :=
  s.runEnd avCellar [sref a, vsrc b]
    (let k := (s.g.sreg a.toNat).toNat
     let box := n.toNat
     match need (decide (k < s.myCall.cores)) (s.uniTrap tBOUNDS 6 0) with
     | .error st => .error st
     | .ok _ =>
       let dst := (s.myCall.members.drop k).headD 0
       if (s.cellar dst).wake.getLsbD box then .ok (s.blockOn (.mbxFull dst box))
       else
         match s.drainQueue s.cur.gid with
         | (false, s) => .ok (s.blockOn (.fence .team))
         | (true, s) =>
           let data := (List.range 16).flatMap fun l => if bitOf s.cur.mask l then leBytes 4 (s.g.old l b).toNat else leBytes 4 0
           .ok ((s.setCe dst fun c => { c with boxes := tput c.boxes box data, boxPoison := c.boxPoison.filter (· / 8 != box), wake := c.wake ||| BitVec.ofNat 4 (2 ^ box) }).retire e))

/-- No other batch has waited longer for a dumbwaiter: batches take messages in issue order (15 R298). -/
def Group.mbxTurn (g : Group) (w : Wait) (mask since : Nat) : Bool :=
  g.liveLanes.all fun l => bitOf mask l || (g.fib l).wait != w || decide (since ≤ (g.fib l).waitSince)

/-- MBXW (15 R298): an acquire. -/
def execMbxw (n : BitVec 2) (a : Reg) (e : Bool) (s : State) : Out :=
  s.runEnd avCellar [vdst a]
    (let box := n.toNat
     let me := s.g.place
     let f := s.g.fib s.lane0
     if !((s.cellar me).wake.getLsbD box && s.g.mbxTurn (.mbxEmpty me box) s.cur.mask (if f.wait = .mbxEmpty me box then f.waitSince else s.now)) then
       .ok (s.blockOn (.mbxEmpty me box))
     else
       let data := tget [] (s.cellar me).boxes box
       let bad := (s.cellar me).boxPoison
       let s := s.writeV a fun l => ([w32 (fieldAt data (4 * l) 4)], 0)
       -- a lane whose word has an uncorrectable error is poisoned (02 R44; 17 R344)
       let s := s.modG fun g => g.forLanes (s.batch.filter fun l => bad.contains (8 * box + l / 2)) fun g l =>
         g.vput l (g.phys l a) { g.vlane l (g.phys l a) with pois := true }
       .ok ((s.setCe me fun c => { c with boxes := tdel c.boxes box, boxPoison := c.boxPoison.filter (· / 8 != box), wake := c.wake &&& ~~~(BitVec.ofNat 4 (2 ^ box)) }).retire e))

/-- One lane's search of the stream (15 R299), by at most n words: the block found and whether a word carried poison, or the address of a
word outside the input ranges. -/
def State.skipScan (s : State) (stream len : Nat) : Nat → Nat → Except Nat (Nat × Bool)
  | 0, _ => .ok (0xFFFFFFFF, false)
  | n + 1, i =>
    let k := i / 32
    if len ≤ k then .ok (0xFFFFFFFF, false)
    else
      let va := (stream + 4 * k) % 2 ^ 64
      if !([0, 1, 2, 3].any fun q => let r := s.myCall.range q; decide (r.2 ≠ 0 ∧ r.1 ≤ va ∧ va + 4 ≤ r.1 + r.2)) then .error va
      else
        let (bs, pois, _) := s.readAt s.cur.gid (.dev (s.myCall.devOf va) 3) 4
        let m := leNat bs / 2 ^ (i % 32) * 2 ^ (i % 32)
        if m ≠ 0 then .ok (32 * k + trailZeros 32 m, pois)
        else
          match s.skipScan stream len n (32 * (k + 1)) with
          | .ok (v, p) => .ok (v, p || pois)
          | .error va => .error va

/-- SKIPZ (15 R299): it counts in LD until every lane is written. -/
def execSkipz (c b a : Reg) (e : Bool) (s : State) : Out :=
  s.runEnd avCellar [vsrc b, vdst a, sref c 3]
    (let stream := (s.g.spair c.toNat).toNat
     let len := (s.g.sreg (c.toNat + 2)).toNat
     match firstErr [s.checkCtr .ld, need (decide (stream % 4 = 0)) (s.uniTrap tALIGN 2 stream)] with
     | .error st => .error st
     | .ok _ =>
       match s.drainQueue s.cur.gid with
       | (false, s) => .ok (s.blockOn (.fence .team))
       | (true, s) =>
         match firstStop (fun l =>
             let i := (s.g.old l b).toNat
             match s.skipScan stream len (len - i / 32 + 1) i with
             | .ok r => .ok (l, r)
             | .error va => .error (memTrap tPROT 3 l va)) s.batch with
         | .error st => .error st
         | .ok rs =>
           let (rid, s) := s.newId
           let ls := rs.map fun r =>
             ({ lane := r.1, ready := true, dst := s.g.phys r.1 a, ws := vWrites r.1 (s.g.phys r.1 a) r.2.2 [w32 r.2.1] } : LaneRet)
           .ok ((s.modG fun g => g.begin { id := rid, kind := .skipz, ctr := some .ld, regs := s.destRegs a 1, lanes := ls, issue := s.cur }).retire e))

end Sys2Proof.Machine
end

