-- ==== Sys2Proof/Machine/Sched.lean ====
section
/-! DEFINITION. Readiness, batches and issue slots (13 R264, R265), and what reaches the module from outside between its turns (log 1). -/
namespace Sys2Proof.Machine

/-! ### Readiness (03 R48; 13 R264) -/

/-- The phase of a barrier that a fibre arrived in has completed (15 R293). -/
def State.phaseOver (s : State) (gid l n : Nat) : Bool :=
  decide (tget 0 ((s.grp gid).fib l).arrived n ≤ tget 0 (s.team (s.grp gid).tid).barriers n)

/-- A 32-bit word of the larder as a group reads it. -/
def State.larderWord (s : State) (gid off : Nat) : Nat := leNat (s.readAt gid (.larder off) 4).1

/-- A larder word lies in a window's line that has not been filled, so that its waiter's instruction issues again and fills it (09 R165). -/
def State.unfilledWord (s : State) (gid off : Nat) : Bool := ((s.team (s.grp gid).tid).unfilled [(0, off)] 4).isSome

/-- A cellar core's dumbwaiter holds a message that a fibre's batch takes next (15 R298). -/
def State.boxReady (s : State) (gid l cell n : Nat) : Bool :=
  let g := s.grp gid
  (s.cellar cell).wake.getLsbD n && g.liveLanes.all fun k => (g.fib k).wait != .mbxEmpty cell n || decide ((g.fib l).waitSince ≤ (g.fib k).waitSince)

/-- A release of a group at a scope would complete now: its queue empties and what its core must bring home first is home (10 R182; 11 R222). -/
def State.fenceReady (s : State) (gid : Nat) (k : Scope) : Bool :=
  let (ok, t) := s.drainAll gid
  ok && (!(s.grp gid).hasL1 || (t.releaseDone (s.grp gid).place k).1)

/-- A ring has room for n packets, or its header cannot be read now (11 R233). -/
def State.ringReady (s : State) (gid q n : Nat) : Bool :=
  match State.ringWrite { s with cur := { gid := gid, mask := 1 } } (s.queue q).ring 64 with
  | .error _ => true
  | .ok h => decide ((leNat (s.tgtRead h 8) + 2 ^ 64 - leNat (s.tgtRead (h.off 8) 8)) % 2 ^ 64 + n ≤ (s.queue q).entries)

/-- The condition a fibre waits for is over, so its instruction may issue and be evaluated again (13 R264). A stall on MOVING or behind a link is over when a
trial of the instruction finds it so (`State.noteTried`). -/
def State.waitOver (s : State) (gid l : Nat) : Bool :=
  let g := s.grp gid
  let t := s.team g.tid
  match (g.fib l).wait with
  | .none => true
  | .scoreboard rs => rs.all fun r => !g.pending r
  | .counter c => decide (g.ctr c < 63)
  | .counts ld st cp tl => g.countsMet ld st cp tl
  | .qFull q n => decide ((t.queue q).length + n ≤ 32)
  | .qEmpty q n => decide (n ≤ (takeable (t.queue q)).length)
  | .claim _ n => (t.freeRun n).isSome
  | .barrier n => s.phaseOver gid l n
  | .rearrive n => s.phaseOver gid l n
  | .waitb n => s.phaseOver gid l n
  | .barg => decide ((g.fib l).bargAt ≤ (s.grid t.grid).bargPhase)
  | .swwait off gen => s.unfilledWord gid (off + 8) || genReached (s.larderWord gid (off + 8)) gen
  | .nwait off => s.unfilledWord gid off || s.larderWord gid off != 0
  | .bwait n => decide (g.unfinished ≤ n)
  | .ncall stack => decide (s.callsAt stack < 64)
  | .launch => decide (s.unplacedGrids g.ctx < 4096)
  | .ring q n => s.ringReady gid q n
  | .shelf => decide ((s.cluster g.cluster).shelfUsed < 64)
  | .seal => decide (g.unfinished < 64)
  | .fence k => s.fenceReady gid k
  | .reach t b => s.reaches gid t b
  | .rejoin => !g.rejoinWaits
  | .remote => !(s.reqs.any fun r => r.gid == gid && (match r.use with | .fill _ _ _ _ => true | _ => false))
  | .resend => decide ((g.fib l).waitSince + 4 * usTicks ≤ s.now)
  | .depart => s.fenceReady gid .system && !(g.returns.any fun r => r.lanes.any fun x => x.lane == l)
  | .handler => false
  | .record => !(s.recordWaits gid)
  | .mbxFull cell n => !(s.cellar cell).wake.getLsbD n
  | .mbxEmpty cell n => s.boxReady gid l cell n
  | .array => decide ((s.heldOps gid).length < 255)
  | .mmas a => !s.mmasWaits gid a
  | .fpflags => !(g.returns.any (·.kind == .qnt))
  | .moving _ => (g.fib l).movingOver
  | .link _ => (g.fib l).movingOver

/-- A fibre stands at a WAIT whose counters are still too high, which blocks its whole group (15 R290). -/
def Group.waitHolds (g : Group) : Bool :=
  g.liveLanes.any fun l => match (g.fib l).wait with | .counts ld st cp tl => !g.countsMet ld st cp tl | _ => false

/-- An instruction that another module answered NOMAP or NONRES issues again after 4 µs, and its group issues nothing before (11 R206; 12 R249). -/
def State.resendHolds (s : State) (gid : Nat) : Bool :=
  (s.grp gid).liveLanes.any fun l => let f := (s.grp gid).fib l; f.wait == .resend && decide (s.now < f.waitSince + 4 * usTicks)

/-- The group may issue: it holds nothing back, its context runs, no trap of the array is due, its team is resident and not being saved, no WAIT
stands unmet, and no lane of an access to another module is unanswered (11 R206; 13 R266, R269; 15 R290; 16 R325). -/
def State.mayIssue (s : State) (gid : Nat) : Bool :=
  let g := s.grp gid
  let t := s.team g.tid
  thas s.groups gid && !s.stopped gid && !(g.returns.any (·.stall)) && g.poisonDue.isNone && g.seq.due.isNone && !g.waitHolds && !s.resendHolds gid &&
    (g.tid == 0 || (t.phase == .resident && t.saving.isNone)) && !(match g.kind with | .core => (s.core g.place).out || (s.core g.place).retiring.isSome | _ => false)

/-- The fibres that a group may issue: of one that is replayable at an instruction, those that stand there (11 R206). -/
def Group.mayGo (g : Group) : List Nat :=
  if g.liveLanes.any fun l => (g.fib l).wait == .resend then g.liveLanes.filter fun l => (g.fib l).wait == .resend else g.liveLanes

/-- The ready fibres of a group. -/
def State.readyLanes (s : State) (gid : Nat) : List Nat :=
  if s.mayIssue gid then (s.grp gid).mayGo.filter fun l => s.waitOver gid l else []

/-- The PCs at which ready fibres stand, each once. -/
def State.readyPcs (s : State) (gid : Nat) : List Nat := distinct ((s.readyLanes gid).map fun l => ((s.grp gid).fib l).pc.toNat)

/-- The age of the batch at a PC (13 R264). -/
def Group.ageAt (g : Group) (pc : Nat) : Nat := match g.ages.find? fun e => e.1.toNat == pc with | some e => e.2 | none => 0

/-- The batch that a group chooses among the PCs of its ready fibres (13 R264): the oldest of age 64 and above, else the lowest PC. -/
def Group.choose (g : Group) (pcs : List Nat) : Option Nat :=
  let old := pcs.filter fun p => decide (64 ≤ g.ageAt p)
  let top := (old.map g.ageAt).foldl max 0
  match minOf (old.filter fun p => g.ageAt p == top) with
  | some p => some p
  | none => minOf pcs

/-- The ages once a run of the chosen batch has completed (13 R264). -/
def Group.agesAfter (g : Group) (pcs : List Nat) (chosen : Nat) : List (Dword × Nat) :=
  (g.ages.filter fun e => !pcs.contains e.1.toNat) ++
    (pcs.filter (· != chosen)).map fun p => (BitVec.ofNat 64 p, g.ageAt p + 1)

/-- After a YIELD each other context that is ready issues once first (15 R289). -/
def State.yields (s : State) (gid : Nat) : Bool := (s.grp gid).seq.yieldTo.any fun h => !(s.readyLanes h).isEmpty

/-- The contexts of a cluster's sequencer that are ready and owe no other its turn, by context number. -/
def State.seqReady (s : State) (cl : Nat) : List (Nat × Nat) :=
  (s.groups.filter fun e => e.2.kind == .sequencer && e.2.place == cl && !(s.readyLanes e.1).isEmpty && !s.yields e.1).map fun e => (e.2.slot, e.1)

/-- A context is the next that its sequencer issues from: round-robin among the ready ones (07 R136). -/
def State.seqTurn (s : State) (gid : Nat) : Bool :=
  let rs := s.seqReady (s.grp gid).place
  let last := (s.cluster (s.grp gid).place).lastIssued
  let later := rs.filter fun r => decide (last ≤ r.1)
  match minOf ((if later.isEmpty then rs else later).map (·.1)) with
  | some k => k == (s.grp gid).slot && rs.any fun r => r.2 == gid
  | none => false

/-- The batch of a group that an issue at a PC takes: the run on its slot for a core's group, the chosen batch of a cellar core's, the fibre of a
context whose turn it is (07 R136; 13 R264; 14 R272). -/
def State.batchAt (s : State) (gid : Nat) (pc : Dword) : Nat :=
  let g := s.grp gid
  let all := maskOf ((s.readyLanes gid).filter fun l => (g.fib l).pc == pc)
  match g.kind with
  | .core =>
    match (s.core g.place).slotOf gid with
    | some k =>
      let r := tget {} (s.core g.place).slots k
      if r.pc = pc && s.mayIssue gid then r.mask &&& maskOf (g.liveLanes.filter fun l => (g.fib l).pc == pc) else 0
    | none => 0
  | .cellar => if g.choose (s.readyPcs gid) = some pc.toNat then all else 0
  | .sequencer => if s.seqTurn gid then all else 0

/-- The issue of a batch begins at its first word (03 R48, R54); a context that issues has had its turn (15 R289). -/
def State.startIssue (s : State) (gid : Nat) (pc : Dword) : State :=
  let m := s.batchAt gid pc
  let g := s.grp gid
  match g.kind with
  | .core => { s with cur := { gid := gid, mask := m, pc := pc, npc := pc } }
  | .cellar => { s with cur := { gid := gid, mask := m, pc := pc, npc := pc, ages := g.agesAfter (s.readyPcs gid) pc.toNat } }
  | .sequencer =>
    let s := (s.otherContexts gid).foldl (fun s h => s.setG h fun g => { g with seq := { g.seq with yieldTo := g.seq.yieldTo.filter (· != gid) } }) s
    let s := s.setCl g.place fun c => { c with lastIssued := g.slot + 1 }
    { s with cur := { gid := gid, mask := m, pc := pc, npc := pc } }

/-! ### Batches and slots (13 R264, R265) -/

/-- The groups of a core, guests among them. -/
def State.coreGroups (s : State) (core : Nat) : List Nat :=
  (s.groups.filter fun e => e.2.kind == .core && e.2.place == core).map (·.1)

/-- A group's priority class: its team's, or its home's for a guest (13 R263). -/
def State.classOf (s : State) (gid : Nat) : Nat :=
  match (s.grp gid).guest with | some i => i.cls | none => (s.team (s.grp gid).tid).cls

/-- The group that has been ready longest among some; the lowest number on a tie. -/
def State.longestReady (s : State) (gids : List Nat) : Option Nat :=
  match minOf (gids.map fun g => (s.grp g).readySince) with
  | some t => minOf (gids.filter fun g => (s.grp g).readySince == t)
  | none => none

/-- The group that arbitration chooses among ready ones (13 R265). -/
def State.arbitrate (s : State) (gids : List Nat) : Option Nat :=
  match s.longestReady (gids.filter fun g => decide ((s.grp g).readySince + 4096 ≤ s.now)) with
  | some g => some g
  | none =>
    match minOf (gids.map s.classOf) with
    | some c => s.longestReady (gids.filter fun g => s.classOf g == c)
    | none => none

/-- A group's run begins on a slot (13 R264, R265). -/
def State.startRun (s : State) (core slot gid : Nat) : State :=
  let g := s.grp gid
  let pcs := s.readyPcs gid
  match g.choose pcs with
  | none => s
  | some p =>
    let mask := maskOf ((s.readyLanes gid).filter fun l => (g.fib l).pc.toNat == p)
    s.setC core fun c =>
      { c with slots := tput c.slots slot { gid := gid, mask := mask, pc := BitVec.ofNat 64 p, ages := g.agesAfter pcs p } }

/-- The run of a slot goes on: its batch may issue. -/
def State.runGoes (s : State) (core slot : Nat) : Bool :=
  let r := tget {} (s.core core).slots slot
  r.gid != 0 && s.batchAt r.gid r.pc != 0

/-- A run that cannot go on has ended: its group was stopped, or its fibres left (13 R264, R266). -/
def State.endSlot (s : State) (core slot : Nat) : State :=
  let r := tget {} (s.core core).slots slot
  if r.gid = 0 then s
  else
    let s := if r.count ≠ 0 && thas s.groups r.gid then s.setG r.gid fun g => { g with ages := r.ages, readySince := s.now } else s
    s.setC core fun c => { c with slots := tdel c.slots slot }

/-- ISSUE_SLOT_ARBITRATION (13 R264, R265): a free slot takes a ready group that is on no other. A thermal stop holds every run as it stands (19 R364). -/
def execIssueSlotArbitration (core slot : Nat) (s : State) : Out :=
  unitStep s (decide (core < 1024 ∧ slot < 4))
    (if s.thermalStop || s.runGoes core slot then s
     else
       let s := s.endSlot core slot
       let gs := (s.coreGroups core).filter fun g => ((s.core core).slotOf g).isNone
       match s.arbitrate (gs.filter fun g => !(s.readyLanes g).isEmpty) with
       | some g => s.startRun core slot g
       | none => s)

/-! ### What the arbiters see after each step (13 R265, R269) -/

/-- A core's group that has a ready batch and had none counts as ready from now on (13 R265). -/
def State.noteReady (s : State) : State :=
  if s.thermalStop then s
  else { s with groups := s.groups.map fun e =>
      if e.2.kind = .core then
        let r := !(s.readyLanes e.1).isEmpty
        (e.1, { e.2 with wasReady := r, readySince := if r && !e.2.wasReady then s.now else e.2.readySince })
      else e }

/-- Since when a non-resident team has fitted nowhere: from now on if it did fit, and not at all while it does (13 R269). -/
def noFitFrom (now : Nat) (fits : Bool) (since : Option Nat) : Option Nat := if fits then none else some (since.getD now)

/-- The non-resident teams that fit nowhere are noted with the time since when (13 R269). -/
def State.noteFits (s : State) : State :=
  s.candidates.foldl (fun s c =>
    let fits := s.candFitsSome c
    if c.tid = 0 then s.setGrid c.grid fun g => { g with noFit := noFitFrom s.now fits g.noFit }
    else s.setT c.tid fun t => { t with noFit := noFitFrom s.now fits t.noFit }) s

/-! ### From outside -/

/-- A sector of device memory in which an uncorrectable error arises (17 R344): sectors of the module's own memory only. -/
def State.errorAt (s : State) (sector : Nat) : State := if sector < 2 ^ 34 then (s.poisonSectors [sector]).tally 5 else s

/-- An uncorrectable error in a loft word (17 R344). -/
def State.loftErrorAt (s : State) (d w : Nat) : State :=
  if d < 8 ∧ w < 2 ^ 24 then (s.setD d fun k => { k with loftPoison := k.loftPoison ++ [w] }).tally 3 else s
/-- An uncorrectable error in a bin word (17 R344). -/
def State.binErrorAt (s : State) (c w : Nat) : State :=
  if c < 128 ∧ w < 2 ^ 19 then (s.setCl c fun k => { k with binPoison := k.binPoison ++ [w] }).tally 3 else s
/-- An uncorrectable error in a lane of a V register (02 R44; 17 R344). -/
def State.laneErrorAt (s : State) (gid l p : Nat) : State :=
  let g := s.grp gid
  if thas s.groups gid && decide (l < g.width) && decide (p < g.vAlloc) then
    (s.setG gid fun g => g.vput l p { g.vlane l p with pois := true, own := true }).tally 1 else s

/-- The issuing group's next instruction is fetched with its prefixes (03 R54). -/
def State.wholeInstr (s : State) : Nat → Except Stop State
  | 0 => .ok s
  | n + 1 =>
    match s.fetchWord with
    | (_, .error e) => .error e
    | (ps, .ok _) =>
      match decode s.cur.pre (wordOf ps) with
      | .ok (.lit p) => ((s.took ps).prefixed fun q => { q with lit := some p }).wholeInstr n
      | .ok (.mod p) => ((s.took ps).prefixed fun q => { q with mod := some p, modFirst := q.lit.isNone }).wholeInstr n
      | _ => .ok (s.took ps)
/-- The instruction that reads an S, T or P register with an uncorrectable error takes POISON (02 R44; 17 R344); nothing of it is performed. -/
def State.fileErrorAt (s : State) (gid : Nat) (pc : Dword) (r : RegRef) (lane : Nat) : State :=
  if s.batchAt gid pc = 0 ∨ (r.cls ≠ 1 ∧ r.cls ≠ 2 ∧ r.cls ≠ 5) then s
  else
    let u := s.startIssue gid pc
    match u.wholeInstr 3 with
    | .ok v => (v.takeTrap { code := tPOISON, detail := lane % 128 + 256 * r.cls + 2 ^ 32 * r.idx, file := true }).tally 1
    | .error e => u.halt e
/-- An uncorrectable error in a larder word (17 R344). -/
def State.larderErrorAt (s : State) (tid w : Nat) : State :=
  if thas s.teams tid && decide (8 * w < (s.team tid).larderSize) then (s.setT tid fun t => { t with larderPoison := t.larderPoison ++ [w] }).tally 3 else s
/-- An uncorrectable error in a word of an accumulator allotted to a team (17 R344). -/
def State.zErrorAt (s : State) (tid w : Nat) : State :=
  if thas s.teams tid && decide (w / 8192 < (s.team tid).zAlloc) then (s.setT tid fun t => { t with zBad := t.zBad ++ [w] }).tally 3 else s
/-- An uncorrectable error in a word that an L1 holds (17 R344). -/
def State.l1ErrorAt (s : State) (core w : Nat) : State :=
  if (s.core core).l1.any fun e => e.1 / 8 == w then
    (s.setC core fun c => { c with l1 := c.l1.map fun e => if e.1 / 8 = w then (e.1, { e.2 with bad := true }) else e }).tally 3 else s
/-- An uncorrectable error in a word of a cellar core's program store (17 R344). -/
def State.storeErrorAt (s : State) (cellar w : Nat) : State :=
  if 8 * w < (s.cellar cellar).store.length then (s.setCe cellar fun c => { c with storePoison := c.storePoison ++ [w] }).tally 3 else s
/-- An uncorrectable error in a shelf slot: the unit of 64 bytes is taken to its receivers as poison (17 R344). -/
def State.shelfErrorAt (s : State) (cluster slot u : Nat) : State :=
  if thas (s.cluster cluster).shelf slot then
    (s.setCl cluster fun c => { c with shelf := tmod { tag := 0, mask := 0, grid := 0, data := [] } c.shelf slot fun z => { z with bad := z.bad ++ [u] } }).tally 3
  else s
/-- An uncorrectable error in a sector of a stack's scratch (17 R344). -/
def State.scratchErrorAt (s : State) (k q : Nat) : State :=
  if k < 16 ∧ 64 * q < (s.stack k).ways * 2 ^ 27 then (s.setS k fun t => { t with scratchPoison := withSector t.scratchPoison q }).tally 5 else s
/-- An uncorrectable error in a word of a full dumbwaiter (14 R280; 17 R344). -/
def State.boxErrorAt (s : State) (cellar w : Nat) : State :=
  if cellar < 512 ∧ (s.cellar cellar).wake.getLsbD (w / 8) then (s.setCe cellar fun c => { c with boxPoison := c.boxPoison ++ [w] }).tally 3 else s
/-- An uncorrectable error that the host reports for a sector of its memory (19 R358). -/
def State.hostErrorAt (s : State) (q : Nat) : State := { s with hostPoison := withSector s.hostPoison q }
/-- A corrected error, a residue retry, a replay on a die link or on a fabric link: its counter alone (17 R343, R344, Table 17.9). -/
def State.counts (s : State) (k : Nat) : State := if k ∈ [0, 2, 4, 6, 8, 9] then s.tally k else s
/-- A residue retry that succeeded: after more than one attempt it is reported (17 R343, Table 17.6). -/
def State.retriedAt (s : State) (who attempts : Nat) : State :=
  let s := s.tally 6
  if 1 < attempts then s.postHw (who / 2 ^ 16 % 8) 8 (who % 2 ^ 21) 0 else s

/-- A host store to host memory (19 R358). -/
def State.hostStores (s : State) (pa : Nat) (bs : List Byte) : State := s.hostWrite pa bs (fullMask bs)

/-- The module steps down: the power of the last millisecond is over the cap, or a junction is at 95 degrees (19 R364). -/
def State.overLimit (s : State) : Bool := decide (s.pwrcap.toNat < s.power ∨ 95 ≤ s.temp)

/-- Since when both conditions of 19 R364 are clear. -/
def State.watchPower (s : State) : State :=
  { s with clearSince := if s.overLimit then none else (match s.clearSince with | some t => some t | none => some s.now) }

/-- New sensor values, the power averaged over the last millisecond (19 R364). -/
def State.sense (s : State) (power temp : Nat) : State := State.watchPower { s with power := power, temp := temp }

end Sys2Proof.Machine
end

