-- ==== Sys2Proof/Machine/Image.lean ====
section
/-! DEFINITION. A team's image in its context's swap area (17 R340 to R342, Table 17.7). -/
namespace Sys2Proof.Machine

/-- Offsets of an image's sections, and its bytes (17 Table 17.7). -/
structure Layout where
  fib : Nat
  ctl : Nat
  v : Nat
  pois : Nat
  s : Nat
  t : Nat
  lar : Nat
  acc : Nat
  bins : Nat
  q : Nat
  seq : Nat
  ww : Nat
  cp : Nat
  size : Nat
  deriving DecidableEq, Repr

/-- Where sections of given sizes start, each at a multiple of 256, and the end of the last. -/
def sectionsFrom : Nat → List Nat → List Nat
  | o, [] => [o]
  | o, n :: ns => o :: sectionsFrom (ceilTo 256 (o + n)) ns

/-- A sum over numbers. -/
def total (l : List Nat) : Nat := l.foldl (· + ·) 0

/-- VR: the registers of a group's V section. -/
def Group.imgV (g : Group) : Nat := ceilTo 8 g.vAlloc
/-- SR: the registers of a group's S section. -/
def Group.imgS (g : Group) : Nat := ceilTo 4 g.sAlloc

/-- The WAITWs of a group whose lanes still wait. -/
def Group.waitws (g : Group) : List Return := g.returns.filter fun r => r.kind == .waitw && !r.lanes.isEmpty

/-- The groups of a team in team order. -/
def State.teamGroups (s : State) (tid : Nat) : List Group := (s.team tid).groups.map s.grp

/-- The layout of a team's image. -/
def State.layout (s : State) (tid : Nat) : Layout :=
  let t := s.team tid
  let gs := s.teamGroups tid
  let sum (f : Group → Nat) := total (gs.map f)
  let o := sectionsFrom 0
    [ 256, sum fun g => 16 * g.width, sum fun _ => 256, sum fun g => g.imgV * 4 * g.width, sum fun g => g.imgV * g.width / 8, sum fun g => g.imgS * 4,
      sum fun g => g.tAlloc * 1024, ceilTo 4096 t.larderSize, t.zAlloc * 65536, t.binQuota * 32768, t.qregs * 256,
      if t.seqGid = 0 then 0 else 4096, sum fun g => g.waitws.length * (16 + 8 * g.width), t.savedCopies.length * 64 ]
  let at_ (k : Nat) := (o.drop k).headD 0
  { fib := at_ 1, ctl := at_ 2, v := at_ 3, pois := at_ 4, s := at_ 5, t := at_ 6, lar := at_ 7, acc := at_ 8, bins := at_ 9, q := at_ 10, seq := at_ 11,
    ww := at_ 12, cp := at_ 13, size := at_ 14 }

/-- Groups with where each one's part of a per-group section starts. -/
def partsFrom (f : Group → Nat) : Nat → List Group → List (Nat × Group)
  | _, [] => []
  | o, g :: gs => (o, g) :: partsFrom f (o + f g) gs

/-! ### Writing (17 Table 17.7) -/

/-- A bit per element of a list. -/
def bitsWord (l : List Bool) : Nat := maskOf ((List.range l.length).filter fun i => l.getD i false)

/-- The header. -/
def State.imgHeader (s : State) (tid size : Nat) : List Byte :=
  let t := s.team tid
  let claimed := maskOf ((List.range t.binQuota).filter fun i => t.claimed.contains (t.binBase + i))
  padTo 256
    (record [(8, 0x4D494154), (8, t.index), (8, size), (8, t.binBase)] ++ leBytes 16 claimed ++
      ((List.range 8).flatMap fun z => leBytes 4 (tget 0 t.zSteps z).toNat) ++ leBytes 4 (s.grid t.grid).bargPhase ++
      ((List.range 8).flatMap fun n => leBytes 4 (tget 0 t.barriers n)) ++
      record [(4, total ((s.teamGroups tid).map fun g => g.waitws.length)), (4, t.savedCopies.length)])

/-- One entry of the fibre table. -/
def imgFibre (t : Team) (g : Group) (l : Nat) : List Byte :=
  let f := g.fib l
  record
    [ (8, f.pc.toNat), (1, f.wb8.toNat), (1, b2n (f.life == .live) + 4 * b2n (bitOf g.handler l)), (2, f.preds.toNat), (1, g.ageAt f.pc.toNat),
      (1, bitsWord ((List.range 8).map fun n => tget 0 f.arrived n == tget 0 t.barriers n + 1)), (2, 0) ]

/-- The counters' word. -/
def Group.counterWord (g : Group) : Nat := g.ld + 2 ^ 8 * g.st + 2 ^ 16 * g.cp + 2 ^ 24 * g.tl

/-- A group's control block. -/
def Group.imgControl (g : Group) : List Byte :=
  let open_ := g.batches.filter fun b => !g.batchDone b.1
  let scopes := (open_.zipIdx).foldl (fun n b => n + scopeCode b.1.2 * 8 ^ b.2) 0
  padTo 256
    (record [(4, g.lx.toNat), (4, g.fpmode.toNat), (4, g.fpflags.toNat), (4, g.counterWord), (4, g.crateSeq), (4, g.sealNext),
      (4, (open_.head?.map (·.1)).getD 0)] ++ leBytes 24 scopes)

/-- A group's V registers, register by register. -/
def Group.imgVs (g : Group) : List Byte :=
  (List.range g.imgV).flatMap fun r => (List.range g.width).flatMap fun l => leBytes 4 (g.vval l r).toNat
/-- A group's poison words. -/
def Group.imgPois (g : Group) : List Byte :=
  (List.range g.imgV).flatMap fun r => leBytes (g.width / 8) (bitsWord ((List.range g.width).map fun l => (g.vlane l r).pois))
/-- A group's S registers. -/
def Group.imgSs (g : Group) : List Byte := (List.range g.imgS).flatMap fun i => leBytes 4 (g.sreg i).toNat
/-- A group's tiles. -/
def Group.imgTs (g : Group) : List Byte := (List.range g.tAlloc).flatMap g.tile

/-- A queue register's 256 bytes. -/
def imgQueue (l : List QEntry) : List Byte := padTo 128 (l.flatMap fun x => leBytes 4 x.val.toNat) ++ padTo 128 (leBytes 1 l.length)

/-- The operation that a saved context stands in: one stopped under 07 R150, or one that was running, between sum units (07 R150; 08 R161). -/
def State.imgOp (s : State) (tid : Nat) : Option MatOp :=
  match (s.grp (s.team tid).seqGid).seq.stopped with | some o => some o | none => (s.team tid).savedRun

/-- The sequencer section: with no operation stopped the MSAVE words are zero, and so is their count (08 R161). -/
def State.imgSeq (s : State) (tid : Nat) : List Byte :=
  let t := s.team tid
  let g := s.grp t.seqGid
  let f := g.fib 0
  let save := match s.imgOp tid with
    | some o => record [(4, 2 ^ 31 + 2 ^ 21 * o.tile?.getD 0 + 2 ^ 16 * o.dep + 256 * o.col + o.row), (8, o.pc.toNat),
        (4, min 255 t.savedOps.length)]
    | none => record [(4, 0), (8, 0), (4, 0)]
  let held := if (s.imgOp tid).isSome then t.savedOps.take 255 else []
  padTo 4096
    (padTo 0x40 (record [(8, f.pc.toNat), (2, f.preds.toNat), (4, g.counterWord), (8, g.seq.stvec.toNat)]) ++
      ((List.range 32).flatMap fun i => leBytes 4 (g.sreg i).toNat) ++ padTo 0x40 save ++ held.flatMap fun o => leBytes 8 o.pc.toNat)

/-- A WAITW's record. -/
def imgWaitw (g : Group) (r : Return) : List Byte :=
  record [(8, r.issue.pc.toNat), (8, maskOf (r.lanes.map (·.lane)))] ++
    (List.range g.width).flatMap fun l =>
      match r.lanes.find? fun x => x.lane == l with | some x => record [(4, x.slot), (4, x.lastSeq)] | none => leBytes 8 0

/-- The pieces of a team's image: offset and bytes. -/
def State.imagePieces (s : State) (tid : Nat) : List (Nat × List Byte) :=
  let t := s.team tid
  let gs := s.teamGroups tid
  let y := s.layout tid
  let c := s.cluster (clusterOfCore t.core)
  let per (o : Nat) (n : Group → Nat) (f : Group → List Byte) := (partsFrom n o gs).map fun p => (p.1, f p.2)
  [(0, s.imgHeader tid y.size)] ++ per y.fib (fun g => 16 * g.width) (fun g => (List.range g.width).flatMap (imgFibre t g)) ++
  per y.ctl (fun _ => 256) Group.imgControl ++ per y.v (fun g => g.imgV * 4 * g.width) Group.imgVs ++
  per y.pois (fun g => g.imgV * g.width / 8) Group.imgPois ++ per y.s (fun g => g.imgS * 4) Group.imgSs ++ per y.t (fun g => g.tAlloc * 1024) Group.imgTs ++
  [(y.lar, padTo (ceilTo 4096 t.larderSize) (t.lread 0 t.larderSize)),
   (y.acc, (List.range t.zAlloc).flatMap fun z => (List.range 128).flatMap fun i => (t.zrow z i).flatMap fun w => leBytes 4 w.toNat),
   (y.bins, (List.range t.binQuota).flatMap fun i =>
     if t.claimed.contains (t.binBase + i) then c.binRead (t.binBase + i) 0 32768 else List.replicate 32768 0),
   (y.q, (List.range t.qregs).flatMap fun q => imgQueue (t.queue q)), (y.seq, if t.seqGid = 0 then [] else s.imgSeq tid),
   (y.ww, gs.flatMap fun g => g.waitws.flatMap (imgWaitw g)), (y.cp, t.savedCopies.flatMap fun k => k.1)]

/-! ### Reading (17 R341, R342) -/

/-- A little-endian field of a team's image. -/
def State.imgField (s : State) (tid off n : Nat) : Nat := s.homeField ((s.team tid).image + off) n

/-- A group as its image gives it back: PC, window and P of each fibre, the control registers, V, S and tiles; what the image does not name stands
as it was. -/
def State.imgGroup (s : State) (tid : Nat) (y : Layout) (k : Nat) (g : Group) : Group :=
  let gs := s.teamGroups tid
  let part (n : Group → Nat) := total ((gs.take k).map n)
  let base := (s.team tid).image
  let fo := y.fib + part fun g => 16 * g.width
  let co := y.ctl + 256 * k
  let vo := y.v + part fun g => g.imgV * 4 * g.width
  let po := y.pois + part fun g => g.imgV * g.width / 8
  let so := y.s + part fun g => g.imgS * 4
  let tl := y.t + part fun g => g.tAlloc * 1024
  let fibres := g.fibres.map fun e =>
    (e.1, { e.2 with pc := BitVec.ofNat 64 (s.imgField tid (fo + 16 * e.1) 8), wb8 := BitVec.ofNat 8 (s.imgField tid (fo + 16 * e.1 + 8) 1),
                     preds := BitVec.ofNat 16 (s.imgField tid (fo + 16 * e.1 + 10) 2) })
  let g := { g with fibres := fibres, lx := w32 (s.imgField tid co 4 % 2 ^ 18), fpmode := w32 (s.imgField tid (co + 4) 4 % 2 ^ 8),
                    fpflags := w32 (s.imgField tid (co + 8) 4 % 2 ^ 6), crateSeq := s.imgField tid (co + 16) 4, sealNext := s.imgField tid (co + 20) 4 }
  let g := (List.range g.vAlloc).foldl (fun g r =>
    let ps := s.imgField tid (po + r * (g.width / 8)) (g.width / 8)
    (List.range g.width).foldl (fun g l =>
      let a := vo + r * 4 * g.width + 4 * l
      g.vput l r { val := w32 (s.imgField tid a 4), pois := bitOf ps l || s.homePoison (base + a) 4 }) g) g
  let g := (List.range g.sAlloc).foldl (fun g i => g.sset i (w32 (s.imgField tid (so + 4 * i) 4))) g
  (List.range g.tAlloc).foldl (fun g t => g.tset t (s.homeRead (base + tl + 1024 * t) 1024)) g

/-- A word of the image's larder section: 8 bytes, by larder offset. -/
def State.imgLarderBad (s : State) (tid : Nat) (y : Layout) : List Nat :=
  let t := s.team tid
  (List.range ((t.larderSize + 7) / 8)).filter fun w => s.homePoison (t.image + y.lar + 8 * w) 8

/-- An error in the image outside its V and larder sections (17 R342). -/
def State.imgSpoiled (s : State) (tid : Nat) (y : Layout) : Bool :=
  let b := (s.team tid).image
  s.poison.any fun q =>
    let a := 64 * q
    overlaps a 64 b y.size && !(decide (b + y.v ≤ a ∧ a < b + y.pois)) && !(decide (b + y.lar ≤ a ∧ a < b + y.acc))

/-- A team as its image gives it back: its larder, accumulators and the values in its queues. -/
def State.imgTeam (s : State) (tid : Nat) (y : Layout) : Team :=
  let t := s.team tid
  let b := t.image
  let t := { t with larder := mwrites [] 0 (s.homeRead (b + y.lar) t.larderSize), larderPoison := distinct (t.larderPoison ++ s.imgLarderBad tid y) }
  let t := (List.range t.zAlloc).foldl (fun t z =>
    t.zput z ((List.range 128).map fun i =>
      (i, (List.range 128).map fun j => w32 (s.homeField (b + y.acc + 65536 * z + 512 * i + 4 * j) 4)))) t
  { t with queues := t.queues.map fun e => (e.1, (e.2.zipIdx).map fun x => { x.1 with val := w32 (s.homeField (b + y.q + 256 * e.1 + 4 * x.2) 4) }) }

/-- An operation at the counters of the image's MSAVE words, its tile its own until it completes (07 R145; 08 R161). -/
def State.imgRun (s : State) (tid : Nat) (y : Layout) (o : MatOp) : MatOp :=
  let w := s.imgField tid (y.seq + 0xC0) 4
  if bitOf w 31 then { o with dep := bitsOf w 20 16, col := bitsOf w 14 8, row := bitsOf w 6 0, pinned := true } else { o with pinned := true }

/-- The sequencer context as the image gives it back. -/
def State.imgContext (s : State) (tid : Nat) (y : Layout) (g : Group) : Group :=
  let f (o n : Nat) := s.imgField tid (y.seq + o) n
  let g := { g with seq := { g.seq with stopped := g.seq.stopped.map (s.imgRun tid y) } }
  let g := g.setF 0 fun k => { k with pc := BitVec.ofNat 64 (f 0 8), preds := BitVec.ofNat 16 (f 8 2) }
  let g := { g with seq := { g.seq with stvec := BitVec.ofNat 64 (f 14 8) } }
  (List.range 32).foldl (fun g i => g.sset i (w32 (f (0x40 + 4 * i) 4))) g

/-! ### What stands free -/

/-- A cellar core runs no call and holds no guest (14 R278; 15 R302). -/
def Cellar.free (c : Cellar) : Bool := !c.out && c.gid == 0 && c.guests.isEmpty

/-! ### What reaches a team that is out (10 R191; 13 R267; 14 R278) -/

/-- Device address of a larder offset in a team's image. -/
def State.imgLarder (s : State) (tid off : Nat) : Nat := (s.team tid).image + (s.layout tid).lar + off

/-- A push applied to a slot's image by the rule for a slot (10 R191). -/
def State.pushImage (s : State) (tid slot q val : Nat) : State :=
  match (s.team tid).subs.find? fun u => u.slot == slot with
  | none => s
  | some u =>
    let a := s.imgLarder tid slot
    let seq := s.homeField (a + 8) 4
    let ovr := s.homeField (a + 12) 4
    let d := (q + 2 ^ 32 - seq) % 2 ^ 32
    if d = 0 ∨ 2 ^ 31 ≤ d then s
    else
      (s.homeStore a (leBytes 8 val ++ leBytes 4 q ++ leBytes 4 (ovr + d + 2 ^ 32 - b2n u.seen))).setT tid fun t =>
        { t with subs := t.subs.map fun w => if w.slot = slot then { w with seen := false, lastQ := q } else w }

/-- A push that reaches a slot of this module: applied to the slot, or to its image (10 R191). -/
def State.pushSlot (s : State) (tid slot q val : Nat) : State :=
  if !thas s.teams tid then s
  else if (s.team tid).phase = .swapped then s.pushImage tid slot q val
  else s.setT tid fun t => t.applyPush slot q val

/-- Bytes written to a team's larder or, while it is out, to its image; those of a team that is gone go nowhere. -/
def State.larderPut (s : State) (tid off : Nat) (bs : List Byte) : State :=
  if !thas s.teams tid then s
  else if (s.team tid).phase = .swapped then s.homeStore (s.imgLarder tid off) bs
  else s.ownWrite tid off bs

/-- Flags ORed into a group's FPFLAGS, in its image while its team is out (18 R353). -/
def State.flagsPut (s : State) (gid fl : Nat) : State :=
  let g := s.grp gid
  if !thas s.groups gid then s
  else if (s.team g.tid).phase = .swapped then
    let a := (s.team g.tid).image + (s.layout g.tid).ctl + 256 * g.number + 8
    s.homeStore a (leBytes 4 (s.homeField a 4 ||| fl % 64))
  else s.setG gid fun g => { g with fpflags := g.fpflags ||| w32 (fl % 64) }

end Sys2Proof.Machine
end

