-- ==== Sys2Proof/Machine/Arrive.lean ====
section
/-! DEFINITION. Crates at their destination: acceptance, refusal, return (02 R35; 12 R254; 15 R301 to R304, R306; 22 R375). -/
namespace Sys2Proof.Machine

/-! ### Acceptance (15 R301, R302) -/

/-- A crate on its way out, at its destination's die or stack. -/
def Crate.outbound (c : Crate) : Bool := !c.ret && !c.endNotice && !c.sent

/-- A guest slot of a core that is free. -/
def State.guestSlot (s : State) (core : Nat) : Option Nat := (List.range 8).find? fun k => tget 0 (s.core core).guests k == 0

/-- A place takes a crate (15 R302): a core of its die with a free guest slot, or a cellar core of its stack with no call and no guests. -/
def State.placeTakes (s : State) (c : Crate) (place : Nat) : Bool :=
  if c.toCellar then decide (place < 512) && stackOfCellar place == c.stack && (s.cellar place).free
  else decide (place < 1024) && dieOfCore place == c.die && !(s.core place).out && (s.core place).retiring.isNone && (s.guestSlot place).isSome

/-- The home group of a crate's fibres, where it stands on this module. -/
def State.homeOf (s : State) (h : CrateHead) : Option Nat := if h.homeNode = s.nodeid.toNat then s.crateHome h else none

/-- The kernel's image as a cellar core loads it (15 R302). -/
def State.kernImage (s : State) (c : Crate) (h : CrateHead) : Option (List Byte) :=
  match s.kernEntry c.ctx h.khandle with
  | some e => if kernCellSize e = 0 then none else s.readImage (c.stack / 2) c.ctx (kernCellImg e) (kernCellSize e)
  | none => none

/-- The V mask by which a crate is read: its own grid's, where the launch is this module's (04 R78); otherwise, since the header carries none, VMASK of
the destination's own KERNTAB entry under KHANDLE (DEDUCED, log 108). -/
def State.crateVmask (s : State) (c : Crate) (h : CrateHead) : Nat :=
  match s.homeOf h with
  | some gid => s.vmaskOf gid
  | none => (match s.kernEntry c.ctx h.khandle with | some e => kernVmask e | none => 0)

/-- What a guest group keeps of its home (15 R300, R301). Of a launch on another module the crate says only whether its kernel is cellar-eligible;
its class and its other flags are free values (log 2). -/
def State.guestInfo (s : State) (c : Crate) (h : CrateHead) (vmask : Nat) (homeLane : Tab Nat) : GuestInfo × State :=
  let b : GuestInfo := { homeNode := h.homeNode, homeGid := 0, homeCore := h.homeCore, homeSlot := h.homeSlot, hops := h.hops, khandle := h.khandle,
                         seq := h.seq, w64 := bitOf h.flags 2, homeLane := homeLane, smask := h.smask, vmask := vmask,
                         flags := c.flags }
  match s.homeOf h with
  | some gid => ({ b with homeGid := gid, lflags := s.launchFlags gid, cls := (s.team (s.grp gid).tid).cls, cellarOk := s.cellarEligible gid }, s)
  | none =>
    let (f, s) := s.pick 4
    let (k, s) := s.pick 4
    ({ b with lflags := f, cls := k, cellarOk := c.toCellar }, s)

/-- The guest group of an accepted crate (15 R301): its fibres at their home lanes, or from lane 0 on a cellar core. -/
def State.guestGroup (s : State) (c : Crate) (place slot : Nat) : Group × State :=
  let h := crateHead c.bytes
  let vmask := s.crateVmask c h
  let (ss, fs) := crateBody vmask c.bytes
  let lanes := (fs.zipIdx).map fun f => (if c.toCellar then f.2 else f.1.lane, f.1)
  let (info, s) := s.guestInfo c h vmask (if c.toCellar then lanes.map fun x => (x.1, x.2.lane) else [])
  let home := s.grp info.homeGid
  let cap (n m : Nat) := if info.homeGid = 0 then n else min n m
  let g : Group :=
    { kind := if c.toCellar then .cellar else .core, width := if c.toCellar then 16 else if info.w64 then 64 else 32, ctx := c.ctx, place := place,
      slot := slot, vAlloc := cap (if c.toCellar then 64 else 256) home.vAlloc, sAlloc := cap (if c.toCellar then 8 else 32) home.sAlloc, tAlloc := 0,
      lx := w32 (h.lx % 2 ^ 18), fpmode := w32 h.fpmode, guest := some info, readySince := s.now }
  let g := ss.foldl (fun g x => g.sset x.1 x.2) g
  let g := lanes.foldl (fun g x =>
    let g := g.setF x.1 fun _ => { life := .live, pc := BitVec.ofNat 64 h.pc, wb8 := BitVec.ofNat 8 x.2.wb8, preds := BitVec.ofNat 16 x.2.preds }
    x.2.vs.foldl (fun g v => g.vput x.1 v.1 v.2) g) g
  (g, s)

/-- The fibres stand at their destination: those that left a guest group leave it for good (22 R375). The flags that they raised go with them on this
module, and home to it where they leave it (log 116). -/
def State.crateLeft (s : State) (c : Crate) : State :=
  if (s.grp c.fromGid).isGuest then
    let s := match (s.grp c.fromGid).guest with
      | some i => if c.sent && i.homeGid != 0 then s.flagsPut i.homeGid c.flags.toNat else s
      | none => s
    (s.setG c.fromGid fun g => (g.lanes c.lanes).foldl Group.freeLane g).dropGuest c.fromGid
  else s

/-- A crate accepted at a place: arrival is an acquire (10 R194). -/
def State.acceptCrate (s : State) (c : Crate) (place : Nat) : State :=
  let h := crateHead c.bytes
  let img := s.kernImage c h
  let slot := (s.guestSlot place).getD 0
  let (g, s) := s.guestGroup c place (if c.toCellar then 0 else slot)
  let (gid, s) := s.newId
  let s := { s with groups := tput s.groups gid g }
  let s :=
    if c.toCellar then
      s.setCe place fun e =>
        let held := e.image = some (c.ctx, h.khandle)
        { e with guests := [gid], store := if held then e.store else img.getD [], storePoison := if held then e.storePoison else [],
                 image := some (c.ctx, h.khandle),
                 imageBase := if held then e.imageBase else ((s.kernEntry c.ctx h.khandle).map kernCellImg).getD 0 }
    else (s.setC place fun k => { k with guests := tput k.guests slot gid }).l1Acquire place
  ((s.raceTick gid (fieldAt c.bytes 4 1)).crateLeft c).crateDone c

/-- Causes 2 to 5 that stand against a crate at its destination (15 Table 15.4). -/
def State.arrivalCause (s : State) (c : Crate) : Option Nat :=
  let h := crateHead c.bytes
  let e := s.kernEntry c.ctx h.khandle
  let vmask := s.crateVmask c h
  let fs := (crateBody vmask c.bytes).2
  if e.isNone || (c.toCellar && (s.kernImage c h).isNone) then some 2
  else if c.req.isSome && c.toCellar && (decide (2 ^ 8 ≤ h.smask) || decide (2 ^ 64 ≤ vmask) ||
      (fs.any fun f => decide (4 ≤ f.wb8)) || !s.cellarWouldRun (c.stack / 2) c.ctx h.pc) then some 3
  else if 8 < h.hops then some 4
  else if (s.ctx c.ctx).phase != .active then some 5
  else none

/-- CRATE_ARRIVAL (15 R302): a crate within the module, or one offered by the gateway, takes a place. -/
def execCrateArrival (crate place : Nat) (s : State) : Out :=
  match s.crates.find? fun c => c.id == crate with
  | none => .next s
  | some c => .next (if c.outbound && !s.crateCut c && (s.arrivalCause c).isNone && s.placeTakes c place then s.acceptCrate c place else s)

/-! ### Refusal (15 R303, R304; 22 R375) -/

/-- A refused crate's fibres are back at the instruction that sent them, marked with the cause, by which the launch's policy is followed. -/
def State.refuseCrate (s : State) (c : Crate) (cause : Nat) : State :=
  let s := { s with crates := s.crates.filter fun d => d.id != c.id }
  match c.req with
  | some p => s.answer p 11 cause 0 []
  | none =>
    s.setG c.fromGid fun g => g.forLanes (g.lanes c.lanes) fun g l =>
      g.setF l fun f => { f with life := .live, wait := .none, refused := some (cause, (crateHead c.bytes).addr), fellBack := false }

/-- Some place would take a crate now. -/
def State.placeFree (s : State) (c : Crate) : Bool := (List.range 1024).any (s.placeTakes c)

/-- The cause for which a crate is refused now (15 Table 15.4, in its order): no place free within 2 µs, or, once a place is free, another. -/
def State.refusesFor (s : State) (c : Crate) (cause : Nat) : Bool :=
  let known := s.arrivalCause c
  if s.placeFree c then known == some cause || (known.isNone && cause == 1 && decide (c.sentAt + 2 * usTicks ≤ s.now))
  else cause == 1 && decide (c.sentAt + 2 * usTicks ≤ s.now)

/-- MIGRATION_REFUSAL (15 R303). -/
def execMigrationRefusal (crate cause : Nat) (s : State) : Out :=
  match s.crates.find? fun c => c.id == crate with
  | none => .next s
  | some c => .next (if c.outbound && !s.crateCut c && s.refusesFor c cause then s.refuseCrate c cause else s)

/-! ### Return (02 R35; 15 R301, R306) -/

/-- A returned fibre's masked registers, P word, window and PC replace its home values. -/
def Group.comeHome (g : Group) (pc : Nat) (f : CrateFibre) : Group :=
  if (g.fib f.lane).life ≠ .away then g else
  let g := f.vs.foldl (fun g v => g.vput f.lane v.1 v.2) g
  g.setF f.lane fun k => { k with life := .live, pc := BitVec.ofNat 64 pc, wb8 := BitVec.ofNat 8 f.wb8, preds := BitVec.ofNat 16 f.preds, wait := .none }

/-- RETURN_CRATE_ARRIVAL (15 R301, R306): an arrival is an acquire (10 R194). -/
def execReturnCrateArrival (crate : Nat) (s : State) : Out :=
  match s.crates.find? fun c => c.id == crate with
  | none => .next s
  | some c =>
    if !c.ret || c.endNotice || c.sent || s.crateCut c then .next s
    else
      let h := crateHead c.bytes
      let s := s.crateDone c
      match s.crateTo c with
      | none => .next s
      | some gid =>
        let fs := (crateBody (s.vmaskOf gid) c.bytes).2
        let s := s.setG gid fun g => { (fs.foldl (fun g f => g.comeHome h.pc f) g) with fpflags := g.fpflags ||| w32 (h.fpfl % 64) }
        .next ((s.l1Acquire (s.grp gid).place).raceTick gid fs.length)

end Sys2Proof.Machine
end

