-- ==== Sys2Proof/Machine/Async.lean ====
section
/-! DEFINITION. What completes on its own: returns, stores, evictions, held traps, deferred records, pushes (02 R42, R43; 09 R172; 10 R180, R190 to
R193, R196; 17 R334, R337). -/
namespace Sys2Proof.Machine

/-! ### Returns (02 R42, R43) -/

/-- A WAITW lane returns once its slot's sequence differs, or at once where the slot has no subscription (11 R226). -/
def State.waitwOver (s : State) (gid : Nat) (x : LaneRet) : Bool :=
  match (s.team (s.grp gid).tid).sub? x.slot with
  | none => true
  | some _ => s.larderWord gid (x.slot + 8) != x.lastSeq

/-- A WAITW lane's return: the slot's 16 bytes, SEEN set, an acquire (10 R192; 11 R226). -/
def State.waitwLand (s : State) (gid ret : Nat) (x : LaneRet) : State :=
  let (bs, pois, s) := s.readAt gid (.larder x.slot) 16
  let ws := vWrites x.lane x.dst pois ((List.range 4).map fun k => w32 (fieldAt bs (4 * k) 4))
  ((s.l1Acquire (s.grp gid).place).raceTick gid 1).setG gid fun g => g.landLane ret x.lane ws

/-- ASYNCHRONOUS_RETURN (02 R42): a lane's value is written, and the last one clears the scoreboard. -/
def execAsynchronousReturn (gid ret lane : Nat) (s : State) : Out :=
  unitStep s (thas s.groups gid)
    (match (s.grp gid).ret? ret with
     | none => s
     | some r =>
       match r.lanes.find? fun x => x.lane == lane with
       | none => s
       | some x =>
         if r.kind = .waitw then
           (if (s.team (s.grp gid).tid).phase = .resident && s.waitwOver gid x then s.waitwLand gid ret x else s)
         else if x.ready && !r.stall then s.setG gid fun g => g.landLane ret lane x.ws
         else s)

/-! ### Stores (10 R180, R196; 09 R172) -/

/-- STORE_PERFORMED (10 R180): the head of a group's queue is performed where it may be, and a stall that awaited it is over (11 R206). -/
def execStorePerformed (gid : Nat) (s : State) : Out :=
  unitStep s (thas s.groups gid)
    (match (s.grp gid).stores with
     | [] => s
     | o :: _ => (s.headStep gid o).2.stallOver gid o.ret)

/-- L1_EVICTION (09 R172): a line leaves a core's L1, its masked bytes written back. -/
def execL1Eviction (core line : Nat) (s : State) : Out := unitStep s (decide (core < 1024)) (s.l1Flush core line)

/-- WC_AGE_DRAIN (10 R196, R197): an entry that has aged past the interval it was opened with drains. -/
def execWcAgeDrain (core line : Nat) (s : State) : Out :=
  unitStep s (decide (core < 1024)) (s.wcDrain core fun w => w.line == line && decide (w.opened + 4 * w.age < s.now))

/-! ### Traps and records that waited (17 R334, R337) -/

/-- HELD_TRAP_TAKEN (17 R334): once the handler has ended, the trap of another batch is taken. -/
def execHeldTrapTaken (gid : Nat) (s : State) : Out :=
  unitStep s (thas s.groups gid)
    (match (s.grp gid).heldTraps with
     | [] => s
     | (t, i) :: ts =>
       if (s.grp gid).handler ≠ 0 || s.stopped gid || s.cur.gid = gid then s
       else (s.setG gid fun g => { g with heldTraps := ts }).trapAt gid i t)

/-- FAULT_RECORD_DEFERRED (17 R337; 01 R11): the first record that waits is written once there is room and the path to the buffer is up. -/
def execFaultRecordDeferred (die : Nat) (s : State) : Out :=
  unitStep s (decide (die < 8))
    (match (s.die die).waiting with
     | [] => s
     | r :: rs => if (s.die die).fbFull || s.fbCut die then s else (s.setD die fun d => { d with waiting := rs }).fbWrite r)

/-! ### Pushes (10 R190 to R193) -/

/-- The link between a word's home die and the die of its watcher's core is down; of a team that is out, the die of its image (01 R11; 17 R344). -/
def State.pushCut (s : State) (p : Push) : Bool :=
  let t := s.team p.tid
  thas s.teams p.tid && s.cut p.die (if t.phase = .swapped then dieOfPa t.image else dieOfCore t.core)

/-- PUSH_APPLY (10 R191): a push of this module reaches its slot, over the link from the word's home die to its team's (01 R11). -/
def execPushApply (i : Nat) (s : State) : Out :=
  match s.pushes[i]? with
  | none => .next s
  | some p => .next (if p.remote || s.pushCut p then s else State.pushSlot { s with pushes := s.pushes.eraseIdx i } p.tid p.slot p.q p.val)

/-- A removal's last push has been applied or discarded (10 R193; 12 R253). -/
def State.subOver (s : State) (tid : Nat) (u : Sub) : Bool :=
  match u.last with
  | none => false
  | some q =>
    if u.remote then leNat ((s.team tid).lread (u.slot + 8) 4) == q % 2 ^ 32
    else !(s.pushes.any fun p => !p.remote && p.tid == tid && p.slot == u.slot)

/-- A subscription has ended: those who await it go on. -/
def State.subEnd (s : State) (tid : Nat) (u : Sub) : State :=
  let s := s.setT tid fun t => { t with subs := t.subs.filter fun w => w.slot != u.slot }
  u.ending.foldl (fun s e => if e.1 = 0 then s else s.setG e.1 fun g => g.oneDone e.2) s

/-- UNWATCH_COMPLETE (10 R193; 11 R225): subscriptions whose removal a Return awaits, or their team's retirement (0, 0). -/
def execUnwatchComplete (gid ret : Nat) (s : State) : Out :=
  .next (s.teams.foldl (fun s e =>
    (e.2.subs.filter fun u => u.ending.contains (gid, ret) && s.subOver e.1 u).foldl (fun s u => s.subEnd e.1 u) s) s)

end Sys2Proof.Machine
end

