-- ==== Sys2Proof/Machine/Atomic.lean ====
section
/-! DEFINITION. Atomics at the home slices and bank operations of the loft (11 R213 to R220). -/
namespace Sys2Proof.Machine

/-- An atomic of another module's line that an instruction queued. -/
def StoreOp.onLine (o : StoreOp) (line : Nat) : Bool :=
  match o.tgt, o.act with
  | .remote va, .atom _ _ _ _ => va / 256 == line
  | _, _ => false

/-- A queued atomic as one element of a REDUCE packet: lane, destination, offset in its line, operands. -/
def StoreOp.element (o : StoreOp) : Nat × Nat × Nat × Nat × Nat :=
  match o.tgt, o.act with
  | .remote va, .atom _ _ v v2 => (o.lane, o.dst, va % 256, v, v2)
  | _, _ => (o.lane, o.dst, 0, 0, 0)

/-- An instruction's atomics on one line become one operation at the place of the first (12 R255). -/
def mergeLine (line : Nat) (os : List StoreOp) : List StoreOp :=
  match os.find? fun o => o.onLine line with
  | none => os
  | some o =>
    let es := (os.filter fun p => p.onLine line).map StoreOp.element
    os.filterMap fun p =>
      if p.onLine line then
        (if p.lane = o.lane then some { o with act := match o.act with | .atom op w _ _ => .reduce op w es | a => a } else none)
      else some p

/-- The lines of other modules that queued atomics name. -/
def farLines (os : List StoreOp) : List Nat := distinct (os.filterMap fun o => match o.tgt with | .remote va => some (va / 256) | _ => none)

/-- An instruction's atomics on another module's line travel in one REDUCE packet where the page has the CR attribute (12 R255). The attribute stands
in the owner's page tables alone, so which lines have it is a free value at the sender (DESIGN CHOICE, log 110); the owner performs both kinds. -/
def State.reduceOps (s : State) (os : List StoreOp) : List StoreOp × State :=
  (farLines os).foldl (fun x line => let (k, s) := x.2.pick 2; (if k = 0 then x.1 else mergeLine line x.1, s)) (os, s)

/-- An atomic or bank operation begins: one queued operation a lane, and the return that holds its registers or counts it in ST (10 R180; 11
R219). Nothing later that loads passes it, so an acquire holds back what follows it (10 R184); a group with a lane on another module stalls (11 R206). -/
def State.beginOps (s : State) (d : Reg) (regs : Nat) (nr : Bool) (xs : List (LaneAcc × Action)) (e : Bool) : State :=
  let gid := s.cur.gid
  let c := s.cur
  let (rid, s) := s.newId
  let g := s.g
  let acq := (preOrder c.pre).acq
  let far := xs.any fun x => x.1.tgt.isRemote
  let ret : Return :=
    if nr then { id := rid, kind := .atomic, ctr := some .st, left := xs.length, issue := c }
    else
      { id := rid, kind := .atomic, ctr := some .ld, regs := s.destRegs d regs, issue := c, stall := far,
        lanes := xs.map fun x => { lane := x.1.lane, dst := g.phys x.1.lane d, addr := x.1.va } }
  let (os, s) := s.reduceOps (xs.map fun x =>
    { ret := rid, lane := x.1.lane, dst := if nr then 999 else g.phys x.1.lane d, tgt := x.1.tgt, act := x.2, order := preOrder c.pre,
      scope := preScope c.pre, va := x.1.va, since := s.now, pc := c.pc })
  let s := s.modG fun g => { g.begin ret with stores := g.stores ++ os }
  let s := if acq || (far && !nr) then (s.drainQueue gid).2 else s
  if far && !nr then s.retireAt fun _ => c.npc else s.retire e

/-- An operand of an atomic: n bytes of registers from a V field (11 R218). -/
def Group.atomArg (g : Group) (l : Nat) (v : Reg) (k : Nat) (wide : Bool) : Nat :=
  (g.vval l (g.phys l v + k)).toNat + (if wide then 2 ^ 32 * (g.vval l (g.phys l v + k + 1)).toNat else 0)

/-- ATOM and ATOMX (11 R217 to R219): the address has no immediate; a wide form names pairs, CAS twice as many source registers. -/
def State.opAtom (s : State) (av : Avail) (op : AtomOp) (v : Reg) (p : BitVec 6) (r d : Reg) (e : Bool) : Out :=
  let idx := s.poolIdx p
  let wide := preWide s.cur.pre
  let nr := preNoReturn s.cur.pre
  let k := if wide then 2 else 1
  let n := 4 * k
  s.runEnd av ([vsrc r (addrRegs idx), vsrc v (if op = .cas then 2 * k else k)] ++ (if nr then [] else [vdst d k]))
    (match firstErr [s.checkCtr (if nr then .st else .ld)], s.formAddrs r idx 0 n true with
     | .error st, _ => .error st
     | _, .error st => .error st
     | .ok _, .ok as =>
       match s.locateAll as n .write with
       | .error st => .error st
       | .ok xs =>
         s.afterTouch xs fun s xs =>
           .ok ((s.orderTick.tlbNote xs).beginOps d k nr
             (xs.map fun x => (x, .atom op wide (s.g.atomArg x.lane v 0 wide) (if op = .cas then s.g.atomArg x.lane v k wide else 0))) e))

/-- ATOM.ADD (11 R218). -/
def execAtomAdd (v : Reg) (p : BitVec 6) (r d : Reg) (e : Bool) (s : State) : Out := s.opAtom avVec .add v p r d e
/-- ATOM.MIN.I (11 R218). -/
def execAtomMinI (v : Reg) (p : BitVec 6) (r d : Reg) (e : Bool) (s : State) : Out := s.opAtom avVec .minI v p r d e
/-- ATOM.MAX.I (11 R218). -/
def execAtomMaxI (v : Reg) (p : BitVec 6) (r d : Reg) (e : Bool) (s : State) : Out := s.opAtom avVec .maxI v p r d e
/-- ATOM.MIN.N (11 R218). -/
def execAtomMinN (v : Reg) (p : BitVec 6) (r d : Reg) (e : Bool) (s : State) : Out := s.opAtom avVec .minN v p r d e
/-- ATOM.MAX.N (11 R218). -/
def execAtomMaxN (v : Reg) (p : BitVec 6) (r d : Reg) (e : Bool) (s : State) : Out := s.opAtom avVec .maxN v p r d e
/-- ATOM.AND (11 R218). -/
def execAtomAnd (v : Reg) (p : BitVec 6) (r d : Reg) (e : Bool) (s : State) : Out := s.opAtom avVec .and v p r d e
/-- ATOM.OR (11 R218). -/
def execAtomOr (v : Reg) (p : BitVec 6) (r d : Reg) (e : Bool) (s : State) : Out := s.opAtom avVec .or v p r d e
/-- ATOM.XOR (11 R218). -/
def execAtomXor (v : Reg) (p : BitVec 6) (r d : Reg) (e : Bool) (s : State) : Out := s.opAtom avVec .xor v p r d e
/-- ATOMX.XCHG (11 R218). -/
def execAtomxXchg (v : Reg) (p : BitVec 6) (r d : Reg) (e : Bool) (s : State) : Out := s.opAtom avCore .xchg v p r d e
/-- ATOMX.CAS (11 R218). -/
def execAtomxCas (v : Reg) (p : BitVec 6) (r d : Reg) (e : Bool) (s : State) : Out := s.opAtom avCore .cas v p r d e
/-- ATOMX.FADD.F32 (11 R218). -/
def execAtomxFaddF32 (v : Reg) (p : BitVec 6) (r d : Reg) (e : Bool) (s : State) : Out := s.opAtom avCore .faddF32 v p r d e
/-- ATOMX.FMAX.F32 (11 R218). -/
def execAtomxFmaxF32 (v : Reg) (p : BitVec 6) (r d : Reg) (e : Bool) (s : State) : Out := s.opAtom avCore .fmaxF32 v p r d e
/-- ATOMX.FADD.BF16x2 (11 R218). -/
def execAtomxFaddBf16x2 (v : Reg) (p : BitVec 6) (r d : Reg) (e : Bool) (s : State) : Out := s.opAtom avCore .faddBf16x2 v p r d e
/-- ATOMX.INCW (11 R218). -/
def execAtomxIncw (v : Reg) (p : BitVec 6) (r d : Reg) (e : Bool) (s : State) : Out := s.opAtom avCore .incw v p r d e
/-- ATOMX.DECW (11 R218). -/
def execAtomxDecw (v : Reg) (p : BitVec 6) (r d : Reg) (e : Bool) (s : State) : Out := s.opAtom avCore .decw v p r d e
/-- ATOMX.FMAXABS.F32 (11 R218). -/
def execAtomxFmaxabsF32 (v : Reg) (p : BitVec 6) (r d : Reg) (e : Bool) (s : State) : Out := s.opAtom avCore .fmaxabsF32 v p r d e

/-! ### Loft bank operations (11 R213 to R216) -/

/-- LOP (11 R213): the offset in V[b], the operand in V[c] where the sub-op has one, the return in V[a] unless no-return. -/
def State.opLop (s : State) (op : LopOp) (c : Option Reg) (b : Reg) (a : Option Reg) (e : Bool) : Out :=
  let nr := preNoReturn s.cur.pre || a.isNone
  let d := a.getD 0
  s.runEnd avHome ([vsrc b] ++ (match c with | some c => [vsrc c] | none => []) ++ (if nr then [] else [vdst d]))
    (match firstErr [s.checkCtr (if nr then .st else .ld)], s.loftLanes b 0 (lopBytes op) with
     | .error st, _ => .error st
     | _, .error st => .error st
     | .ok _, .ok xs =>
       let g := s.g
       .ok (s.orderTick.beginOps d 1 nr (xs.map fun x => (x, .lop op (match c with | some c => g.old x.lane c | none => 0))) e))

/-- LOP.ADD.F32 (11 R214). -/
def execLopAddF32 (c b a : Reg) (e : Bool) (s : State) : Out := s.opLop .addF32 (some c) b (some a) e
/-- LOP.ADD.I32 (11 R214). -/
def execLopAddI32 (c b a : Reg) (e : Bool) (s : State) : Out := s.opLop .addI32 (some c) b (some a) e
/-- LOP.MAXABS.F32 (11 R214). -/
def execLopMaxabsF32 (c b a : Reg) (e : Bool) (s : State) : Out := s.opLop .maxabsF32 (some c) b (some a) e
/-- LOP.MIN.F32 (11 R214). -/
def execLopMinF32 (c b a : Reg) (e : Bool) (s : State) : Out := s.opLop .minF32 (some c) b (some a) e
/-- LOP.XCHR (11 R214). -/
def execLopXchr (c b a : Reg) (e : Bool) (s : State) : Out := s.opLop .xchr (some c) b (some a) e
/-- LOP.XADD (11 R216). -/
def execLopXadd (k : XaddType) (c b : Reg) (e : Bool) (s : State) : Out := s.opLop (.xadd k) (some c) b none e
/-- LOP.XRD (11 R216). -/
def execLopXrd (b a : Reg) (e : Bool) (s : State) : Out := s.opLop .xrd none b (some a) e
/-- LOP.FILL (11 R216). -/
def execLopFill (c b : Reg) (e : Bool) (s : State) : Out := s.opLop .fill (some c) b none e

end Sys2Proof.Machine
end

