-- ==== Sys2Proof/Machine/CellarRun.lean ====
section
/-! DEFINITION. The start and the completion of cellar calls (10 R198, R200; 14 R272, R273, R275, R278, R279). -/
namespace Sys2Proof.Machine

/-! ### Start (14 R272, R273, R278) -/

/-- The free cellar cores of a stack, ascending. -/
def State.freeCellars (s : State) (stack : Nat) : List Nat := ((List.range 32).map (· + 32 * stack)).filter fun c => (s.cellar c).free

/-- A byte of a call's program image, through the pages it holds (14 R278). -/
def State.imageByte (s : State) (c : Call) (va : Nat) : Byte :=
  match c.imagePages.find? fun p => decide (p.1 ≤ va ∧ va < p.1 + p.2.1) with
  | some p => if pteBit p.2.2 9 then mread s.hostMem (pteAddr p.2.2 + (va - p.1)) else s.homeByte (pteAddr p.2.2 + (va - p.1))
  | none => 0

/-- The program store of a call's cores: the image as it stands now. -/
def State.loadStore (s : State) (c : Call) : List Byte := (List.range c.imageSize).map fun i => s.imageByte c (c.image + i)

/-- A byte of a call's program image lies in a sector in error (17 R344; 19 R358). -/
def State.imageBad (s : State) (c : Call) (va : Nat) : Bool :=
  match c.imagePages.find? fun p => decide (p.1 ≤ va ∧ va < p.1 + p.2.1) with
  | some p =>
    let pa := pteAddr p.2.2 + (va - p.1)
    if pteBit p.2.2 9 then s.hostBad pa 1 else s.homePoison pa 1
  | none => false

/-- The words of a program store that the image's errors reach (17 R344). -/
def State.loadBad (s : State) (c : Call) : List Nat :=
  (List.range ((c.imageSize + 7) / 8)).filter fun w => (List.range 8).any fun i => decide (8 * w + i < c.imageSize) && s.imageBad c (c.image + 8 * w + i)

/-- The group of a call's core k at its entry (14 R272, R273). -/
def callGroup (c : Call) (n k core now : Nat) : Group :=
  let g : Group := { kind := .cellar, width := 16, ctx := c.ctx, place := core, vAlloc := 64, sAlloc := 8, tAlloc := 0, call := some (n, k),
                     fibres := (List.range 16).map fun l => (l, { life := .live }), fpmode := w32 (fieldAt c.msg 8 4), readySince := now }
  let g := g.ssets 0 ((List.range 8).map fun i => w32 (fieldAt c.msg (0x20 + 4 * i) 4))
  (List.range 16).foldl (fun g l => g.vsets l 0 [w32 k, w32 l, w32 c.cores, w32 core]) g

/-- A call's core starts: its store is loaded, with the errors that the image brought, and its dumbwaiters are emptied (14 R278; 17 R344). -/
def State.startCore (s : State) (c : Call) (n : Nat) (store : List Byte) (bad : List Nat) (k core : Nat) : State :=
  let (gid, s) := s.newId
  let s := { s with groups := tput s.groups gid (callGroup c n k core s.now) }
  s.setCe core fun e => { e with gid := gid, store := store, storePoison := bad, image := none, boxes := [], boxPoison := [], wake := 0 }

/-- CELLAR_CALL_START (14 R278): the call at the head of a stack's queue takes the lowest free cores once there are enough. -/
def execCellarCallStart (stack : Nat) (s : State) : Out :=
  unitStep s (decide (stack < 16))
    (match (s.stack stack).callQueue with
     | [] => s
     | n :: ns =>
       let c := s.call n
       let cores := (s.freeCellars stack).take c.cores
       if cores.length < c.cores then s
       else
         let store := s.loadStore c
         let bad := s.loadBad c
         let s := s.setS stack fun k => { k with callQueue := ns }
         let s := (cores.zipIdx).foldl (fun s p => s.startCore c n store bad p.2 p.1) s
         s.setCall n fun c => { c with started := true, members := cores, imagePages := [] })

/-! ### Completion (10 R200; 14 R275, R279) -/

/-- The groups of a call's cores. -/
def State.callGroups (s : State) (c : Call) : List Nat := c.members.map fun m => (s.cellar m).gid

/-- A call's cores have all ended and nothing of them is under way; an aborted call's have stopped. -/
def State.callOver (s : State) (c : Call) : Bool :=
  c.aborted || (c.started && (s.callGroups c).all fun gid => (s.grp gid).ended && (s.grp gid).stores.isEmpty && (s.grp gid).returns.isEmpty)

/-- STATE of a completion record (14 R279). -/
def Call.state (c : Call) : Nat := if c.aborted then 3 else if c.first.isSome then 2 else 1

/-- What completion writes to the status area (14 R279): the 16-byte record, and the trap record where a core has trapped. -/
def Call.statusBytes (c : Call) : List Byte :=
  match c.first with
  | some (code, k, rcd) => padTo 16 (record [(4, c.state), (1, code), (1, k)]) ++ padTo 128 rcd
  | none => padTo 16 (record [(4, c.state)])

/-- Device ranges are invalidated in every L2 (10 R200). -/
def State.l2Drop (s : State) (ps : List (Nat × Nat)) : State :=
  State.linesOut { s with l2 := s.l2.filter fun c => !(ps.any fun p => decide (p.1 ≤ c.1 ∧ c.1 < p.1 + p.2)) } (rangeLines ps)

/-- A call completes: what its cores issued is performed, the output ranges leave the L2s, the flags are collected, the record is written as one
larder step, and its cores are free. -/
def State.completeCall (s : State) (n : Nat) : State :=
  let gids := s.callGroups (s.call n)
  let s := gids.foldl (fun s g => (s.drainQueue g).2) s
  let c := s.call n
  let s := s.l2Drop (c.devRanges fun k => decide (4 ≤ k))
  let fl := gids.foldl (fun w g => w ||| (s.grp g).fpflags.toNat) 0
  let s := (s.flagsPut c.gid fl).larderPut c.tid c.statusOff c.statusBytes
  let s := c.members.foldl (fun s m => s.setCe m fun e => { e with gid := 0, store := [], storePoison := [], boxes := [], boxPoison := [], wake := 0 }) s
  let s := s.setS c.stack fun k => { k with callQueue := k.callQueue.filter (· != n) }
  { s with calls := tdel s.calls n, groups := s.groups.filter fun e => !gids.contains e.1 }

/-- CELLAR_CALL_COMPLETE (14 R279). -/
def execCellarCallComplete (call : Nat) (s : State) : Out :=
  unitStep s (thas s.calls call) (if s.callOver (s.call call) then s.completeCall call else s)

end Sys2Proof.Machine
end

