-- ==== Sys2Proof/Machine/FloatVec.lean ====
section
/-! DEFINITION. Floating-point instructions on V registers (06 R103, R117 to R123). -/
namespace Sys2Proof.Machine

/-- The format of an element form. -/
def fpFmt : FpForm → Fmt
  | .f32 => fF32 | .f16x2 => fF16 | .bf16x2 => fBF16 | .f64 => fF64
/-- The form takes register pairs (06 R117). -/
def fpWide : FpForm → Bool
  | .f64 => true | .f32 => false | .f16x2 => false | .bf16x2 => false
/-- The form holds two packed elements. -/
def fpPacked : FpForm → Bool
  | .f16x2 => true | .bf16x2 => true | .f32 => false | .f64 => false
/-- Registers of a form's value. -/
def fpRegs (m : FpForm) : Nat := if (fpWide m) then 2 else 1
/-- The F64 forms run on core only (06 R117). -/
def fpAvail (m : FpForm) : Avail := if (fpWide m) then avCore else avVec

/-- An operation applied to each element of a form: the results packed, the flags ORed (05 R83, R94). -/
def perElement (packed : Bool) (f : Nat → Nat × Nat) : Nat × Nat :=
  if packed then
    let lo := f 0
    let hi := f 1
    (lo.1 + 65536 * hi.1, lo.2 ||| hi.2)
  else f 0

/-- Element i of a value. -/
def elemOf (packed : Bool) (v i : Nat) : Nat := if packed then v / 65536 ^ i % 65536 else v

/-- A two-source operation of a form. -/
def fpLane2 (m : FpForm) (f : Fmt → Nat → Nat → Nat × Nat) (a b : Nat) : Nat × Nat :=
  perElement (fpPacked m) fun i => f (fpFmt m) (elemOf (fpPacked m) a i) (elemOf (fpPacked m) b i)

/-- A two-source floating-point instruction (06 R117, R118). -/
def State.opFp2 (s : State) (m : FpForm) (d : Reg) (a b : Src) (e : Bool) (f : Fmt → Nat → Nat → Nat × Nat) : Out :=
  s.vecOp (fpAvail m) [srcRef a (fpRegs m), srcRef b (fpRegs m)] d (fpRegs m) e fun l =>
    fres (fpWide m) (fpLane2 m f (s.g.srcN (fpWide m) l a) (s.g.srcN (fpWide m) l b))

/-- FADD of a form (06 R117). -/
def State.opFadd (s : State) (m : FpForm) (d : Reg) (a b : Src) (e : Bool) : Out := s.opFp2 m d a b e fun f => fAdd f s.md false
/-- FMUL of a form (06 R117). -/
def State.opFmul (s : State) (m : FpForm) (d : Reg) (a b : Src) (e : Bool) : Out := s.opFp2 m d a b e fun f => fMul f s.md
/-- FMAX of a form (06 R118). -/
def State.opFmax (s : State) (m : FpForm) (d : Reg) (a b : Src) (e : Bool) : Out := s.opFp2 m d a b e fun f => fMinMax f s.md true

/-- FADD (06 R117). -/
def execFadd (m : FpForm) (d : Reg) (a b : Src) (e : Bool) (s : State) : Out := s.opFadd m d a b e
/-- FSUB (06 R117). -/
def execFsub (m : FpForm) (d : Reg) (a b : Src) (e : Bool) (s : State) : Out := s.opFp2 m d a b e fun f => fAdd f s.md true
/-- FMUL (06 R117). -/
def execFmul (m : FpForm) (d : Reg) (a b : Src) (e : Bool) (s : State) : Out := s.opFmul m d a b e
/-- FMIN (06 R118; 05 R92). -/
def execFmin (m : FpForm) (d : Reg) (a b : Src) (e : Bool) (s : State) : Out := s.opFp2 m d a b e fun f => fMinMax f s.md false
/-- FMAX (06 R118; 05 R92). -/
def execFmax (m : FpForm) (d : Reg) (a b : Src) (e : Bool) (s : State) : Out := s.opFmax m d a b e

/-- FCMP (06 R119). -/
def execFcmp (m : FcmpForm) (d : PReg) (a b : Src) (e : Bool) (s : State) : Out :=
  s.runOk avVec [srcRef a, srcRef b, pref d.toNat] e (s.writeP d fun l => fCmp m s.md (s.g.src l a).toNat (s.g.src l b).toNat)

/-- A one-source F32 instruction with its flags. -/
def State.opFp1 (s : State) (av : Avail) (d : Reg) (a : Src) (e : Bool) (f : Nat → Nat × Nat) : Out :=
  s.vecOp av [srcRef a] d 1 e fun l => fres false (f (s.g.src l a).toNat)

/-- FABS (06 R120). -/
def execFabs (d : Reg) (a : Src) (e : Bool) (s : State) : Out := s.opFp1 avVec d a e fun x => (x % 2 ^ 31, 0)
/-- FNEG (06 R120). -/
def execFneg (d : Reg) (a : Src) (e : Bool) (s : State) : Out := s.opFp1 avVec d a e fun x => ((x + 2 ^ 31) % 2 ^ 32, 0)
/-- FCLASS (06 R120). -/
def execFclass (d : Reg) (a : Src) (e : Bool) (s : State) : Out := s.opFp1 avVec d a e fun x => (fClass x, 0)
/-- FRNDN (06 R120). -/
def execFrndn (d : Reg) (a : Src) (e : Bool) (s : State) : Out := s.opFp1 avVec d a e (fRound s.md .rne)
/-- FRNDZ (06 R120). -/
def execFrndz (d : Reg) (a : Src) (e : Bool) (s : State) : Out := s.opFp1 avVec d a e (fRound s.md .rz)
/-- FRNDD (06 R120). -/
def execFrndd (d : Reg) (a : Src) (e : Bool) (s : State) : Out := s.opFp1 avVec d a e (fRound s.md .rd)
/-- FCOPYS (06 R120). -/
def execFcopys (d : Reg) (a b : Src) (e : Bool) (s : State) : Out :=
  s.intOp d a b e fun x y => (x &&& 0x7FFFFFFF) ||| (y &&& 0x80000000)
/-- FSCALE (06 R120). -/
def execFscale (d : Reg) (a b : Src) (e : Bool) (s : State) : Out :=
  s.vecOp avVec [srcRef a, srcRef b] d 1 e fun l => fres false (fScale s.md (s.g.src l a).toNat (s.g.src l b).toInt)

/-- FRCP (06 R121). -/
def execFrcp (d : Reg) (a : Src) (e : Bool) (s : State) : Out := s.opFp1 avCore d a e (fTrans .rcp s.md)
/-- FRSQ (06 R121). -/
def execFrsq (d : Reg) (a : Src) (e : Bool) (s : State) : Out := s.opFp1 avCore d a e (fTrans .rsq s.md)
/-- FSQRT (06 R121). -/
def execFsqrt (d : Reg) (a : Src) (e : Bool) (s : State) : Out := s.opFp1 avCore d a e (fTrans .sqrt s.md)
/-- FEXP2 (06 R121). -/
def execFexp2 (d : Reg) (a : Src) (e : Bool) (s : State) : Out := s.opFp1 avCore d a e (fTrans .exp2 s.md)
/-- FLOG2 (06 R121). -/
def execFlog2 (d : Reg) (a : Src) (e : Bool) (s : State) : Out := s.opFp1 avCore d a e (fTrans .log2 s.md)
/-- FSIN (06 R121). -/
def execFsin (d : Reg) (a : Src) (e : Bool) (s : State) : Out := s.opFp1 avCore d a e (fTrans .sin s.md)
/-- FCOS (06 R121). -/
def execFcos (d : Reg) (a : Src) (e : Bool) (s : State) : Out := s.opFp1 avCore d a e (fTrans .cos s.md)
/-- FTANH (06 R121). -/
def execFtanh (d : Reg) (a : Src) (e : Bool) (s : State) : Out := s.opFp1 avCore d a e (fTrans .tanh s.md)

/-- A three-source instruction with MOD's patterns on n-register values (06 R122, R123). -/
def State.opFp3 (s : State) (av : Avail) (n : Nat) (d a b c : Reg) (e : Bool) (f : Nat → Nat → Nat → Nat × Nat) : Out :=
  let (a, b, c) := (s.modSrc a 0, s.modSrc b 1, s.modSrc c 2)
  let w := n == 2
  s.vecOp av [srcRef a n, srcRef b n, srcRef c n] d n e fun l =>
    fres w (f (s.g.srcN w l a) (s.g.srcN w l b) (s.g.srcN w l c))

/-- The n elements of a packed word paired with those of another. -/
def elemPairs (n bits a b : Nat) : List (Nat × Nat) :=
  (List.range n).map fun i => (a / 2 ^ (bits * i) % 2 ^ bits, b / 2 ^ (bits * i) % 2 ^ bits)

/-- HDOT2 (06 R123). -/
def execHdot2 (bf : Bool) (d a b c : Reg) (e : Bool) (s : State) : Out :=
  s.opFp3 avCore 1 d a b c e fun x y z => fDot (if bf then fBF16 else fF16) s.md (elemPairs 2 16 x y) z
/-- HDOT4 (06 R123). -/
def execHdot4 (e5 : Bool) (d a b c : Reg) (e : Bool) (s : State) : Out :=
  s.opFp3 avCore 1 d a b c e fun x y z => fDot (if e5 then fF8E5 else fF8E4) s.md (elemPairs 4 8 x y) z

/-- FMA (06 R122). -/
def execFma (m : FpForm) (d a b c : Reg) (e : Bool) (s : State) : Out :=
  s.opFp3 (fpAvail m) (fpRegs m) d a b c e fun x y z =>
    perElement (fpPacked m) fun i => fFma (fpFmt m) (fpFmt m) s.md false false (elemOf (fpPacked m) x i) (elemOf (fpPacked m) y i) (elemOf (fpPacked m) z i)
/-- FMS (06 R122). -/
def execFms (d a b c : Reg) (e : Bool) (s : State) : Out := s.opFp3 avVec 1 d a b c e (fFma fF32 fF32 s.md false true)
/-- FNMA (06 R122). -/
def execFnma (d a b c : Reg) (e : Bool) (s : State) : Out := s.opFp3 avVec 1 d a b c e (fFma fF32 fF32 s.md true false)

/-- The format of a mixed form. -/
def mixFmt : MixForm → Fmt | .f16lo => fF16 | .f16hi => fF16 | .bf16lo => fBF16 | .bf16hi => fBF16
/-- The half that a mixed form reads. -/
def mixHalf : MixForm → Nat | .f16lo => 0 | .f16hi => 1 | .bf16lo => 0 | .bf16hi => 1

/-- FMA_MIXED (06 R122): halves of a and b, and an F32 c. -/
def execFmaMixed (m : MixForm) (d a b c : Reg) (e : Bool) (s : State) : Out :=
  s.opFp3 avVec 1 d a b c e fun x y z => fFma (mixFmt m) fF32 s.md false false (elemOf true x (mixHalf m)) (elemOf true y (mixHalf m)) z

end Sys2Proof.Machine
end

