-- ==== Sys2Proof/Machine/Compact.lean ====
section
/-! DEFINITION. The 16-bit forms: each executes as the 32-bit form of 03 Table 3.2 (03 R51). -/
namespace Sys2Proof.Machine

/-- The second operand of a C16 form: class CL and register REG, straight (03 R51). -/
def c16Src (c : Bool) (r : Reg) : Src := if c then .s r else .v r .straight
/-- The destination as first operand (03 R51). -/
def c16Dst (d : Reg) : Src := .v d .straight
/-- IMM6: signed (03 R51). -/
def c16Imm (i : BitVec 6) : Word := wrap32 (sextInt 6 i.toNat)

/-- IADD.I32 Vd, Vd, x (03 Table 3.2). -/
def execIaddC16 (c : Bool) (r d : Reg) (s : State) : Out := s.opAdd false .i32 d (c16Dst d) (c16Src c r) false
/-- ISUB.I32 Vd, Vd, x (03 Table 3.2). -/
def execIsubC16 (c : Bool) (r d : Reg) (s : State) : Out := s.opAdd true .i32 d (c16Dst d) (c16Src c r) false
/-- IMUL.LO.I32 Vd, Vd, x (03 Table 3.2). -/
def execImulC16 (c : Bool) (r d : Reg) (s : State) : Out := s.opMul .loI32 d (c16Dst d) (c16Src c r) false
/-- AND Vd, Vd, x (03 Table 3.2). -/
def execAndC16 (c : Bool) (r d : Reg) (s : State) : Out := s.opAnd d (c16Dst d) (c16Src c r) false
/-- OR Vd, Vd, x (03 Table 3.2). -/
def execOrC16 (c : Bool) (r d : Reg) (s : State) : Out := s.opOr d (c16Dst d) (c16Src c r) false
/-- XOR Vd, Vd, x (03 Table 3.2). -/
def execXorC16 (c : Bool) (r d : Reg) (s : State) : Out := s.opXor d (c16Dst d) (c16Src c r) false
/-- SHL Vd, Vd, x (03 Table 3.2). -/
def execShlC16 (c : Bool) (r d : Reg) (s : State) : Out := s.opShift .shl d (c16Dst d) (c16Src c r) false
/-- SHR Vd, Vd, x (03 Table 3.2). -/
def execShrC16 (c : Bool) (r d : Reg) (s : State) : Out := s.opShift .shr d (c16Dst d) (c16Src c r) false
/-- OR Vd, x, x (03 Table 3.2). -/
def execMovC16 (c : Bool) (r d : Reg) (s : State) : Out := s.opOr d (c16Src c r) (c16Src c r) false
/-- MOVI Vd, imm6 (03 Table 3.2). -/
def execMoviC16 (i : BitVec 6) (d : Reg) (s : State) : Out := s.opMovI d (c16Imm i) false
/-- IADDI Vd, Vd, imm6 (03 Table 3.2). -/
def execIaddiC16 (i : BitVec 6) (d : Reg) (s : State) : Out := s.opAddI d (c16Dst d) (c16Imm i) false
/-- FADD.F32 Vd, Vd, x (03 Table 3.2). -/
def execFaddC16 (c : Bool) (r d : Reg) (s : State) : Out := s.opFadd .f32 d (c16Dst d) (c16Src c r) false
/-- FMAX.F32 Vd, Vd, x (03 Table 3.2). -/
def execFmaxC16 (c : Bool) (r d : Reg) (s : State) : Out := s.opFmax .f32 d (c16Dst d) (c16Src c r) false
/-- FMUL.F32 Vd, Vd, x (03 Table 3.2). -/
def execFmulC16 (c : Bool) (r d : Reg) (s : State) : Out := s.opFmul .f32 d (c16Dst d) (c16Src c r) false
/-- LDL.32 Vd, [L Va + 0] (03 Table 3.2). -/
def execLdlC16 (r d : Reg) (s : State) : Out := s.opLdl .b32 0 r d false
/-- STL.32 Vd, [L Va + 0] (03 Table 3.2). -/
def execStlC16 (r d : Reg) (s : State) : Out := s.opStl .b32 0 r d false

end Sys2Proof.Machine
end

