-- ==== Sys2Proof/Machine/Tile.lean ====
section
/-! DEFINITION. Tiles: loads, stores, moves, transposition (08 R152, R153). -/
namespace Sys2Proof.Machine

/-! ### Rows (08 R152) -/

/-- The source lane of a tile row (08 R152). -/
def State.rowLane (s : State) (r : Nat) : Option Nat :=
  if s.batch.contains r then some r
  else if s.g.width = 64 && s.batch.contains (r + 32) then some (r + 32)
  else none

/-- The rows that have a source lane, with it. -/
def State.tileRows (s : State) : List (Nat × Nat) := (List.range 32).filterMap fun r => (s.rowLane r).map fun l => (r, l)

/-- The batch narrowed to the source lanes of its tile rows, for address checks. -/
def State.rowBatch (s : State) : State := s.narrow (s.tileRows.map (·.2))

/-- The accesses of a tile's rows: global at a pool record, or the team's larder (08 R152). -/
def State.rowAccs (s : State) (lar : Bool) (idx imm : Nat) (r : Reg) (write : Bool) : Except Stop (List LaneAcc) :=
  if lar then
    match s.rowBatch.formOffsets r imm 32 s.tm.larderSize with
    | .error e => .error e
    | .ok xs => .ok (xs.map fun x => { lane := x.1, va := x.2, tgt := .larder x.2 })
  else
    match s.rowBatch.formAddrs r idx imm 32 write with
    | .error e => .error e
    | .ok as => s.locateAll as 32 (if write then .write else .read)

/-- The access of a row. -/
def rowAcc (xs : List LaneAcc) (lane : Nat) : LaneAcc := (xs.find? fun x => x.lane == lane).getD { lane := lane, va := 0, tgt := .larder 0 }

/-- POISON for a tile row (02 R44; 08 R152). -/
def tilePoison (t row va : Nat) : Trap := { code := tPOISON, detail := row + 512 + 2 ^ 32 * t, addr := va }

/-- The rows of a load read now, or awaited from another module; a poisoned row stops it. -/
def State.readRows (s : State) (t : Nat) (xs : List LaneAcc) : List (Nat × Nat) → Except Stop (List LaneRet × State)
  | [] => .ok ([], s)
  | (row, l) :: rows =>
    let x := rowAcc xs l
    if x.tgt.isRemote then
      match s.readRows t xs rows with
      | .error e => .error e
      | .ok (rs, s) => .ok ({ lane := row, addr := x.va, fwd := s.fwdBytes s.cur.gid s.g.stores x.va 32 } :: rs, s)
    else
      let (bs, pois, s) := s.readAt s.cur.gid x.tgt 32 x.va
      if pois then .error (.trap (tilePoison t row x.va))
      else
        match s.readRows t xs rows with
        | .error e => .error e
        | .ok (rs, s) => .ok ({ lane := row, ready := true, ws := [.tile t row bs], addr := x.va } :: rs, s)

/-- A tile load begins: rows land as asynchronous returns, counted in TL (08 R152). It waits for what no load passes (10 R180), and passes the race
detector as it is performed (10 R204). -/
def State.beginTile (s : State) (t : Fld3) (xs : List LaneAcc) (e : Bool) : Except Stop State :=
  let s := if s.g.queuesOps then (s.drainQueue s.cur.gid).2 else s
  if s.g.queuesOps then .ok (s.blockOn (.fence .team))
  else
    match xs.find? fun x => !s.reaches s.cur.gid x.tgt false with
    | some x => .ok (s.blockOn (.reach x.tgt false))
    | none =>
    match s.readRows t.toNat xs s.tileRows with
    | .error st => .error st
    | .ok (rs, s) =>
      let s := match s.raceCheck xs false with | .ok u => u | .error _ => s
      let gid := s.cur.gid
      let rows := s.tileRows
      let (rid, s) := s.newId
      let far := rows.filter fun r => (rowAcc xs r.2).tgt.isRemote
      let s := s.modG fun g =>
        (g.begin { id := rid, kind := .tile, ctr := some .tl, regs := [{ cls := 2, idx := t.toNat }], lanes := rs, stall := !far.isEmpty,
                   issue := s.cur })
      let g := s.g
      let s := far.foldl (fun s r =>
        s.request { tag := 0, gid := gid, core := g.place, die := g.die, ctx := g.ctx, use := .row rid r.1 t.toNat, issue := s.cur,
                    pkt := { kind := 1, va := BitVec.ofNat 64 (rowAcc xs r.2).va, aux := 32 } }) s
      .ok (if far.isEmpty then s.retire e else s.retireAt fun _ => s.cur.npc)

/-- V registers that a tile access reads for its addresses. -/
def tileAddrRegs (lar : Bool) (idx : Nat) : Nat := if lar then 1 else addrRegs idx

/-- The address registers of a tile access: a lane that is no row's source is not read (02 R44; 08 R152). -/
def State.rowPoison (s : State) (r : Reg) (n : Nat) : Except Stop Unit :=
  s.poisonPairs (s.tileRows.flatMap fun x => (List.range n).map fun k => (s.g.phys x.2 r + k, x.2))

/-- TLOAD (08 R152). `g` is the global form. -/
def execTload (g : Bool) (i : Reg) (p : BitVec 6) (r : Reg) (t : Fld3) (e : Bool) (s : State) : Out :=
  let idx := s.poolIdx p
  let lar := !g
  s.runEnd avHome [vdst r (tileAddrRegs lar idx), tref t]
    (match firstErr [s.rowPoison r (tileAddrRegs lar idx), s.checkCtr .tl], s.rowAccs lar idx (s.immM i * 32) r false with
     | .error st, _ => .error st
     | _, .error st => .error st
     | .ok _, .ok xs =>
       if lar then
         match s.fillAll (xs.map fun x => (x.lane, x.va)) 32 2048 with
         | .error st => .error st
         | .ok (false, s) => .ok (s.blockOn .remote)
         | .ok (true, s) => s.beginTile t xs e
       else
         match s.raceCheck xs false with
         | .error st => .error st
         | .ok _ => (s.tlbNote xs).beginTile t xs e)

/-- The stores of a tile's rows, each two 16-byte halves (08 R152). -/
def State.tileStores (s : State) (t : Fld3) (xs : List LaneAcc) : List (Target × Nat × List Byte) :=
  s.tileRows.flatMap fun r =>
    let x := rowAcc xs r.2
    let bs := s.g.trow t.toNat r.1
    [0, 16].map fun o =>
      (x.tgt.plus o,
       x.va + o, (bs.drop o).take 16)

/-- Rows enter the group's store queue, counted in TL until the last is performed (08 R152). -/
def State.beginTileStore (s : State) (us : List (Target × Nat × List Byte)) : State :=
  let (rid, s) := s.newId
  let c := s.cur
  s.modG fun g =>
    let g := g.begin { id := rid, kind := .tile, ctr := some .tl, left := us.length, issue := c }
    { g with stores := g.stores ++ us.map fun u => { ret := rid, lane := 0, tgt := u.1, va := u.2.1, act := .bytes u.2.2, pc := c.pc } }

/-- TSTORE (08 R152): a row into a read-only window takes PROT (09 R164). -/
def execTstore (g : Bool) (i : Reg) (p : BitVec 6) (r : Reg) (t : Fld3) (e : Bool) (s : State) : Out :=
  let idx := s.poolIdx p
  let lar := !g
  s.runEnd avHome [vdst r (tileAddrRegs lar idx), tref t]
    (match firstErr [s.rowPoison r (tileAddrRegs lar idx), s.checkCtr .tl], s.rowAccs lar idx (s.immM i * 32) r true with
     | .error st, _ => .error st
     | _, .error st => .error st
     | .ok _, .ok xs =>
       if lar then
         match xs.find? fun x => match s.tm.window (x.va / 256) with | some (_, w) => !w.wb | none => false with
         | some x => .error (memTrap tPROT 7 x.lane x.va)
         | none =>
           match s.fillAll (xs.map fun x => (x.lane, x.va)) 32 2048 with
           | .error st => .error st
           | .ok (false, s) => .ok (s.blockOn .remote)
           | .ok (true, s) => .ok ((s.beginTileStore (s.tileStores t xs)).retire e)
       else
         match s.raceCheck xs true with
         | .error st => .error st
         | .ok s => .ok (((s.tlbNote xs).beginTileStore (s.tileStores t xs)).retire e))

/-! ### Moves (08 R153) -/

/-- A word of a tile row. -/
def rowWord (row : List Byte) (w : Nat) : Word := w32 (fieldAt row (4 * w) 4)

/-- TMOV.TV (08 R153). -/
def execTmovTv (b : Fld3) (a : Reg) (e : Bool) (s : State) : Out :=
  s.runOk avHome [tref b, vdst a 8] e (s.writeV a fun l => ((List.range 8).map (rowWord (s.g.trow b.toNat (l % 32))), 0))

/-- TMOV.VT (08 R153): only the lanes that are some row's source are read. -/
def execTmovVt (b : Fld3) (a : Reg) (e : Bool) (s : State) : Out :=
  let rs := [{ cls := 0, field := a.toNat, n := 8 }, tref b]
  s.runChecks
    [s.checkRegs avHome rs, s.checkPending rs,
     s.poisonPairs (s.tileRows.flatMap fun r => (List.range 8).map fun w => (s.g.phys r.2 a + w, r.2))] e
    (s.modG fun g => s.tileRows.foldl (fun g r =>
      g.tsetRow b.toNat r.1 ((List.range 8).flatMap fun w => leBytes 4 (s.g.vval r.2 (s.g.phys r.2 a + w)).toNat)) g)

/-- Bytes of a TXP element (08 R153). -/
def txpBytes : TxpSize → Nat | .e8 => 1 | .e16 => 2 | .e32 => 4

/-- A tile transposed block by block (08 R153). -/
def transpose (k : TxpSize) (t : List Byte) : List Byte :=
  let n := txpBytes k
  let b := 32 / n
  (List.range 1024).map fun x =>
    let row := x / 32
    let j := x % 32 / n
    t.getD (32 * (row / b * b + j) + n * (row % b) + x % n) 0

/-- TXP (08 R153). -/
def execTxp (k : TxpSize) (c b : Fld3) (e : Bool) (s : State) : Out :=
  s.runOk avHome [tref b, tref c] e (s.modG fun g => g.tset c.toNat (transpose k (g.tile b.toNat)))

/-- TCLR (08 R153). -/
def execTclr (b : Fld3) (e : Bool) (s : State) : Out :=
  s.runOk avHome [tref b] e (s.modG fun g => g.tset b.toNat (List.replicate 1024 0))

end Sys2Proof.Machine
end

