-- ==== Sys2Proof/Machine/Fabric.lean ====
section
/-! DEFINITION. Fraric packets as they arrive: requests at their owner, pushes and answers at their sender, and what happens without an answer
(10 R190, R191; 11 R206, R228, R229; 12 R243 to R255; 16 R315, R319). -/
namespace Sys2Proof

/-- A reserved field is nonzero: a header field, FLAGS 7:3, the other bits of SRC, or an answer's OP (12 R243). -/
def Packet.bad (p : Packet) : Bool :=
  !p.clean || decide (8 ≤ p.flags) || p.src / 2 ^ 19 % 32 != 0 || decide (2 ^ 27 ≤ p.src) || (p.kind == 11 && decide (8 ≤ p.op))

/-- Whether a discarded packet is answered RANGE: it carries a tag (12 R243). -/
def Packet.tagged (p : Packet) : Bool := p.tag != 0

/-- A packet that goes on inside the module: a push, or an answer. -/
def Packet.inward (p : Packet) : Bool := p.kind == 8 || p.kind == 9 || p.kind == 11 || p.kind == 12

/-- The flow and line of a request (12 R248): its module, its context, its line. -/
def Packet.flow (p : Packet) : Nat × Nat × Nat := (p.src % 2 ^ 19, p.ckey, p.va.toNat / 256)

/-- A packet that waits holds back this one: both are unicast requests of one flow and line (12 R248). -/
def Packet.behind (p q : Packet) : Bool := !p.inward && !q.inward && p.kind != 5 && q.kind != 5 && p.kind != 10 && q.kind != 10 && q.flow == p.flow

end Sys2Proof

namespace Sys2Proof.Machine

/-! ### Packets that break the header's rules (12 R243) -/

/-- A packet discarded with a fault record for this module's own driver, and answered RANGE if it carries a tag (12 R243). The record's fields are the
model's (DEDUCED, log 132). -/
def State.discard (s : State) (p : Packet) : State :=
  let die := dieOfPort p.port
  let s := s.postLoose die (faultBytes 5 6 ((s.keyCtx p.ckey).getD 0) false (gatewayWho die) 0 p.va.toNat 0)
  if p.tagged then s.answer p 11 6 0 [] else s

/-- A packet's row: its port exists, and a packet that breaks the header's rules is discarded. -/
def State.onPacket (s : State) (p : Packet) (body : State) : Out := unitStep s (decide (p.port < 32)) (if p.bad then s.discard p else body)

/-- RESERVED_FRARIC_KIND (12 R243). -/
def execReservedFraricKind (p : Packet) (s : State) : Out := unitStep s (decide (p.port < 32)) (s.discard p)

/-! ### Requests at their owner (12 R247, R248; 16 R315) -/

/-- A request served and answered: none where that is done, else whether its walk stalls on MOVING. -/
def State.serveAnswer (s : State) (p : Packet) (since : Nat) : Option Bool × State :=
  match s.serveKind p since with
  | (.answer op aux data, s) =>
    let s := s.answer p 11 op aux data
    (none, if p.kind = 7 ∧ op = 0 then s.unsubbed p else s)
  | (.stall m, s) => (some m, s)

/-- A packet that waits at its gateway; the time counts from its first stall on MOVING (16 R315). -/
def State.hold (s : State) (p : Packet) (moving : Bool) : State := { s with inbox := s.inbox ++ [(p, if moving then some s.now else none)] }

/-- A request served, or kept while it stalls; one behind another of its flow and line waits for it, but for a multicast copy, which no such order
holds (12 R248). -/
def State.offer (s : State) (p : Packet) : State :=
  if s.inbox.any fun q => p.behind q.1 then s.hold p false
  else
    match s.serveAnswer p s.now with
    | (none, s) => s
    | (some m, s) => s.hold p m

/-- READ (12 R247). -/
def execRead (p : Packet) (s : State) : Out := s.onPacket p (s.offer { p with kind := 1 })
/-- WRITE (12 R247). -/
def execWrite (p : Packet) (s : State) : Out := s.onPacket p (s.offer { p with kind := 2 })
/-- ATOMIC (11 R219; 12 R247). -/
def execAtomic (p : Packet) (s : State) : Out := s.onPacket p (s.offer { p with kind := 3 })
/-- REDUCE (12 R255). -/
def execReduce (p : Packet) (s : State) : Out := s.onPacket p (s.offer { p with kind := 4 })
/-- MCAST: a member's copy (12 R251); the member answers the switch. -/
def execMcast (p : Packet) (s : State) : Out := s.onPacket p (s.offer { p with kind := 5 })
/-- SUB (12 R252). -/
def execSub (p : Packet) (s : State) : Out := s.onPacket p (s.offer { p with kind := 6 })
/-- UNSUB (12 R253): its flow's SUB, if still stalled, goes first (12 R248). -/
def execUnsub (p : Packet) (s : State) : Out := s.onPacket p (s.offer { p with kind := 7 })

/-! ### Pushes at the subscriber (10 R191; 12 R252, R253) -/

/-- The team and subscription that hold a push's word and tag. -/
def State.pushed (s : State) (ctx : Nat) (p : Packet) : Option (Nat × Sub) :=
  firstSome (fun e =>
    if e.2.ctx = ctx then (e.2.subs.find? fun u => u.remote && u.va == p.va.toNat && u.tag == p.aux.toNat % 65536).map fun u => (e.1, u) else none) s.teams

/-- A subscription of a team changed. -/
def Team.setSub (t : Team) (slot : Nat) (f : Sub → Sub) : Team := { t with subs := t.subs.map fun u => if u.slot = slot then f u else u }

/-- A packet crosses from its gateway to a die once the link between them is up (17 R344). -/
def State.inward (s : State) (p : Packet) (die : Nat) (body : State) : State := if s.cut die (dieOfPort p.port) then s.hold p false else body

/-- A push applied, held until the registration, or discarded by tag; for no context, the home is told (12 R252). -/
def State.pushIn (s : State) (p : Packet) : State :=
  let q := p.aux.toNat / 2 ^ 32
  let val := fieldAt p.payload 0 8
  match s.keyCtx p.ckey with
  | none => s.answer p 11 6 p.aux.toNat []
  | some c =>
    match s.pushed c p with
    | none => s
    | some (tid, u) =>
      s.inward p (dieOfCore (s.team tid).core)
        (if u.live then s.pushSlot tid u.slot q val else s.setT tid fun t => t.setSub u.slot fun u => { u with heldPushes := u.heldPushes ++ [(q, val)] })

/-- The count of the last write before a removal (12 R253). -/
def State.pushendIn (s : State) (p : Packet) : State :=
  match s.keyCtx p.ckey with
  | none => s
  | some c =>
    match s.pushed c p with
    | none => s
    | some (tid, u) =>
      s.inward p (dieOfCore (s.team tid).core) (s.setT tid fun t => t.setSub u.slot fun u => { u with last := some (p.aux.toNat / 2 ^ 32) })

/-- PUSH (12 R252). -/
def execPush (p : Packet) (s : State) : Out := s.onPacket p (s.pushIn { p with kind := 8 })

/-- PUSHEND (12 R253). -/
def execPushend (p : Packet) (s : State) : Out := s.onPacket p (s.pushendIn { p with kind := 9 })

/-- PUSH_RESEND (12 R252): a kept push or PUSHEND is sent once a route is live, tried every 4 µs. -/
def execPushResend (i : Nat) (s : State) : Out :=
  match s.pushes[i]? with
  | none => .next s
  | some q =>
    .next (if !q.remote || decide (s.now < q.sentAt + 4 * usTicks) then s
           else
             match s.portFrom q.die q.ctx q.node q.va with
             | (none, s) => { s with pushes := s.pushes.set i { q with sentAt := s.now } }
             | (some port, s) =>
               State.emit { s with pushes := s.pushes.eraseIdx i }
                 { kind := if q.ended then 9 else 8, src := s.srcField q.die, ckey := (s.ctx q.ctx).skey, dest := q.node, port := port,
                   va := BitVec.ofNat 64 q.va, aux := BitVec.ofNat 64 (q.tag + 2 ^ 32 * (q.q % 2 ^ 32)),
                   payload := if q.ended then [] else leBytes 8 q.val })

/-- A negative answer to a push removes the subscription at the home (12 R252). -/
def State.pushRefused (s : State) (p : Packet) : State :=
  let mine (g : Peg) : Bool := g.remote && g.node == p.src % 2 ^ 19 && g.va == p.va.toNat && g.tag == p.aux.toNat % 65536
  { s with pegs := s.pegs.filter fun g => !mine g,
           pushes := s.pushes.filter fun g => !(g.remote && g.node == p.src % 2 ^ 19 && g.va == p.va.toNat && g.tag == p.aux.toNat % 65536) }

/-! ### What a negative answer does besides (12 R249) -/

/-- WHO of the agent that sent a request (17 Table 17.2): its group, its engine, or its core. -/
def State.reqWho (s : State) (r : Req) : Nat :=
  if r.gid ≠ 0 && thas s.groups r.gid then (s.grp r.gid).who
  else if 1024 ≤ r.core && decide (r.core < 2048) then engineWho (r.core - 1024)
  else r.core % 1024 + 65536 * r.die

/-- The instruction that a request belongs to, where it holds a group's lanes. -/
def State.reqIssue (s : State) (r : Req) : Issue :=
  match r.use.ret? with
  | some id => (match (s.grp r.gid).ret? id with | some q => q.issue | none => r.issue)
  | none => r.issue

/-- A fault record at the die whose agent sent the request: KIND 0x05 for data that did not come, 0x04 for a write that was lost. -/
def State.reqRecord (s : State) (r : Req) (kind reason : Nat) (detail : Nat := 0) : State :=
  s.postLoose r.die (faultBytes kind reason r.ctx false (s.reqWho r) (s.reqIssue r).pc.toNat r.pkt.va.toNat detail)

/-- RANGE freezes the sending context; the record goes to the die whose gateway received the answer (12 R244, R249; 16 R324, R326). -/
def State.rangeFreeze (s : State) (r : Req) (die : Nat) : State :=
  s.freezeCtx die r.ctx 4 2 (s.reqWho r % 2 ^ 19) (s.reqIssue r).pc.toNat r.pkt.va.toNat 6

/-- What RANGE and UNREACH do besides, for data that was expected and for bytes that are discarded. -/
def State.lostAnswer (s : State) (r : Req) (die op kind : Nat) : State :=
  if op = 6 then s.rangeFreeze r die else if op = 7 then s.reqRecord r kind 7 else s

/-- A request answered NOMAP or NONRES is kept, to be sent again after 4 µs (12 R249). -/
def State.keepReq (s : State) (r : Req) : State :=
  { s with reqs := s.reqs.map fun q => if q.tag = r.tag then { q with hold := .retry, sentAt := s.now } else q }

/-! ### Answers by what they answer -/

/-- Answered bytes with what a lane's own core had stored there laid over (10 R180, R196). -/
def laid (fwd : Tab Byte) (bs : List Byte) : List Byte := bs.zipIdx.map fun b => tget b.1 fwd b.2
/-- Every one of n bytes is laid over. -/
def laidAll (fwd : Tab Byte) (n : Nat) : Bool := (List.range n).all (thas fwd)

/-- A load's lanes answered (11 R206, R210; 12 R249). NOMAP and NONRES end an LDP lane with zeros, and call for a replay of any other load. -/
def State.loadAnswer (s : State) (r : Req) (die op : Nat) (pois : Bool) (data : List Byte) (ret : Nat) (lanes : List Nat) (z : Size) (pi : Option Nat) :
    State :=
  let n := sizeBytes z
  let issue := s.reqIssue r
  let neg := lanes.map fun l => (l, op, (s.laneRet r.gid ret l).addr)
  let ws (bad ok : Bool) : List (Nat × List RegWrite) := (lanes.zipIdx).map fun l =>
    let x := s.laneRet r.gid ret l.1
    (l.1, vWrites l.1 x.dst (bad && !laidAll x.fwd n)
        (if ok then loadWords z (laid x.fwd (padTo n (sliceAt data (n * l.2) n))) else List.replicate (sizeRegs z) 0) ++
      (match pi with | some i => [.p l.1 i ok] | none => []))
  if op = 0 then s.lanesReady r.gid ret issue (ws pois true)
  else if op = 1 ∨ op = 2 then (if pi.isSome then s.lanesReady r.gid ret issue (ws false false) else s.lanesNeg r.gid ret neg)
  else if op = 3 ∨ op = 4 then s.lanesNeg r.gid ret neg
  else (s.lostAnswer r die op 5).lanesReady r.gid ret issue (ws true true)

/-- A tile row answered (08 R152): poisoned data traps at the instruction (02 R44). -/
def State.rowAnswer (s : State) (r : Req) (die op : Nat) (pois : Bool) (data : List Byte) (ret row tile : Nat) : State :=
  let x := s.laneRet r.gid ret row
  if op = 0 && (!pois || laidAll x.fwd 32) then s.lanesReady r.gid ret (s.reqIssue r) [(row, [.tile tile row (laid x.fwd (padTo 32 data))])]
  else if 1 ≤ op ∧ op ≤ 4 then s.lanesNeg r.gid ret [(row, op, x.addr)]
  else (s.lostAnswer r die op 5).lanesNeg r.gid ret [(row, 5, x.addr)]

/-- A write that was lost: the record of Table 11.2 with its cause, a freeze for RANGE. A drain that met poison leaves no record (12 R249). -/
def State.writeLost (s : State) (r : Req) (die op : Nat) (atom : Bool) : State :=
  if op = 6 then s.rangeFreeze r die
  else if op = 5 && !atom then s
  else s.reqRecord r 4 op (if op = 3 then 256 * 7 else if op = 4 then 256 * 4 else 0)

/-- A write answered: its count falls (10 R196; 11 R227). -/
def State.drainAnswer (s : State) (r : Req) (die op ret : Nat) (atom : Bool) : State :=
  let s := if op = 0 then s else s.writeLost r die op atom
  if ret = 0 then s else s.setG r.gid fun g => g.oneDone ret

/-- An atomic answered (11 R219, R220; 05 R99). A QNT's index add answered RANGE or UNREACH has returned no index (DEDUCED, log 78). -/
def State.atomAnswer (s : State) (r : Req) (die op : Nat) (pois : Bool) (data : List Byte) (ret lane n phys : Nat) (nr : Bool) : State :=
  let qnt : Bool := match (s.grp r.gid).ret? ret with | some q => q.kind == .qnt | none => false
  if nr then s.drainAnswer r die op ret true
  else if 1 ≤ op ∧ op ≤ 4 ∧ (3 ≤ op ∨ qnt = false) then s.lanesNeg r.gid ret [(lane, op, (s.laneRet r.gid ret lane).addr)]
  else
    let bad := op != 0 || pois
    let s := s.lostAnswer r die op 5
    if qnt = true then (s.qntDone r.gid ret (if bad then none else some (fieldAt data 0 n))).stallOver r.gid ret
    else s.lanesReady r.gid ret (s.reqIssue r) [(lane, atomWrites lane phys n (if bad then 0 else fieldAt data 0 n) bad)]

/-- A REDUCE packet answered: every lane of it at once (12 R255). -/
def State.reduceAnswer (s : State) (r : Req) (die op : Nat) (pois : Bool) (data : List Byte) (ret : Nat) (lanes : List (Nat × Nat)) (n : Nat) (nr : Bool) :
    State :=
  if nr then
    let s := if op = 0 then s else s.writeLost r die op true
    s.setG r.gid fun g => lanes.foldl (fun g _ => g.oneDone ret) g
  else if 1 ≤ op ∧ op ≤ 4 then s.lanesNeg r.gid ret (lanes.map fun l => (l.1, op, (s.laneRet r.gid ret l.1).addr))
  else
    let bad := op != 0 || pois
    (s.lostAnswer r die op 5).lanesReady r.gid ret (s.reqIssue r)
      (lanes.zipIdx.map fun l => (l.1.1, atomWrites l.1.1 l.1.2 n (if bad then 0 else fieldAt data (n * l.2) n) bad))

/-- The held push with the highest count (12 R252). -/
def lastPush : List (Nat × Nat) → Option (Nat × Nat)
  | [] => none
  | x :: xs => match lastPush xs with | some y => if x.1 < y.1 then some y else some x | none => some x

/-- A WATCH answered (12 R252): registered with the word's value, then the held push of the highest count; or refused. -/
def State.subAnswer (s : State) (r : Req) (die op aux : Nat) (data : List Byte) (ret lane slot pidx : Nat) : State :=
  let tid := (s.grp r.gid).tid
  let say (s : State) (b : Bool) := s.lanesReady r.gid ret (s.reqIssue r) [(lane, [.p lane pidx b])]
  if op = 0 && aux % 2 = 1 then
    let held := match (s.team tid).sub? slot with | some u => lastPush u.heldPushes | none => none
    let s := s.subStart r.gid tid slot (fieldAt data 0 8)
    say (match held with | some (q, v) => s.pushSlot tid slot q v | none => s) true
  else if 1 ≤ op ∧ op ≤ 4 then (s.subDrop tid slot).lanesNeg r.gid ret [(lane, op, (s.laneRet r.gid ret lane).addr)]
  else say ((s.subDrop tid slot).lostAnswer r die op 5) false

/-- An UNSUB answered: PUSHEND ends it (12 R253); a refused one is over at once, as its word sends no more that counts. -/
def State.unsubAnswer (s : State) (r : Req) (die op : Nat) : State :=
  if op = 0 then s
  else
    let tid := fieldAt r.pkt.payload 0 4
    let slot := fieldAt r.pkt.payload 4 4
    (s.lostAnswer r die op 5).setT tid fun t => t.setSub slot fun u => { u with last := some (leNat (t.lread (slot + 8) 4)) }

/-- A larder window's line answered (09 R165): it is filled, data that did not come as poison; or the access that touched it traps, named by the
lowest lane that touches the line (11 R207). -/
def State.fillAnswer (s : State) (r : Req) (die op : Nat) (pois : Bool) (data : List Byte) (tid win line lane : Nat) : State :=
  let w := tget {} (s.team tid).lmap win
  let fill (bad : Bool) (s : State) : State :=
    if w.covers line && !w.valid.contains line && (s.team tid).phase == .resident then
      s.setT tid fun t => t.fillLine win line (laid r.fwd (padTo 256 data))
        (if bad then [0, 1, 2, 3].filter fun q => !((List.range 64).all fun i => thas r.fwd (64 * q + i)) else [])
    else s
  if op = 0 then fill pois s
  else if op = 3 ∨ op = 4 then
    s.trapAt r.gid r.issue { code := tPROT, detail := lane + 256 * (if op = 4 then 4 else 7), addr := r.pkt.va.toNat }
  else fill true (s.lostAnswer r die op 5)

/-- A crate to another module answered (12 R254): resident there, or refused with a cause; no answer counts as cause 1. A return crate has no
record here: it is under way no more. -/
def State.crateAnswer (s : State) (r : Req) (die op id : Nat) : State :=
  match s.crates.find? fun c => c.id == id with
  | none => s
  | some c =>
    if op = 0 then State.crateLeft { s with crates := s.crates.filter fun d => d.id != id } c
    else
      let s := if op = 6 then s.rangeFreeze r die else s
      s.refuseCrate c (if op ≤ 5 then op else 1)

/-- The units of an answered source line of a copy. -/
def lineUnits (line : Nat) (bad : Bool) (data : List Byte) : List (Nat × List Byte × Bool) :=
  (List.range 4).map fun k => (256 * line + 64 * k, sliceAt (padTo 256 data) (64 * k) 64, bad)

/-- A source buffer that asks for a line again. -/
def SrcBuf.unask (b : SrcBuf) (line : Nat) : SrcBuf := { b with asked := b.asked.filter (· != line) }

/-- The fault of an engine's access that its owner refused (11 R206, R236). -/
def farFault (op addr : Nat) : EngFault :=
  if op = 5 then { code := tPOISON, addr := addr, detail := 0 } else { code := tPROT, addr := addr, detail := 256 * (if op = 4 then 4 else 7) }

/-- The copy under way of a number, with its engine. -/
def State.jobAt (s : State) (job : Nat) : Option (Nat × CopyJob) :=
  firstSome (fun e => match e.2.job with | some j => if j.id = job then some (e.1, j) else none | none => none) s.engines

/-- A copy's source line answered (10 R187; 12 R249). -/
def State.copyReadAnswer (s : State) (r : Req) (die op : Nat) (pois : Bool) (data : List Byte) (job line : Nat) : State :=
  match s.jobAt job with
  | none => if op = 6 then s.rangeFreeze r die else s
  | some (e, j) =>
    let put (bad : Bool) (s : State) := s.setE e fun k => { k with job := some { j with buf := j.buf.addLine (lineUnits line bad data) } }
    if op = 0 then put pois s
    else if op = 3 ∨ op = 4 then s.engFault e { j with buf := j.buf.unask line } (farFault op (256 * line))
    else put true (s.lostAnswer r die op 5)

/-- A write of a copy's event answered: its bytes have landed, are discarded, or were refused, which is a fault (10 R187; 12 R249). The copy goes on
once every write of the event is answered and none was refused. -/
def State.copyWriteAnswer (s : State) (r : Req) (die op job n : Nat) : State :=
  match s.jobAt job with
  | none => if op = 6 ∨ op = 7 then s.writeLost r die op false else s
  | some (e, j) =>
    let j := { j with flying := j.flying - 1, lands := j.lands + (if op = 0 then n else 0), redo := j.redo || decide (3 ≤ op ∧ op ≤ 5) }
    let s := if op = 6 ∨ op = 7 then s.writeLost r die op false else s
    let s := s.setE e fun k => { k with job := some j }
    if 3 ≤ op ∧ op ≤ 5 then (if j.stuck then s else s.engFault e j (farFault op r.pkt.va.toNat))
    else if j.flying = 0 && !j.redo && !j.stuck then (s.landed j.tid j.id (j.f 6 2) j.lands).engNext e j
    else s

/-- A CPYM's source line answered (11 R237; 12 R249). -/
def State.parkAnswer (s : State) (r : Req) (die op : Nat) (pois : Bool) (data : List Byte) (cluster ret line : Nat) : State :=
  match (s.cluster cluster).parks.find? fun p => p.ret == ret with
  | none => s
  | some p =>
    let put (bad : Bool) (s : State) := s.setPark cluster { p with buf := p.buf.addLine (lineUnits line bad data) }
    if op = 0 then put pois s
    else if op = 3 ∨ op = 4 then s.parkFault cluster { p with buf := p.buf.unask line } (farFault op (256 * line))
    else put true (s.lostAnswer r die op 5)

/-- The acknowledgement written and the request over (11 R228; 12 R251); RANGE from a member freezes the sender. -/
def State.mcstAnswer (s : State) (r : Req) (die ret ack : Nat) (bytes : List Byte) (range : Bool) : State :=
  let s := if range then s.rangeFreeze r die else s
  (s.mcstDone r.gid ret ack bytes).dropReq r

/-- The request is a return crate or an end notice, which is never refused (12 R254). -/
def State.isReturn (s : State) (r : Req) : Bool :=
  match r.use with | .crate id => !(s.crates.any fun c => c.id == id) | _ => false

/-- NOMAP and NONRES have a request sent again by itself: a drain, an atomic without a return, whose group has gone on, and what no instruction stalls
for. A load, a tile, an atomic with a return and a WATCH are replayed at the instruction; for a crate they are causes of refusal (11 R206; 12 R249). -/
def ReqUse.resends : ReqUse → Bool
  | .load _ _ _ _ => false
  | .row _ _ _ => false
  | .crate _ => false
  | .atom _ _ _ _ nr => nr
  | .reduce _ _ _ nr => nr
  | .drain _ => true
  | .mcst _ _ _ _ => true
  | .sub _ _ _ _ => false
  | .unsub _ _ => true
  | .fill _ _ _ _ => true
  | .copyRead _ _ => true
  | .copyWrite _ _ => true
  | .parkRead _ _ _ => true

/-- A request is the index add of a QNT, which is sent again by itself, so that none is performed twice (05 R99; DEDUCED, log 111). -/
def State.indexAdd (s : State) (r : Req) : Bool :=
  match r.use with
  | .atom ret _ _ _ _ => (match (s.grp r.gid).ret? ret with | some q => q.kind == .qnt | none => false)
  | _ => false

/-- An answer to a request under way: kept and sent again, or over (12 R249). A return crate is sent until it is taken; RANGE freezes the sender of
any request. -/
def State.reqAnswer (s : State) (r : Req) (die op aux : Nat) (pois : Bool) (data : List Byte) : State :=
  if op ≠ 0 ∧ s.isReturn r then (if op = 6 then s.rangeFreeze r die else s).keepReq r
  else if (op = 1 ∨ op = 2) ∧ (r.use.resends || s.indexAdd r) then s.keepReq r
  else
    let s := s.dropReq r
    if r.gid ≠ 0 && !thas s.groups r.gid then (if op = 6 then s.rangeFreeze r die else s) else
    match r.use with
    | .load ret lanes z p => s.loadAnswer r die op pois data ret lanes z p
    | .row ret row tile => s.rowAnswer r die op pois data ret row tile
    | .atom ret lane n phys nr => s.atomAnswer r die op pois data ret lane n phys nr
    | .reduce ret lanes n nr => s.reduceAnswer r die op pois data ret lanes n nr
    | .drain ret => s.drainAnswer r die op ret false
    | .mcst _ _ _ _ => s
    | .sub ret lane slot pidx => s.subAnswer r die op aux data ret lane slot pidx
    | .unsub _ _ => s.unsubAnswer r die op
    | .fill tid win line lane => s.fillAnswer r die op pois data tid win line lane
    | .crate id => s.crateAnswer r die op id
    | .copyRead job line => s.copyReadAnswer r die op pois data job line
    | .copyWrite job n => s.copyWriteAnswer r die op job n
    | .parkRead cluster ret line => s.parkAnswer r die op pois data cluster ret line

/-- The request under way that an answer's tag names. -/
def State.reqOf (s : State) (tag : Nat) : Option Req := s.reqs.find? fun r => r.tag == tag && r.hold == .sent

/-- A RESP taken (12 R249): an answer to nothing under way is late, or refuses a push. -/
def State.respIn (s : State) (p : Packet) : State :=
  match s.reqOf p.tag with
  | some r => if r.use.isMcst then s else s.inward p r.die (s.reqAnswer r (dieOfPort p.port) p.op p.aux.toNat (bitOf p.flags 2) p.payload)
  | none => if p.tag = 0 ∧ p.op ≠ 0 then s.pushRefused p else s

/-- RESP (12 R249). -/
def execResp (p : Packet) (s : State) : Out := s.onPacket p (s.respIn { p with kind := 11 })

/-- A refusal's words in a MACK: member and reason (log 14). -/
def mackNeg (payload : List Byte) : List (Nat × Nat) :=
  (List.range 4).filterMap fun i => let w := fieldAt payload (8 + 4 * i) 4; if w = 0 then none else some (w % 2 ^ 19, w / 2 ^ 24)

/-- Every member on another module is counted in a MACK. -/
def mackWhole (ms : List Nat) (own : Option (Nat × Nat)) (payload : List Byte) : Bool :=
  decide (ms.length ≤ fieldAt payload 0 4 + fieldAt payload 4 4 + b2n own.isSome)

/-- The members whose answers a MACK does not hold: as many as it leaves uncounted, of those that it neither lists nor marks as answered; the marks stand
behind its words, a bit for each place in member order (log 14). -/
def mackSilent (ms : List Nat) (own : Option (Nat × Nat)) (payload : List Byte) : List Nat :=
  let told := (mackNeg payload).map (·.1) ++ (own.map (·.1)).toList
  let marks := leNat (payload.drop 24)
  ((ms.zipIdx.filter fun m => !told.contains m.1 && !bitOf marks m.2).map (·.1)).take
    (ms.length - (fieldAt payload 0 4 + fieldAt payload 4 4 + b2n own.isSome))

/-- The acknowledgement (11 Table 11.3) of what the switch has collected, with this module's own answer at its place and the members whose answers have
not come counted with reason 7, behind the refusals (12 R251; 21 R372; DEDUCED, log 128). -/
def mackBytes (ms : List Nat) (own : Option (Nat × Nat)) (payload : List Byte) : List Byte :=
  let mine := match own with | some (m, op) => if op = 0 then [] else [(m, op)] | none => []
  let out := mackSilent ms own payload
  let all := (ms.filterMap fun m => (mackNeg payload ++ mine).find? fun x => x.1 == m) ++ out.map fun m => (m, 7)
  let nneg := fieldAt payload 4 4 + mine.length + out.length
  record [(4, ms.length - nneg), (4, nneg)] ++
    ((List.range 4).flatMap fun i => match all[i]? with | some r => leBytes 4 (r.1 + 2 ^ 24 * r.2) | none => leBytes 4 0) ++
    record [(4, ms.length), (4, 0)]

/-- A multicast is over: its acknowledgement is written, and RANGE among the refusals freezes the sender (12 R251). -/
def State.mcstOver (s : State) (r : Req) (die ret ack : Nat) (ms : List Nat) (own : Option Nat) (payload : List Byte) : State :=
  s.mcstAnswer r die ret ack (mackBytes ms (own.map fun op => (s.nodeid.toNat, op)) payload) ((mackNeg payload).any fun x => x.2 == 6)

/-- A MACK taken (12 R251): one that counts every member ends the multicast, one that does not is kept for the timeout, one that arrives late is
discarded. -/
def State.mackIn (s : State) (p : Packet) : State :=
  match s.reqOf p.tag with
  | some r =>
    (match r.use with
     | .mcst ret ack ms own =>
       s.inward p r.die
         (if mackWhole ms (own.map fun op => (s.nodeid.toNat, op)) p.payload then s.mcstOver r (dieOfPort p.port) ret ack ms own p.payload
          else { s with reqs := s.reqs.map fun q => if q.tag = r.tag then { q with got := p.payload } else q })
     | _ => s)
  | none => s

/-- MACK (11 R229; 12 R251). -/
def execMack (p : Packet) (s : State) : Out := s.onPacket p (s.mackIn { p with kind := 12 })

/-! ### No answer (12 R249) -/

/-- FTMO_TIMEOUT (12 R249, R251): a request unanswered within FTMO is as one answered UNREACH; of a multicast, the members whose answers have not come. -/
def execFtmoTimeout (tag : Nat) (s : State) : Out :=
  match s.reqOf tag with
  | none => .next s
  | some r =>
    .next (if s.now < r.sentAt + r.ftmo * usTicks then s
           else
             match r.use with
             | .mcst ret ack ms own => s.mcstOver r r.die ret ack ms own r.got
             | _ => s.reqAnswer r r.die 7 0 false [])

/-- REMOTE_RETRY (12 R249): a request answered NOMAP or NONRES is sent again after 4 µs. -/
def execRemoteRetry (tag : Nat) (s : State) : Out :=
  match s.reqs.find? fun r => r.tag == tag && r.hold == .retry with
  | none => .next s
  | some r => .next (if s.now < r.sentAt + 4 * usTicks then s else s.resend tag)

/-! ### Crates from another module (12 R254; 15 R301, R302) -/

/-- A crate that arrives comes as far as where its address lies, or to its home where it returns; `since` counts a stall on MOVING. Otherwise its
answer: 6 for a key, a range or USER refused, cause 1 for an address that names no frame of this module's device memory (12 R244, R254; 15 R302). -/
def State.crateIn (s : State) (p : Packet) (since : Nat) : Except (Option (Nat × Bool)) Crate :=
  let h := crateHead p.payload
  let die := dieOfPort p.port
  if s.nodeid = 0x7FFFF then .error (some (7, false))
  else
    match s.keyCtx p.ckey with
    | none => .error (some (6, false))
    | some ctx =>
      let c : Crate := { id := s.nextId, bytes := p.payload, req := some p, ctx := ctx, sentAt := s.now, ret := bitOf h.flags 0 || bitOf h.flags 1,
                         endNotice := bitOf h.flags 1, toCellar := bitOf h.flags 3, srcDie := die }
      if c.ret then .ok c
      else if !(s.ctx ctx).permitsByte (h.addr % 2 ^ 45) then .error (some (6, false))
      else
        match s.xlateSince die ctx h.addr .read true since with
        | .ok (.dev pa pol) _ => if s.cutTo die (.dev pa pol) then .error none else .ok { c with die := dieOfPa pa, stack := stackOf pa }
        | .ok _ _ => .error (some (1, false))
        | .prot u => .error (some (if u then 6 else 1, false))
        | .replay _ _ => .error (some (1, false))
        | .moving _ => .error (some (1, true))

/-- A crate taken in, refused, or kept while it stalls: what it came to, as for `serveAnswer`. -/
def State.crateTake (s : State) (p : Packet) (since : Nat) : Option Bool × State :=
  match s.crateIn p since with
  | .ok c => (none, { s with crates := s.crates ++ [c], nextId := s.nextId + 1 })
  | .error none => (some false, s)
  | .error (some (_, true)) => (some true, s)
  | .error (some (op, false)) => (none, s.answer p 11 op 0 [])

/-- CRATE (12 R254): offered to a place by CRATE_ARRIVAL, RETURN_CRATE_ARRIVAL or END_NOTICE_ARRIVAL. -/
def execCrate (p : Packet) (s : State) : Out :=
  let p := { p with kind := 10 }
  s.onPacket p (match s.crateTake p s.now with | (none, s) => s | (some m, s) => s.hold p m)

/-! ### Packets that wait (12 R248; 16 R315; 17 R344) -/

/-- A packet that waited is tried again. -/
def State.retryPacket (s : State) (p : Packet) (since : Nat) : Option Bool × State :=
  let n := s.inbox.length
  let tried (s : State) : Option Bool × State := if n < s.inbox.length then (some false, { s with inbox := s.inbox.take n }) else (none, s)
  if p.kind = 8 then tried (s.pushIn p)
  else if p.kind = 9 then tried (s.pushendIn p)
  else if p.kind = 11 then tried (s.respIn p)
  else if p.kind = 12 then tried (s.mackIn p)
  else if p.kind = 10 then s.crateTake p since
  else s.serveAnswer p since

/-- WALK_MOVING_RECHECK (16 R315): a packet that waits is tried again, unless another of its flow and line stands before it. -/
def execWalkMovingRecheck (i : Nat) (s : State) : Out :=
  match s.inbox[i]? with
  | none => .next s
  | some (p, since) =>
    .next (if (s.inbox.take i).any fun q => p.behind q.1 then s
           else
             match s.retryPacket p (since.getD s.now) with
             | (none, s) => { s with inbox := s.inbox.eraseIdx i }
             | (some m, s) => { s with inbox := s.inbox.set i (p, if m then some (since.getD s.now) else none) })

end Sys2Proof.Machine
end

