-- ==== Sys2Proof/Machine/Digest.lean ====
section
/-! DEFINITION. SHA-512 and RSASSA-PSS over RSA-4096 (19 R362, R363): the algorithms that the spec names and other standards define (PRESUMED, log 6). -/
namespace Sys2Proof.Machine

/-! ### Big-endian numbers -/

/-- The number whose big-endian bytes these are. -/
def beNat (bs : List Byte) : Nat := bs.foldl (fun n b => 256 * n + b.toNat) 0
/-- A number as n big-endian bytes. -/
def beBytes (n v : Nat) : List Byte := (leBytes n v).reverse

/-! ### SHA-512 (FIPS 180-4) -/

/-- The primes up to 409: eighty of them. -/
def shaPrimes : List Nat := (List.range 410).filter fun n => decide (2 ≤ n) && ((List.range n).drop 2).all fun d => n % d != 0

/-- The largest r below 2^k with r^e ≤ n. -/
def rootBelow (e n : Nat) : Nat → Nat
  | 0 => 0
  | k + 1 => let r := 2 * rootBelow e (n / 2 ^ e) k; if (r + 1) ^ e ≤ n then r + 1 else r

/-- The first 64 bits of the fraction of a square root. -/
def sqrtBits (p : Nat) : Dword := BitVec.ofNat 64 (rootBelow 2 (p * 2 ^ 128) 80)
/-- The first 64 bits of the fraction of a cube root. -/
def cbrtBits (p : Nat) : Dword := BitVec.ofNat 64 (rootBelow 3 (p * 2 ^ 192) 80)

/-- A message padded to whole blocks: a one bit, zeros, its length in bits in sixteen bytes. -/
def shaPad (m : List Byte) : List Byte := m ++ 0x80 :: (List.replicate ((239 - m.length % 128) % 128) 0 ++ beBytes 16 (8 * m.length))

/-- The next word of a block's schedule, whose last sixteen words, newest first, are given. -/
def shaNext (w : List Dword) : Dword :=
  let x := w.getD 14 0
  let y := w.getD 1 0
  (y.rotateRight 19 ^^^ y.rotateRight 61 ^^^ y >>> 6) + w.getD 6 0 + (x.rotateRight 1 ^^^ x.rotateRight 8 ^^^ x >>> 7) + w.getD 15 0

/-- The eight working variables. -/
structure ShaVars where
  a : Dword
  b : Dword
  c : Dword
  d : Dword
  e : Dword
  f : Dword
  g : Dword
  h : Dword
  deriving DecidableEq, Repr

/-- One round with its constant and its schedule word. -/
def ShaVars.round (v : ShaVars) (k w : Dword) : ShaVars :=
  let t1 := v.h + (v.e.rotateRight 14 ^^^ v.e.rotateRight 18 ^^^ v.e.rotateRight 41) + ((v.e &&& v.f) ^^^ (~~~v.e &&& v.g)) + k + w
  let t2 := (v.a.rotateRight 28 ^^^ v.a.rotateRight 34 ^^^ v.a.rotateRight 39) + ((v.a &&& v.b) ^^^ (v.a &&& v.c) ^^^ (v.b &&& v.c))
  { a := t1 + t2, b := v.a, c := v.b, d := v.c, e := v.d + t1, f := v.e, g := v.f, h := v.g }

/-- The rounds of a block: the constants left, and the schedule's last sixteen words, newest first, the block's own first. -/
def shaRounds : List Dword → List Dword → List Dword → ShaVars → ShaVars
  | [], _, _, v => v
  | k :: ks, b :: bs, w, v => shaRounds ks bs (b :: w) (v.round k b)
  | k :: ks, [], w, v => let x := shaNext w; shaRounds ks [] (x :: w.take 15) (v.round k x)

/-- One block. -/
def ShaVars.block (v : ShaVars) (bs : List Byte) : ShaVars :=
  let ws := (List.range 16).map fun i => BitVec.ofNat 64 (beNat (sliceAt bs (8 * i) 8))
  let u := shaRounds (shaPrimes.map cbrtBits) ws [] v
  { a := v.a + u.a, b := v.b + u.b, c := v.c + u.c, d := v.d + u.d, e := v.e + u.e, f := v.f + u.f, g := v.g + u.g, h := v.h + u.h }

/-- The variables at the start. -/
def shaStart : ShaVars :=
  let h := (shaPrimes.take 8).map sqrtBits
  { a := h.getD 0 0, b := h.getD 1 0, c := h.getD 2 0, d := h.getD 3 0, e := h.getD 4 0, f := h.getD 5 0, g := h.getD 6 0, h := h.getD 7 0 }

/-- The 64 bytes of a digest. -/
def ShaVars.bytes (v : ShaVars) : List Byte := [v.a, v.b, v.c, v.d, v.e, v.f, v.g, v.h].flatMap fun w => beBytes 8 w.toNat

/-- SHA-512 of a byte string. -/
def sha512 (m : List Byte) : List Byte :=
  let p := shaPad m
  ((List.range (p.length / 128)).foldl (fun v i => v.block (sliceAt p (128 * i) 128)) shaStart).bytes

/-! ### RSASSA-PSS with SHA-512 and a salt of 64 bytes (RFC 8017) -/

/-- b^e modulo m, by the low k bits of e. -/
def powMod (m : Nat) : Nat → Nat → Nat → Nat
  | 0, _, _ => 1 % m
  | k + 1, b, e => let r := powMod m k (b * b % m) (e / 2); if e % 2 = 1 then r * b % m else r

/-- MGF1 with SHA-512: n bytes of mask. -/
def mgf1 (seed : List Byte) (n : Nat) : List Byte := ((List.range ((n + 63) / 64)).flatMap fun i => sha512 (seed ++ beBytes 4 i)).take n

/-- Bytes under a mask. -/
def xorBytes (a b : List Byte) : List Byte := (a.zip b).map fun p => p.1 ^^^ p.2

/-- The bytes that a digest and a salt are hashed as. -/
def pssHash (digest salt : List Byte) : List Byte := sha512 (List.replicate 8 0 ++ digest ++ salt)

/-- The leading bit of 4,096 cleared. -/
def clearTop (bs : List Byte) : List Byte := match bs with | b :: r => (b &&& 0x7F) :: r | [] => []

/-- The 512 bytes that a digest is encoded in with a salt. -/
def pssEncode (digest salt : List Byte) : List Byte :=
  let h := pssHash digest salt
  let db := List.replicate 382 0 ++ (1 :: salt)
  clearTop (xorBytes db (mgf1 h 447)) ++ h ++ [0xBC]

/-- Whether encoded bytes are those of a digest. -/
def pssHolds (digest em : List Byte) : Bool :=
  let h := sliceAt em 447 64
  let db := clearTop (xorBytes (em.take 447) (mgf1 h 447))
  em.length == 512 && em.getLast? == some 0xBC && decide ((em.headD 0).toNat < 128) && db.take 382 == List.replicate 382 0 && db.getD 382 0 == 1 &&
    pssHash digest (db.drop 383) == h

/-- A signature of a digest holds under a public key: 512 bytes of modulus, then the exponent, big-endian (log 6). -/
def pssVerify (key digest sig : List Byte) : Bool :=
  let n := beNat (key.take 512)
  sig.length == 512 && decide (beNat sig < n) && pssHolds digest (beBytes 512 (powMod n 4096 (beNat sig) (beNat (key.drop 512))))

/-- The signature of a message under the device key, with a salt (19 R363). -/
def deviceSign (msg salt : List Byte) : List Byte :=
  beBytes 512 (powMod Config.deviceModulus 4096 (beNat (pssEncode (sha512 msg) salt)) Config.deviceExponent)

end Sys2Proof.Machine
end

