-- ==== Sys2Proof/Machine/Links.lean ====
section
/-! DEFINITION. Links: flits and their tags, keys, ports going down, retraining and lane sparing (12 R242, R245; 16 R329, R330; 17 R344). -/
namespace Sys2Proof.Machine

/-- Hardware event 7 of a port (17 Table 17.6). -/
def State.portEvent (s : State) (p : Nat) : State := s.postHw (dieOfPort p) 7 (gatewayWho (dieOfPort p)) p

/-- A port goes down: its routes move to live entries (12 R245), and an event is posted (16 R329). -/
def State.portDown (s : State) (p : Nat) : State :=
  if (s.port p).up then (s.setP p fun k => { k with up := false, fails := 0 }).portEvent p else s

/-- The pending key of a direction takes effect, and the counter restarts at 0 (16 R330). -/
def Port.switch (k : Port) (inward : Bool) : Port :=
  if inward then
    match k.pendIn with
    | some (key, sw) => if k.cntIn = sw then { k with keyIn := key, pendIn := none, cntIn := 0 } else k
    | none => k
  else
    match k.pendOut with
    | some (key, sw) => if k.cntOut = sw then { k with keyOut := key, pendOut := none, cntOut := 0 } else k
    | none => k

/-- KEY_SWITCH (16 R330). -/
def execKeySwitch (port : Nat) (inward : Bool) (s : State) : Out := unitStep s (decide (port < 32)) (s.setP port fun k => k.switch inward)

/-- FLIT_RECEIVE (16 R329): a flit whose tag holds raises the counter, after a key that switches at it; one whose tag fails is replayed, and a
third failure in succession takes the port down. -/
def execFlitReceive (port : Nat) (ok : Bool) (s : State) : Out :=
  unitStep s (decide (port < 32))
    (if !(s.port port).up then s
     else
       let s := s.setP port fun k => k.switch true
       if ok then s.setP port fun k => { k with cntIn := k.cntIn + 1, fails := 0 }
       else
         let s := (s.tally 9).tally 10
         if 3 ≤ (s.port port).fails + 1 then s.portDown port else s.setP port fun k => { k with fails := k.fails + 1 })

/-- NONCE_EXHAUSTED (16 R330): a counter at 2^48 without a pending key takes the port down rather than reuse a nonce. -/
def execNonceExhausted (port : Nat) (inward : Bool) (s : State) : Out :=
  unitStep s (decide (port < 32))
    (let k := s.port port
     if decide (2 ^ 48 ≤ (if inward then k.cntIn else k.cntOut)) && (if inward then k.pendIn else k.pendOut).isNone then s.portDown port else s)

/-- The link exists: 32 ports, 28 die pairs, the host link (01 R11, R18, R23). -/
def linkExists : Link → Bool
  | .port p => decide (p < 32)
  | .ucie d => decide (d < 28)
  | .cxl => true

/-- LINK_DOWN (12 R245; 17 R344): a port goes down; traffic of another link waits until it is retrained. -/
def execLinkDown (l : Link) (s : State) : Out :=
  unitStep s (linkExists l)
    (match l with
     | .port p => s.portDown p
     | .ucie d => if s.down.contains l then s else State.tally { s with down := s.down ++ [.ucie d] } 8
     | .cxl => if s.down.contains l then s else { s with down := s.down ++ [.cxl] })

/-- LINK_LANE_SPARED (17 R344): hardware event 6. The host link has no spare lanes. -/
def execLinkLaneSpared (l : Link) (s : State) : Out :=
  match l with
  | .port p =>
    unitStep s (decide (p < 32)) ((s.setP p fun k => { k with spared := k.spared + 1 }).postHw (dieOfPort p) 6 (gatewayWho (dieOfPort p)) p)
  | .ucie d =>
    let die := ((List.range 8).find? fun a => (List.range 8).any fun b => decide (a < b) && diePair a b == d).getD 0
    unitStep s (decide (d < 28)) (s.postHw die 6 (65536 * die) (d + 256))
  | .cxl => .next s

end Sys2Proof.Machine
end

