-- ==== Sys2Proof/Machine/Swap.lean ====
section
/-! DEFINITION. Swapping and pre-emption: who is eligible, the save, the restore, cancelled copies (13 R267 to R269; 15 R308; 17 R340 to R342). -/
namespace Sys2Proof.Machine

/-! ### Eligibility (13 R267) -/

/-- A fibre blocked at BARG, WAITW, SWWAIT, NWAIT, BWAIT, an NCALL at its stack's limit, or at a destination of an issued WAITW. -/
def Group.longWait (g : Group) (f : Fibre) : Bool :=
  match f.wait with
  | .barg => true
  | .swwait _ _ => true
  | .nwait _ => true
  | .bwait _ => true
  | .ncall _ => true
  | .scoreboard rs => rs.any fun r => g.returns.any fun q => q.kind == .waitw && q.regs.contains r
  | _ => false

/-- A fibre blocked at BAR or WAITB. -/
def Fibre.barWait (f : Fibre) : Bool := match f.wait with | .barrier _ => true | .waitb _ => true | _ => false

/-- 50 µs. -/
def swapLimit : Nat := 50 * usTicks

/-- A group has been blocked, or replayable, for 50 µs. -/
def State.groupBlocked (s : State) (gid : Nat) : Bool :=
  let g := s.grp gid
  g.liveLanes.all fun l =>
    let f := g.fib l
    decide (f.waitSince + swapLimit ≤ s.now) && (g.hold == some .replay || ((g.longWait f || f.barWait) && !s.waitOver gid l))

/-- A group stands at one of the waits that make its team eligible. -/
def State.groupWaits (s : State) (gid : Nat) : Bool :=
  let g := s.grp gid
  g.hold.isNone && g.liveLanes.any fun l => g.longWait (g.fib l)

/-- A team may be chosen for a save: resident, its context running, no save under way. -/
def State.savable (s : State) (t : Team) : Bool := t.phase == .resident && t.saving.isNone && !t.noRoom && (s.ctx t.ctx).phase == .active

/-- A team is swap-eligible (13 R267; 15 R308): a group with an away fibre is never blocked. -/
def State.swappable (s : State) (t : Team) : Bool :=
  s.savable t && (t.groups.all fun g => !(s.grp g).anyAway && s.groupBlocked g) && t.groups.any s.groupWaits

/-- When a team became blocked: the latest of its fibres' waits; now for one that is not blocked. -/
def State.blockedAt (s : State) (t : Team) : Nat :=
  (t.groups.flatMap fun g => (s.grp g).liveLanes.map fun l =>
    let f := (s.grp g).fib l
    if f.wait = .none && (s.grp g).hold.isNone then s.now else f.waitSince).foldl max 0

/-- The order in which victims are taken: highest class, longest blocked, highest index (13 R267). -/
def State.before (s : State) (a b : Nat × Team) : Bool :=
  let x := s.blockedAt a.2
  let y := s.blockedAt b.2
  decide (b.2.cls < a.2.cls ∨ (a.2.cls = b.2.cls ∧ (x < y ∨ (x = y ∧ (b.2.index < a.2.index ∨ (a.2.index = b.2.index ∧ a.1 < b.1))))))

/-- The first victim of a list. -/
def State.victim (s : State) : List (Nat × Team) → Option Nat
  | [] => none
  | a :: l => if l.all fun b => s.before a b then some a.1 else s.victim l

/-- Non-resident teams that fit nowhere. -/
def State.stuckOut (s : State) : List Cand := s.candidates.filter fun c => !s.candFitsSome c

/-- The team that is swapped out next (13 R267). -/
def State.swapVictim (s : State) : Option Nat :=
  let out := s.stuckOut
  s.victim (s.teams.filter fun e => s.swappable e.2 && out.any fun c => decide (c.cls ≤ e.2.cls))

/-- The team that is pre-empted next: the class that waits has fitted nowhere for 100 µs (13 R269). -/
def State.preemptVictim (s : State) : Option Nat :=
  let out := s.stuckOut.filter fun c => match c.noFit with | some t => decide (t + 100 * usTicks ≤ s.now) | none => false
  s.victim (s.teams.filter fun e => s.savable e.2 && out.any fun c => decide (c.cls < e.2.cls))

/-! ### The save (13 R269; 17 R340, R341) -/

/-- A save begins: the team's runs end, and it issues nothing more. -/
def State.beginSave (s : State) (tid : Nat) (swap : Bool) : State :=
  let t := s.team tid
  let s := ((s.core t.core).slots.filter fun e => t.groups.contains e.2.gid).foldl (fun s e => s.endSlot t.core e.1) s
  s.setT tid fun t => { t with saving := some (s.now, swap), ordered := false }

/-- A guest's fibres go home, PC by PC (15 R308). -/
def State.recallGuest (s : State) (gid : Nat) : State :=
  (distinct ((s.grp gid).liveLanes.map fun l => ((s.grp gid).fib l).pc.toNat)).foldl (fun s pc =>
    s.sendHome gid (maskOf ((s.grp gid).liveLanes.filter fun l => ((s.grp gid).fib l).pc.toNat == pc)) pc) s

/-- The away fibres of a team are recalled (15 R308). -/
def State.recall (s : State) (tid : Nat) : State :=
  let homes := (s.team tid).groups
  ((s.groups.filter fun e => match e.2.guest with | some i => i.homeGid != 0 && homes.contains i.homeGid | none => false).map (·.1)).foldl
    State.recallGuest s

/-- A copy uses its team's larder. -/
def CopyJob.usesLarder (j : CopyJob) : Bool := j.srcEnd.space == 1 || j.dstEnd.space == 1

/-- Copies of a team that an engine has started and that use its larder. -/
def State.larderJobs (s : State) (tid : Nat) : List (Nat × CopyJob) :=
  s.engines.filterMap fun e => match e.2.job with | some j => if j.tid = tid && j.usesLarder then some (e.1, j) else none | none => none

/-- Returns of a group that must land before its image is written: all but waiting WAITWs and copies, and a context's own array operations. -/
def Group.unresolved (g : Group) : Bool :=
  g.returns.any fun r => !(r.kind == .waitw || r.kind == .copy || (g.kind == .sequencer && r.kind == .matrix))

/-- Something of a team is still to be resolved before its save (13 R269; 17 R340). -/
def State.saveWaits (s : State) (tid : Nat) : Bool :=
  let t := s.team tid
  (t.groups.any fun g => (s.grp g).anyAway || !(s.agentOps g).isEmpty || (s.grp g).unresolved) || (t.seqGid != 0 && (s.grp t.seqGid).unresolved) ||
    !(s.larderJobs tid).isEmpty || ((s.cluster (clusterOfCore t.core)).parks.any fun p => p.tid == tid && p.lar) ||
    s.reqs.any fun r => match r.use with | .fill k _ _ _ => k == tid | _ => false

/-- Landed bytes are counted (09 R167). -/
def State.countArrivals (s : State) (tid : Nat) : State :=
  ((s.team tid).arrivals.foldl (fun s a => s.ownCount tid a.2.1 a.2.2) s).setT tid fun t => { t with arrivals := [] }

/-- The address of the first window line still to be written back. -/
def State.dirtyVa (s : State) (tid : Nat) : Nat :=
  (firstSome (fun k =>
    let w := tget {} (s.team tid).lmap k
    w.dirty.head?.map fun o => w.lineAddr (o / 256)) [0, 1, 2, 3]).getD 0

/-- The windows written back and their lines made invalid (09 R166); a page that is not there, or is held by MOVING for 100 µs from the first stall at
it (16 R315), leaves a group replayable until it is serviced, with one record. -/
def State.saveWindows (s : State) (tid : Nat) : Bool × State :=
  let t := s.team tid
  let gid := t.groups.headD 0
  let pc := ((s.grp gid).fib ((s.grp gid).liveLanes.headD 0)).pc
  let u := { s with cur := { gid := gid, mask := 1, pc := pc, npc := pc } }
  let fault (s : State) (a r l : Nat) : Bool × State :=
    let s : State := { s with cur := {} }
    (false, if (s.grp gid).hold.isSome then s else s.makeReplayable gid pc.toNat a r l)
  match u.windowsBack (fun _ => true) [0, 1, 2, 3] with
  | (s, none) => (true, State.setT { s with cur := {} } tid fun t => { t with lmap := t.lmap.map fun e => (e.1, { e.2 with valid := [] }) })
  | (s, some (.replay a r l)) => fault s a r l
  | (s, some (.block (.moving p))) =>
    let since := match t.stall with | some (q, n) => if q = p then n else s.now | none => s.now
    let s := s.setT tid fun t => { t with stall := some (p, since) }
    match s.xlateSince s.g.die t.ctx (65536 * p) .write true since (some t.core) with
    | .replay r l => fault s (s.dirtyVa tid) r l
    | _ => (false, { s with cur := {} })
  | (s, some _) => (false, { s with cur := {} })

/-- What the team has stored is performed at its homes: the bool says that nothing is left (17 R340). -/
def State.saveFlush (s : State) (tid : Nat) : Bool × State :=
  let t := s.team tid
  let core := t.core
  let (ok, s) := t.groups.foldl (fun (p : Bool × State) g => let (d, u) := p.2.drainAll g; (p.1 && d, u)) (true, s)
  if !ok then (false, s)
  else
    match s.saveWindows tid with
    | (false, s) => (false, s)
    | (true, s) =>
      let s := (s.l1BackAll core).wcDrain core fun _ => true
      (!s.coreWaits core && !(s.l1Dirty core fun _ b => b.ctx == t.ctx), s)

/-- The lowest free run of a context's swap area that holds n bytes (17 R341). -/
def Ctx.swapRun (c : Ctx) (n : Nat) : Option Nat :=
  let free (o : Nat) : Bool := decide (o + n ≤ c.fld 0x10 8) && c.swap.all fun r => !overlaps o n r.1 r.2
  minOf ((0 :: c.swap.map fun r => r.1 + r.2).filter free)

/-- A queued copy as it is saved. -/
def CopyJob.saved (j : CopyJob) : List Byte × Nat × Nat × Nat × Nat × List Byte := (j.pkt, j.batch, j.gid, j.queue, j.slot, j.shape)

/-- What stands outside the team moves into it: its context's operations, oldest first, and the one that stands between sum units (07 R150), its
waiting SDRNs, its copies not started, the poison of its bins. -/
def State.gather (s : State) (tid : Nat) : State :=
  let t := s.team tid
  let cl := clusterOfCore t.core
  let c := s.cluster cl
  let mine (o : MatOp) : Bool := t.seqGid != 0 && o.gid == t.seqGid
  let ops := c.ops.filter mine
  let ds := c.drains.filter fun d => t.groups.contains d.gid
  let js := s.jobs.filter fun j => j.tid == tid && j.usesLarder
  let bad := (c.binPoison.filter fun w => decide (4096 * t.binBase ≤ w ∧ w < 4096 * (t.binBase + t.binQuota))).map (· - 4096 * t.binBase)
  let s := { s with jobs := s.jobs.filter fun j => !(j.tid == tid && j.usesLarder) }
  let s := s.setCl cl fun c =>
    { c with running := c.running.filter fun o => !mine o, ops := c.ops.filter fun o => !mine o, drains := c.drains.filter fun d => !t.groups.contains d.gid }
  s.setT tid fun t => { t with savedOps := ops, savedRun := c.running.filter mine, savedDrains := ds.map fun d => (d.gid, d.ret, d.tag, d.off, d.sync), savedBinPoison := bad,
                               savedCopies := t.savedCopies ++ js.map CopyJob.saved }

/-- Where a team that is out stands: on no core. -/
def nowhere : Nat := 2 ^ 20

/-- The team leaves its core once its image is written (13 R263, R267). -/
def State.leaveCore (s : State) (tid at_ size : Nat) : State :=
  let t := s.team tid
  let cl := clusterOfCore t.core
  let (k, s) := s.newId
  let s := t.groups.foldl (fun s g => s.setG g fun g => { g with v := [], sregs := [], tiles := [], place := nowhere, slot := 0 }) s
  let s := if t.seqGid = 0 then s else s.setG t.seqGid fun g => { g with sregs := [], place := nowhere, slot := 0 }
  let s := s.setCl cl fun c => c.binZero t.binBase t.binQuota
  let s := s.setX t.ctx fun c => { c with swap := c.swap ++ [(at_ - c.fld 8 8, size)] }
  s.setT tid fun t =>
    { t with phase := .swapped, image := at_, imageSize := size, noFit := none, stall := none, queuedAt := k, saving := none, larder := [], z := [] }

/-- A saved copy queued again. -/
def State.requeue (s : State) (tid : Nat) (k : List Byte × Nat × Nat × Nat × Nat × List Byte) : State :=
  let (n, s) := s.newId
  let j : CopyJob := { id := n, queue := k.2.2.2.1, slot := k.2.2.2.2.1, ctx := (s.team tid).ctx, pkt := k.1, gid := k.2.2.1, batch := k.2.1, tid := tid,
                       shape := k.2.2.2.2.2 }
  { s with jobs := s.jobs ++ [j] }

/-- The image is written and the team leaves; one that the swap area cannot hold stays, and its copies are queued again (13 R268; 17 R341). -/
def State.saveImage (s : State) (tid : Nat) : State :=
  let kept := (s.team tid).savedCopies
  let u := s.gather tid
  let t := u.team tid
  let y := u.layout tid
  let size := ceilTo 65536 y.size
  match (s.ctx t.ctx).swapRun size with
  | none =>
    let s := (s.postEvent (dieOfCore t.core) t.ctx 0 0x8002 (leBytes 8 t.index ++ leBytes 8 y.size)).setT tid fun t =>
      { t with saving := none, stall := none, noRoom := true, savedCopies := [] }
    (kept.foldl (fun s k => s.requeue tid k) s)
  | some o =>
    let at_ := (u.ctx t.ctx).fld 8 8 + o
    ((u.imagePieces tid).foldl (fun s p => s.homeStore (at_ + p.1) p.2) u).leaveCore tid at_ size

/-- The link between a core's die and the swap area of a context is down (01 R11; 17 R344). -/
def State.swapCut (s : State) (core ctx : Nat) : Bool := s.cut (dieOfCore core) (dieOfPa ((s.ctx ctx).fld 8 8))

/-- One step of a save under way; the image waits for a link that is down. -/
def State.saveStep (s : State) (tid : Nat) : State :=
  let s := s.recall tid
  if s.saveWaits tid || s.swapCut (s.team tid).core (s.team tid).ctx then s
  else
    match (s.countArrivals tid).saveFlush tid with
    | (false, s) => s
    | (true, s) => s.saveImage tid

/-- A save under way stands still while its context is frozen, unless it is PREEMPT's (16 R325). -/
def State.saveFrozen (s : State) (tid : Nat) : Bool := (s.ctx (s.team tid).ctx).phase == .frozen && !(s.team tid).ordered

/-- SWAP_OUT (13 R267, R268): the next victim's save, step by step. -/
def execSwapOut (tid : Nat) (s : State) : Out :=
  unitStep s (thas s.teams tid)
    (match (s.team tid).saving with
     | some (_, true) => if s.saveFrozen tid then s else s.saveStep tid
     | some (_, false) => s
     | none => if s.swapVictim = some tid then (s.beginSave tid true).saveStep tid else s)

/-- PRE_EMPTION (13 R269). -/
def execPreEmption (tid : Nat) (s : State) : Out :=
  unitStep s (thas s.teams tid)
    (match (s.team tid).saving with
     | some (_, true) => s
     | some (_, false) => if s.saveFrozen tid then s else s.saveStep tid
     | none => if s.preemptVictim = some tid then (s.beginSave tid false).saveStep tid else s)

/-! ### Cancelled copies (13 R269) -/

/-- Bytes already counted are taken from a sync word's count. -/
def Team.uncount (t : Team) (w n : Nat) : Team := t.lwrite (w + 4) (leBytes 4 (leNat (t.lread (w + 4) 4) + 2 ^ 32 - n % 2 ^ 32))

/-- A copy is cancelled whole, to be queued again with its team. -/
def State.cancelCopy (s : State) (e : Nat) (j : CopyJob) : State :=
  let s := s.engFree e
  s.setT j.tid fun t =>
    let t := if j.f 6 2 = 0xFFFF ∨ j.counted = 0 then t else t.uncount (16 * j.f 6 2) j.counted
    { t with arrivals := t.arrivals.filter fun a => a.1 != j.id, savedCopies := t.savedCopies ++ [j.saved] }

/-- COPY_CANCEL (13 R269): a copy into the larder of a team being saved that is still under way after 200 µs. Of a frozen context PREEMPT alone saves
teams (16 R325), and its bound runs on (DEDUCED, log 112). -/
def execCopyCancel (engine : Nat) (s : State) : Out :=
  unitStep s (decide (engine < 32))
    (match (s.engine engine).job with
     | none => s
     | some j =>
       match (s.team j.tid).saving with
       | some (t, _) =>
         if j.dstEnd.space == 1 && decide (t + 200 * usTicks ≤ s.now) && !s.saveFrozen j.tid then s.cancelCopy engine j else s
       | none => s)

/-! ### The restore (13 R268; 17 R341, R342) -/

/-- An image with an error that ends its team: a record of CODE POISON and PC zero (17 R342). -/
def State.spoilTeam (s : State) (tid core : Nat) : State :=
  let t := s.team tid
  (s.setT tid fun t => { t with spoiled := true }).postHeld
    { die := dieOfCore core, gid := t.groups.headD 0, bytes := faultBytes 2 tPOISON t.ctx false (core + 65536 * dieOfCore core) 0 t.image 0 }

/-- A timer that did not run during a freeze (16 R325). -/
def unfrozen (at_ now t : Nat) : Nat := t + (now - max t at_)

/-- The waits of a group go on where the freeze found them (16 R325, R327). -/
def Group.resumed (g : Group) (at_ now : Nat) : Group :=
  { g with fibres := g.fibres.map fun e => (e.1, { e.2 with waitSince := unfrozen at_ now e.2.waitSince }), readySince := unfrozen at_ now g.readySince }

/-- The waits of a group begin anew (13 R268). -/
def Group.rewait (g : Group) (now : Nat) : Group :=
  { g with fibres := g.fibres.map fun e => (e.1, { e.2 with waitSince := now }), readySince := now }

/-- A team's run of the swap area is free again (17 R341). -/
def State.freeImage (s : State) (tid : Nat) : State :=
  let t := s.team tid
  let s := s.setX t.ctx fun c => { c with swap := c.swap.filter fun r => !(r.1 + c.fld 8 8 == t.image) }
  { s with teams := s.teams.map fun e => if e.2.ctx = t.ctx then (e.1, { e.2 with noRoom := false }) else e }

/-- A team's image brought back on a core. -/
def State.restoreTeam (s : State) (tid core : Nat) : State :=
  let t := s.team tid
  let y := s.layout tid
  let cl := clusterOfCore core
  let slots := s.freeSlots core
  let gs := (t.groups.zipIdx).map fun p => (p.1, { ((s.imgGroup tid y p.2 (s.grp p.1)).rewait s.now) with place := core, slot := slots.getD p.2 0 })
  let seq := if t.seqGid = 0 then [] else
    [(t.seqGid, { ((s.imgContext tid y (s.grp t.seqGid)).rewait s.now) with place := cl, slot := s.freeContext cl })]
  let u := { s.imgTeam tid y with phase := .resident, core := core, image := 0, imageSize := 0, savedOps := [], savedRun := none, savedDrains := [],
                                  savedBinPoison := [], savedCopies := [], noFit := none }
  let run := t.savedRun.map (s.imgRun tid y)
  let bins := (List.range t.binQuota).map fun i => (t.binBase + i, s.homeRead (t.image + y.bins + 32768 * i) 32768)
  let s := s.freeImage tid
  let s := { s with groups := tputs s.groups (gs ++ seq), teams := tput s.teams tid u }
  let s := s.setCl cl fun c =>
    let c := bins.foldl (fun c b => c.binWrite b.1 0 b.2) c
    { c with binPoison := c.binPoison ++ t.savedBinPoison.map (· + 4096 * t.binBase),
             ops := c.ops ++ run.toList ++ t.savedOps.map fun q => { q with pinned := q.pinned || (run.isSome && q.tile?.isSome) },
             drains := c.drains ++ t.savedDrains.map fun d => { gid := d.1, ret := d.2.1, tag := d.2.2.1, off := d.2.2.2.1, sync := d.2.2.2.2 } }
  (t.savedCopies.foldl (fun s k => s.requeue tid k) s).l1Acquire core

/-- SWAP_IN (13 R263, R268): the next non-resident team, where it is one that is out and fits the core. -/
def execSwapIn (core : Nat) (s : State) : Out :=
  unitStep s (decide (core < 1024))
    (match s.nextFor core s.candidates with
     | some c =>
       if c.tid = 0 || s.swapCut core (s.team c.tid).ctx then s
       else if s.imgSpoiled c.tid (s.layout c.tid) then s.spoilTeam c.tid core
       else s.restoreTeam c.tid core
     | none => s)

end Sys2Proof.Machine
end

