-- ==== Sys2Proof/Machine/Priv.lean ====
section
/-! DEFINITION. Privileged commands (09 R168, R174, R177; 12 R246, R250; 13 R269; 14 R279; 16 R309, R310, R318, R320, R327, R328, R330; 17 R338,
R339, R347, R348). -/
namespace Sys2Proof.Machine

/-! ### Commands on their queues (16 R328) -/

/-- The status word: the result and the operand's offset (16 R328). -/
def State.status (s : State) (addr result off : Nat) : State := if addr = 0 then s else s.homeSet addr 8 (result + 256 * off)

/-- How a command comes out: done, failed with a result and an operand's offset, or not yet complete. -/
inductive Cmd where
  | done (s : State)
  | fail (result off : Nat)
  | more (s : State)

/-- A command taken (13 R258, R259; 16 R328): a nonzero reserved field or unused operand byte refuses the packet; a STATUS that cannot be written
fails without a word. A command that is not complete holds its queue. -/
def State.command (s : State) (q kind : Nat) (unused : List (Nat × Nat)) (f : State → List Byte → Taken → Cmd) : State :=
  s.takeKind q (· == kind) fun s t =>
    let b := t.bytes
    match (if 64 ≤ fieldAt b 1 1 then some 1 else firstNonzero b ((2, 6) :: unused ++ [(0x3C, 4)])) with
    | some o => s.refusePacket q t 1 o
    | none =>
      let st := fieldAt b 8 8
      let s := s.freePacket q t
      if st % 8 ≠ 0 ∨ 2 ^ 40 ≤ st then s
      else
        match f s b t with
        | .done s => s.status st 0 0
        | .fail r o => s.status st r o
        | .more s => s.setQ q fun k => { k with cmd := some { kind := kind, ctx := fieldAt b 1 1, status := st, bytes := b } }

/-- A command of a queue that is complete: its status is written, and the queue goes on. -/
def State.commandOver (s : State) (q : Nat) : State :=
  match (s.queue q).cmd with
  | some c => (s.setQ q fun k => { k with cmd := none }).status c.status 0 0
  | none => s

/-- A step of a command under way: the bool says that it is complete. -/
def State.carryOn (s : State) (q kind : Nat) (f : State → PrivCmd → Bool × State) (start : State) : State :=
  match (s.queue q).cmd with
  | some c =>
    if c.kind ≠ kind then s
    else match f s c with | (true, s) => s.commandOver q | (false, s) => s
  | none => start

/-- Bits of the context's phase that a command needs: ACTIVE or FROZEN (16 R309). -/
def State.alive (s : State) (c : Nat) : Bool := (s.ctx c).phase == .active || (s.ctx c).phase == .frozen

/-- A check of operands: result and offset. -/
def bad? (cs : List (Bool × Nat × Nat)) : Option (Nat × Nat) := firstSome (fun c => if c.1 then some c.2 else none) cs

/-- A command whose checks pass in order. -/
def checked (cs : List (Bool × Nat × Nat)) (c : Cmd) : Cmd := match bad? cs with | some (r, o) => .fail r o | none => c

/-! ### CTXCREATE (16 R310) -/

/-- A descriptor keeps the limits of 16 Table 16.1. -/
def descOk (d : List Byte) : Bool :=
  let f := fieldAt d
  let at_ (o a : Nat) : Bool := f o 8 % a == 0 && decide (f o 8 < 2 ^ 40)
  at_ 0 8192 && at_ 8 65536 && f 0x10 8 % 65536 == 0 && decide (f 8 8 + f 0x10 8 ≤ 2 ^ 40) && at_ 0x18 4096 && decide (f 0x20 4 ≤ 2 ^ 20) &&
    decide (f 0x24 4 ≤ 4096) && at_ 0x28 64 && (f 0x24 4 != 0 || f 0x28 8 == 0) && at_ 0x30 64 && at_ 0x38 64 && at_ 0x40 64 && at_ 0x48 64 &&
    (firstNonzero d [(0x5A, 6), (0xA0, 96)]).isNone

/-- Another context holds a system key (16 R310). -/
def State.keyTaken (s : State) (k : Nat) : Bool := k != 0 && (s.keyCtx k).isSome

/-- CTXCREATE (16 R310). -/
def execCtxcreate (q : Nat) (s : State) : Out :=
  queueOk s q (s.command q 128 [(0x18, 32)] fun s b _ =>
    let c := fieldAt b 1 1
    let a := fieldAt b 0x10 8
    let d := s.homeRead a 256
    checked [((s.ctx c).phase != .free, 3, 0), (decide (2 ^ 40 < a + 256), 1, 0x10), (!descOk d, 1, 0x10), (s.keyTaken (fieldAt d 0x58 2), 2, 0x10)]
      (.done (s.setX c fun _ => { phase := .active, desc := d })))

/-! ### The end of a team (15 R292; 17 R338) -/

/-- A request of a team that is gone: a write goes on for itself, anything else is dropped. -/
def Req.orphan (gids : List Nat) (r : Req) : Option Req :=
  if r.gid = 0 ∨ !gids.contains r.gid then some r
  else
    match r.use with
    | .drain _ => some { r with gid := 0, use := .drain 0 }
    | .unsub _ _ => some { r with gid := 0 }
    | .atom _ _ _ _ true => some { r with gid := 0, use := .drain 0 }
    | .reduce _ _ _ true => some { r with gid := 0, use := .drain 0 }
    | _ => none

/-- The agents of a fault record are let go. -/
def FaultRec.empty (r : FaultRec) : FaultRec := { r with gid := 0, more := [], job := none, park := none }

/-- Records no longer hold groups that are gone. -/
def FaultRec.without (gids : List Nat) (r : FaultRec) : FaultRec :=
  { r with gid := if gids.contains r.gid then 0 else r.gid, more := r.more.filter fun g => !gids.contains g }

/-- Every fault record changed. -/
def State.setRecords (s : State) (f : FaultRec → FaultRec) : State :=
  { s with dies := s.dies.map fun e => (e.1, { e.2 with records := e.2.records.map f, waiting := e.2.waiting.map f }) }

/-- A guest group is gone from its place. -/
def State.removeGuest (s : State) (gid : Nat) : State :=
  (s.setG gid fun g => { ((g.lanes (2 ^ g.width - 1)).foldl Group.freeLane g) with returns := [], stores := [] }).dropGuest gid

/-- The copies of a team are abandoned, at engines, in the queues' order, at the shelf. -/
def State.dropCopies (s : State) (tid : Nat) : State :=
  let keep (j : CopyJob) : Bool := j.tid != tid
  let gids := (s.team tid).groups
  let engine (k : Engine) : Engine := { k with job := k.job.filter keep }
  let cluster (c : Cluster) : Cluster :=
    { c with parks := c.parks.filter fun p => p.tid != tid, drains := c.drains.filter fun d => !gids.contains d.gid }
  { s with engines := s.engines.map fun (e : Nat × Engine) => (e.1, engine e.2), jobs := s.jobs.filter keep,
           clusters := s.clusters.map fun (e : Nat × Cluster) => (e.1, cluster e.2) }

/-- What a group has under way is over: its fibres, returns, stores, copies and counters. -/
def Group.ended_ (g : Group) : Group :=
  { ((g.lanes (2 ^ g.width - 1)).foldl Group.freeLane g) with
    returns := [], stores := [], copies := [], ld := 0, st := 0, cp := 0, tl := 0, hold := none, heldTraps := [], handler := 0, poisonDue := none }

/-- Every fibre of a team ended, at home and away: the stores it has issued are performed, and what it awaited is dropped. -/
def State.endTeamFibres (s : State) (tid : Nat) : State :=
  let t := s.team tid
  let gids := (t.seqGid :: t.groups).filter (· != 0)
  let s := t.groups.foldl (fun s g => (s.drainQueue g).2) s
  let s := (s.endSubs tid).dropCopies tid
  let guests := (s.groups.filter fun e => match e.2.guest with | some i => i.homeGid != 0 && gids.contains i.homeGid | none => false).map (·.1)
  let s := guests.foldl State.removeGuest s
  let call (k : Call) : Call := if k.tid = tid then { k with gid := 0, tid := 0 } else k
  let s : State := { s with reqs := s.reqs.filterMap (Req.orphan gids), crates := s.crates.filter fun c => !(gids.contains c.fromGid && !c.ret),
                            calls := s.calls.map fun (e : Nat × Call) => (e.1, call e.2) }
  let s := gids.foldl (fun s g => s.setG g Group.ended_) s
  let s := s.setC t.core fun c => { c with slots := c.slots.filter fun e => !gids.contains e.2.gid }
  (s.setRecords (FaultRec.without gids)).setT tid fun t => { t with subs := [] }

/-- A team that is out, or being saved, stands nowhere: its image is free. -/
def State.unsave (s : State) (tid : Nat) : State :=
  let t := s.team tid
  if t.phase = .swapped then
    (s.freeImage tid).setT tid fun t => { t with phase := .resident, image := 0, imageSize := 0, binQuota := 0, zAlloc := 0, spoiled := false }
  else s.setT tid fun t => { t with saving := none }

/-- What counts performed writes: stores and drains, no-return atomics, index adds, tile stores, array operations. -/
def Return.countsWrites (r : Return) : Bool :=
  r.left != 0 && (r.kind == .store || r.kind == .atomic || r.kind == .tile || r.kind == .matrix || r.kind == .qnt)

/-- A group of a team that is ended: its fibres end as by FEND, and what it waited for is given up; the writes that it has issued go on and are
counted (15 R292; 17 R338). -/
def Group.endAll (g : Group) : Group :=
  let g := (g.returns.filter fun r => !r.countsWrites).foldl (fun g r => g.giveUp r.id) ((g.lanes (2 ^ g.width - 1)).foldl Group.freeLane g)
  { g with copies := [], hold := none, heldTraps := [], handler := 0, poisonDue := none }

/-- The operations of a sequencer context that is ended are gone (08 R154). -/
def Cluster.withoutAgent (c : Cluster) (gid : Nat) : Cluster :=
  { c with ops := c.ops.filter fun o => o.gid != gid, running := c.running.filter fun o => o.gid != gid }

/-- A resident team is ended: every fibre ends, at home and away; it retires once what it has issued is performed (15 R292; 17 R338). -/
def State.endResident (s : State) (tid : Nat) : State :=
  let t := s.team tid
  let gids := (t.seqGid :: t.groups).filter (· != 0)
  let s := s.dropCopies tid
  let guests := (s.groups.filter fun e => match e.2.guest with | some i => i.homeGid != 0 && gids.contains i.homeGid | none => false).map (·.1)
  let s := guests.foldl State.removeGuest s
  let call (k : Call) : Call := if k.tid = tid then { k with gid := 0, tid := 0 } else k
  let fills (r : Req) : Bool := match r.use with | .fill k _ _ _ => k == tid | _ => false
  let s : State := { s with reqs := s.reqs.filter (!fills ·), crates := s.crates.filter fun c => !(gids.contains c.fromGid && !c.ret),
                            calls := s.calls.map fun (e : Nat × Call) => (e.1, call e.2) }
  let s := gids.foldl (fun s g => s.setG g Group.endAll) s
  let s := if t.seqGid = 0 then s else
    (s.setG t.seqGid fun g => { g with returns := [], tl := 0, seq := { g.seq with stopped := none, due := none } }).setCl (clusterOfCore t.core)
      fun c => c.withoutAgent t.seqGid
  let s := s.setC t.core fun c => { c with slots := c.slots.filter fun e => !gids.contains e.2.gid }
  ((s.setRecords (FaultRec.without gids)).setT tid fun t => { t with saving := none, stall := none }).barriers tid

/-- A team is ended (17 R338): it retires, one that is out at once, and its grid goes on. -/
def State.endTeam (s : State) (tid : Nat) : State :=
  if !thas s.teams tid then s
  else if (s.team tid).phase = .resident then s.endResident tid
  else ((s.endTeamFibres tid).unsave tid).retireTeam tid

/-! ### Dispositions (17 R338) -/

/-- Fibres of an issue stand at a PC. -/
def Group.standBatch (g : Group) (i : Issue) (pc : Dword) : Group :=
  g.forLanes (g.lanes i.mask) fun g l => if (g.fib l).life = .live then g.setF l fun f => { f with pc := pc, wait := .none } else g

/-- A held group goes on. -/
def State.unhold (s : State) (gid : Nat) : State :=
  s.setG gid fun g => { g with hold := none, readySince := s.now, fibres := g.fibres.map fun e => (e.1, { e.2 with waitSince := s.now }) }

/-- A group held by a class-D trap, under a disposition. A sequencer context's nested trap enters at STVEC like its first. -/
def State.disposeTrap (s : State) (gid d : Nat) (t : Trap) (i : Issue) (nested : Bool) : State :=
  let tid := (s.grp gid).tid
  if d = 0 then
    if (nested && (s.grp gid).kind != .sequencer) || s.vector gid = 0 then s.endTeam tid
    else if (s.grp gid).handler ≠ 0 then
      (s.unhold gid).setG gid fun g =>
        ({ g with heldTraps := g.heldTraps ++ [(t, i)] }).forLanes (g.lanes i.mask) fun g l => g.setF l fun f => { f with wait := .handler }
    else (s.unhold gid).enterHandler gid i t
  else if d = 1 then s.unhold gid
  else if d = 3 then (s.unhold gid).setG gid fun g => g.standBatch i i.npc
  else s.endTeam tid

/-- A held group under a disposition; a team whose image met an error only ends (17 R342). -/
def State.disposeGroup (s : State) (d gid : Nat) : State :=
  if (s.team (s.grp gid).tid).spoiled then s.endTeam (s.grp gid).tid
  else match (s.grp gid).hold with
  | none => s
  | some .replay => if d = 2 ∨ 3 < d then s.endTeam (s.grp gid).tid else s.unhold gid
  | some (.trap t i n) => s.disposeTrap gid d t i n

/-- A copy whose failing sectors are let go as poison (17 R338): those of its source, or, where none of these is to be let go, the fault was its
destination's, and the event writes its sectors poisoned (log 118). -/
def CopyJob.poisoned (j : CopyJob) : CopyJob :=
  let b := j.buf.letGo ((j.event j.pos).filterMap fun k => (j.byteAt k).1)
  if b = j.buf then { j with spoil := some j.pos } else { j with buf := b }

/-- A held copy under a disposition. -/
def State.disposeJob (s : State) (d job : Nat) : State :=
  match s.engines.find? fun e => match e.2.job with | some j => j.id == job | none => false with
  | none => s
  | some (e, k) =>
    match k.job with
    | none => s
    | some j =>
      let j := { j with stuck := false, since := none }
      if d = 0 then s.setE e fun k => { k with job := some j.poisoned }
      else if d = 1 then s.setE e fun k => { k with job := some j }
      else s.engDone e j

/-- A held CPYM under a disposition. -/
def State.disposePark (s : State) (d cluster ret : Nat) : State :=
  match (s.cluster cluster).parks.find? fun p => p.ret == ret with
  | none => s
  | some p =>
    if d = 0 then s.setPark cluster { p with stuck := false, since := none, buf := p.buf.letGo ((List.range p.len).map (p.src + ·)) }
    else if d = 1 then s.setPark cluster { p with stuck := false, since := none }
    else
      let s := s.setCl cluster fun c => { c with parks := c.parks.filter fun q => q.ret != ret }
      if thas s.groups p.gid then (s.setG p.gid fun g => g.oneDone ret).copyEnded p.gid 256 ret else s

/-- Every agent of a record under a disposition (17 R338). -/
def State.dispose (s : State) (r : FaultRec) (d : Nat) : State :=
  let s := ((r.gid :: r.more).filter (· != 0)).foldl (fun s g => if thas s.groups g then s.disposeGroup d g else s) s
  let s := match r.job with | some j => s.disposeJob d j | none => s
  match r.park with | some (c, p) => s.disposePark d c p | none => s

/-- KIND of a record. -/
def FaultRec.kind (r : FaultRec) : Nat := fieldAt r.bytes 0 1
/-- The record's context. -/
def FaultRec.ctx (r : FaultRec) : Nat := fieldAt r.bytes 2 1 % 64
/-- The record holds an agent that a disposition lets go (17 R338). -/
def FaultRec.disposable (r : FaultRec) : Bool := r.kind == 1 || r.kind == 2 || r.kind == 3

/-! ### REPLAY (17 R339) -/

/-- A record of the closed generation: acted on, or kept for THAW where its context is frozen. -/
def State.replayOne (s : State) (die : Nat) (r : FaultRec) : State :=
  if !r.disposable then s
  else
    let d := s.homeField ((s.die die).fbRing + 32 * (r.slot % 4096) + 3) 1
    if (s.ctx r.ctx).phase = .frozen then s.setD die fun k => { k with records := k.records ++ [{ r with disp := some d }] }
    else s.dispose r d

/-- The current generation of a die closed and acted on. -/
def State.replayDie (s : State) (die : Nat) : State :=
  let d := s.die die
  let mine := d.records.filter fun r => r.disp.isNone
  let s := s.setD die fun d => { d with gen := (d.gen + 1) % 65536, records := d.records.filter fun r => r.disp.isSome }
  let s := mine.foldl (fun s r => s.replayOne die r) s
  s.setD die fun k => { k with ridx := d.widx }

/-- REPLAY (17 R339). -/
def execReplay (q : Nat) (s : State) : Out :=
  queueOk s q (s.command q 141 [(0x15, 35)] fun s b _ =>
    let die := fieldAt b 0x10 1
    checked [(decide (7 < die), 1, 0x10), (fieldAt b 0x11 4 != (s.die die).gen, 1, 0x11)] (.done (s.replayDie die)))

/-! ### FREEZE and THAW (16 R324 to R327) -/

/-- FREEZE (16 R324): a record with event 5, the packet's queue and slot in PC. -/
def execFreeze (q : Nat) (s : State) : Out :=
  queueOk s q (s.command q 130 [(0x10, 40)] fun s b t =>
    let c := fieldAt b 1 1
    checked [(!s.alive c, 3, 0)] (.done (s.freezeCtx t.hdr.homeDie c 5 0 0 (q + 2 ^ 32 * (t.idx % 2 ^ 32)) 0 0)))

/-- What a record holds goes on at THAW: under its disposition, or as it stood at its instruction (16 R327; 17 R338). -/
def State.thawOne (s : State) (r : FaultRec) : State :=
  match r.disp with
  | some d => s.dispose r d
  | none => if r.disposable then s.dispose r 1 else s

/-- A context thawed: engines return to service, and every group resumes (16 R327). No timer ran meanwhile (16 R325). -/
def State.thaw (s : State) (c : Nat) : State :=
  let mine := s.dies.flatMap fun e => (e.2.records ++ e.2.waiting).filter fun r => r.ctx == c
  let s := s.setX c fun k => { k with phase := .active, freeze := 0 }
  let engine (k : Engine) : Engine := if (match k.job with | some j => j.ctx == c | none => false : Bool) = true then { k with withdrawn := false } else k
  let at_ := (s.ctx c).frozenAt
  let group (g : Group) : Group := if g.ctx = c then g.resumed at_ s.now else g
  let team (t : Team) : Team :=
    if t.ctx = c then { t with noFit := t.noFit.map (unfrozen at_ s.now), saving := t.saving.map fun x => (if t.ordered then x.1 else unfrozen at_ s.now x.1, x.2) } else t
  let grid (g : Grid) : Grid := if g.ctx = c then { g with noFit := g.noFit.map (unfrozen at_ s.now) } else g
  let die (d : Die) : Die := { d with records := d.records.filter fun r => !(r.ctx == c && r.disp.isSome) }
  let s : State := { s with engines := s.engines.map fun (e : Nat × Engine) => (e.1, engine e.2),
                            groups := s.groups.map fun (e : Nat × Group) => (e.1, group e.2),
                            teams := s.teams.map fun (e : Nat × Team) => (e.1, team e.2),
                            grids := s.grids.map fun (e : Nat × Grid) => (e.1, grid e.2),
                            dies := s.dies.map fun (e : Nat × Die) => (e.1, die e.2) }
  mine.foldl State.thawOne (s.setRecords fun r => if r.ctx = c then r.empty else r)

/-- THAW (16 R327). -/
def execThaw (q : Nat) (s : State) : Out :=
  queueOk s q (s.command q 131 [(0x10, 40)] fun s b _ =>
    let c := fieldAt b 1 1
    checked [((s.ctx c).phase != .frozen, 3, 0)] (.done (s.thaw c)))

/-! ### TLBINV (13 R261; 16 R317, R318) -/

/-- Two ranges of local addresses meet. -/
def rangeMeets (lo n va len : Nat) : Bool := overlaps lo n (va % 2 ^ 45) len

/-- A dirty line of a window goes home by the translation that brought it (16 R318); one whose place cannot be reached yet stays, and one whose page
may not be written is discarded with a record (09 R166; 16 R316). -/
def State.lineOut (s : State) (tid gid k line : Nat) : State :=
  let t := s.team tid
  let w := tget {} t.lmap k
  let offs := ((List.range 256).map (· + 256 * line)).filter w.dirty.contains
  let (tgt, may) := tget (.larder 0, false) w.places line
  let op (x : Target) (bs : List Byte) (off : Nat) : StoreOp := { ret := 0, lane := 0, tgt := x, va := w.lineAddr line + off, act := .bytes bs }
  if offs.isEmpty || !thas w.places line || !s.placeOpen gid (op tgt (List.replicate 256 0) 0) then s
  else if !may then (s.lostWrite gid 3 (w.lineAddr line) (256 * 7)).setT tid fun t => t.cleanLine k line
  else
    ((runsOf offs).foldl (fun s r =>
      let bs := (s.team tid).lread r.1 r.2
      s.performBytes gid (op (tgt.plus (r.1 % 256)) bs (r.1 % 256)) bs) s).setT tid fun t => t.cleanLine k line

/-- A window's line lies in a range of a context's local addresses. -/
def State.lineIn (s : State) (w : LWindow) (lo n line : Nat) : Bool := s.isLocal (w.lineAddr line) && rangeMeets lo n (w.lineAddr line) 256

/-- The lines of a team's windows that hold stored bytes of a range, by a translation not yet removed; what has none is translated as it is written
back. -/
def State.dirtyIn (s : State) (t : Team) (lo n k : Nat) : List Nat :=
  let w := tget {} t.lmap k
  w.dirtyLines.filter fun l => s.lineIn w lo n l && thas w.places l

/-- The translations of a team's window lines of a range are removed, where no stored byte still goes by them (16 R318). -/
def State.placesOut (s : State) (lo n tid : Nat) : State :=
  let gone (w : LWindow) (l : Nat) : Bool := s.lineIn w lo n l && !w.dirtyLines.contains l
  s.setT tid fun t => { t with lmap := t.lmap.map fun e => (e.1, { e.2 with places := e.2.places.filter fun p => !gone e.2 p.1 }) }

/-- What a team's windows hold of a range is written back, and its translation removed (16 R318). -/
def State.windowsOut (s : State) (c lo n tid : Nat) : State :=
  let t := s.team tid
  if t.ctx ≠ c ∨ t.phase ≠ .resident then s
  else
    let s := [0, 1, 2, 3].foldl (fun s k => (s.dirtyIn t lo n k).foldl (fun s l => s.lineOut tid (t.groups.headD 0) k l) s) s
    s.placesOut lo n tid

/-- Some window of a context still holds stored bytes of a range. -/
def State.windowsLeft (s : State) (c lo n : Nat) : Bool :=
  s.teams.any fun e => e.2.ctx == c && e.2.phase == .resident && [0, 1, 2, 3].any fun k => !(s.dirtyIn e.2 lo n k).isEmpty

/-- The stores of a context's groups performed; the bool says that none is left. -/
def State.drainCtx (s : State) (c : Nat) : Bool × State :=
  ((s.groups.filter fun e => e.2.ctx == c && !e.2.stores.isEmpty).map (·.1)).foldl
    (fun p g => let (d, s) := p.2.drainAll g; (p.1 && d, s)) (true, s)

/-- An L1 byte that a context brought by an address of a range. -/
def byteIn (c lo n : Nat) (_ : Nat) (b : L1Byte) : Bool := b.ctx == c && rangeMeets lo n b.va 1

/-- The TLBs of the dies and the cores without a context's translations of a range (16 R317, R318). -/
def State.tlbDrop (s : State) (c lo n : Nat) : State :=
  let keep (t : TlbEntry) : Bool := !(t.ctx == c && overlaps lo n t.base t.size)
  { s with dies := s.dies.map fun e => (e.1, { e.2 with tlb := e.2.tlb.filter keep }),
           cores := s.cores.map fun e => (e.1, { e.2 with tlb := e.2.tlb.filter keep }) }

/-- Everything that was translated through a context's entries of a range is performed, and no translation of it is held; the bool says that
nothing is left (16 R318 1 to 3). -/
def State.rangeOut (s : State) (c lo n : Nat) : Bool × State :=
  let (ok, s) := s.drainCtx c
  let s := (s.teams.map (·.1)).foldl (fun s t => s.windowsOut c lo n t) s
  let cores := s.cores.map (·.1)
  let s := cores.foldl (fun s k => s.l1Back k (byteIn c lo n) true) s
  (ok && !s.windowsLeft c lo n && !(cores.any fun k => s.l1Dirty k (byteIn c lo n)), s.tlbDrop c lo n)

/-- Pages of a range whose RACE attribute has been taken away: setting it anew resets their records (10 R203). -/
def State.raceAgain (s : State) (c lo n : Nat) : State :=
  { s with raceOn := s.raceOn.filter fun r =>
      !(r.1 == c && overlaps lo n r.2 65536) || (match s.lookup 0 c r.2 false with | .leaf e _ _ => pteBit e 6 | _ => true) }

/-- Dependence words whose translation is removed (13 R261). -/
def State.depsDrop (s : State) (c lo n : Nat) : State :=
  { s with grids := s.grids.map fun e =>
      if e.2.ctx = c then (e.1, { e.2 with deps := e.2.deps.map fun d => if rangeMeets lo n d.1 4 then (d.1, none, d.2.2) else d }) else e }

/-- Dependence words translated again; a grid whose word cannot be is refused (13 R261). -/
def State.depsAgain (s : State) (c : Nat) : State :=
  ((s.grids.filter fun e => e.2.ctx == c && e.2.waiting && e.2.deps.any fun d => d.2.1.isNone).map (·.1)).foldl
    (fun s n => s.depsLook n) s

/-- A call of a context that holds a range: its grant until it completes, its image until it starts (16 R318). -/
def Call.holds (k : Call) (c lo n : Nat) : Bool :=
  k.ctx == c && (k.pages.any (fun p => rangeMeets lo n p.1 p.2.1) || (!k.started && rangeMeets lo n k.image k.imageSize))

/-- One try at a TLBINV: the bool says that it is complete (16 R318). Words dropped once are not dropped again. -/
def State.tlbTry (s : State) (c lo n : Nat) (first : Bool) : Bool × State :=
  if n = 0 then (true, s)
  else
    let (ok, s) := s.rangeOut c lo n
    let s := (if first then (s.depsDrop c lo n).raceAgain c lo n else s).depsAgain c
    (ok && !(s.grids.any fun e => e.2.ctx == c && e.2.waiting && e.2.deps.any fun d => d.2.1.isNone) && !(s.calls.any fun e => e.2.holds c lo n), s)

/-- The range of a TLBINV: local base and length. -/
def invRange (b : List Byte) : Nat × Nat := (fieldAt b 0x10 8 % 2 ^ 45, fieldAt b 0x18 8)

/-- TLBINV (16 R318). -/
def execTlbinv (q : Nat) (s : State) : Out :=
  queueOk s q (s.command q 132 [(0x20, 24)] fun s b _ =>
    let c := fieldAt b 1 1
    checked [(!s.alive c, 3, 0)] (match s.tlbTry c (invRange b).1 (invRange b).2 true with | (true, s) => .done s | (false, s) => .more s))

/-- TLBINV_COMPLETE (16 R318). -/
def execTlbinvComplete (q : Nat) (s : State) : Out :=
  queueOk s q (s.carryOn q 132 (fun s c => s.tlbTry c.ctx (invRange c.bytes).1 (invRange c.bytes).2 false) s)

/-! ### CTXDESTROY (13 R261; 16 R327) -/

/-- A team is dissolved with its context: its grid adds nothing to DONE. -/
def State.dissolve (s : State) (tid : Nat) : State := ((s.endTeamFibres tid).unsave tid).freeTeam tid

/-- Guests of a context end; a home on another module is told. -/
def State.endGuests (s : State) (c : Nat) : State :=
  ((s.groups.filter fun e => e.2.ctx == c && e.2.isGuest).map (·.1)).foldl (fun s g =>
    if (match (s.grp g).guest with | some i => i.homeGid == 0 | none => false) && !(s.grp g).liveLanes.isEmpty then
      (s.leaveGuest g (s.grp g).liveLanes 0 true).removeGuest g
    else s.removeGuest g) s

/-- Calls of a context end without starting or where they stand (14 R279). -/
def State.endCalls (s : State) (c : Nat) : State :=
  ((s.calls.filter fun e => e.2.ctx == c).map (·.1)).foldl (fun s n => (s.setCall n fun k => { k with aborted := true }).completeCall n) s

/-- Pegs that other modules hold in a context end (12 R253). -/
def State.endPegs (s : State) (c : Nat) : State :=
  (s.pegs.filter fun p => p.remote && p.ctx == c).foldl State.sendPushEnd { s with pegs := s.pegs.filter fun p => p.ctx != c }

/-- What a context has issued is performed, so it closes: everything of it ends (16 R327). -/
def State.closeCtx (s : State) (c : Nat) : State :=
  let s := ((s.teams.filter fun e => e.2.ctx == c).map (·.1)).foldl State.dissolve s
  let s := ((s.endCalls c).endGuests c).endPegs c
  let s := (s.crates.filter fun k => k.ctx == c && !k.ret).foldl (fun s k => s.refuseCrate k 5) s
  let queue (k : WQueue) : WQueue := if k.used && !k.priv && k.ctx == c then {} else k
  let engine (k : Engine) : Engine := if (match k.job with | some j => j.ctx == c | none => false : Bool) = true then {} else k
  let cluster (k : Cluster) : Cluster := { k with parks := k.parks.filter fun p => p.ctx != c }
  let s := ((s.engines.filter fun e => match e.2.job with | some j => j.ctx == c | none => false).map (·.1)).foldl State.disownAll s
  let s : State := { s with grids := s.grids.filter fun e => e.2.ctx != c, jobs := s.jobs.filter fun j => j.ctx != c,
                            queues := s.queues.map fun (e : Nat × WQueue) => (e.1, queue e.2),
                            engines := s.engines.map fun (e : Nat × Engine) => (e.1, engine e.2),
                            clusters := s.clusters.map fun (e : Nat × Cluster) => (e.1, cluster e.2),
                            crates := s.crates.filter fun k => k.ctx != c }
  let s := s.setRecords fun r => if r.ctx = c then r.empty else r
  let s := (s.cores.map (·.1)).foldl (fun s k => (s.wcDrain k fun w => w.ctx == c).l1Drop k fun _ b => b.ctx == c) s
  s.tlbDrop c 0 (2 ^ 45)

/-- Nothing of a closing context is under way; it is FREE. -/
def State.closed (s : State) (c : Nat) : Bool × State :=
  if s.reqs.any fun r => r.ctx == c then (false, s) else (true, (s.tlbDrop c 0 (2 ^ 45)).setX c fun _ => {})

/-- A step of a CTXDESTROY: TLBINV of the whole context, then its end, then the answers that are still out (16 R318, R327). -/
def State.closeStep (s : State) (q : Nat) (c : PrivCmd) : Bool × State :=
  if c.pos ≠ 0 then s.closed c.ctx
  else
    match s.rangeOut c.ctx 0 (2 ^ 45) with
    | (false, s) => (false, s)
    | (true, s) => ((s.closeCtx c.ctx).setQ q fun k => { k with cmd := some { c with pos := 1 } }).closed c.ctx

/-- CTXDESTROY (16 R327): the context is CLOSING at once. -/
def execCtxdestroy (q : Nat) (s : State) : Out :=
  queueOk s q (s.carryOn q 129 (fun s c => s.closeStep q c) (s.command q 129 [(0x10, 40)] fun s b _ =>
    let c := fieldAt b 1 1
    checked [(!s.alive c, 3, 0)] (.more (s.setX c fun k => { k with phase := .closing }))))

/-! ### QCREATE and QDESTROY (13 R256; 16 R328) -/

/-- QCREATE (13 R256). Queue 0 is made by Q0CTL alone (19 R360). -/
def execQcreate (q : Nat) (s : State) : Out :=
  queueOk s q (s.command q 133 [(0x21, 23)] fun s b _ =>
    let c := fieldAt b 1 1
    let k := fieldAt b 0x10 2
    let n := fieldAt b 0x14 4
    let ring := fieldAt b 0x18 8
    let priv := fieldAt b 0x13 1 == 1
    checked [ (decide (255 < k) || (k == 0 && !(s.queue 0).used), 1, 0x10), (decide (3 < fieldAt b 0x12 1), 1, 0x12), (decide (1 < fieldAt b 0x13 1), 1, 0x13),
              (!(List.range 11).any (fun i => n == 2 ^ (i + 6)), 1, 0x14),
              (ring % 64 != 0 || (priv && decide (2 ^ 40 < ring + 64 + 64 * n)), 1, 0x18), (decide (8 ≤ fieldAt b 0x20 1), 1, 0x20),
              (!priv && !s.alive c, 3, 0), ((s.queue k).used, 2, 0x10) ]
      (.done (s.setQ k fun _ => { used := true, ctx := c, cls := fieldAt b 0x12 1, priv := priv, entries := n, ring := ring, kinds := fieldAt b 0x20 1 })))

/-- QDESTROY: the queue is no more; a queue that is not in use is a bad operand, one with a command in progress a conflict (log 19). -/
def execQdestroy (q : Nat) (s : State) : Out :=
  queueOk s q (s.command q 134 [(0x12, 38)] fun s b _ =>
    let k := fieldAt b 0x10 2
    checked [(k == 0 || decide (255 < k) || !(s.queue k).used, 1, 0x10), ((s.queue k).cmd.isSome, 2, 0x10)]
      (.done { s with queues := tdel s.queues k, grids := s.grids.filter fun e => !(e.2.waiting && e.2.byDie.isNone && e.2.queue == k) }))

/-! ### HWRITE (11 R234, R236; 12 R250; 16 R320) -/

/-- A shape record keeps the rules of 11 R234 and R236. -/
def shapeOk (r : List Byte) : Bool :=
  decide (fieldAt r 0 1 < 64 ∧ fieldAt r 1 1 ≤ 3 ∧ 1 ≤ fieldAt r 2 1 ∧ fieldAt r 2 1 ≤ 4) && (firstNonzero r [(3, 5), (0x38, 8)]).isNone &&
    shTile r 0 * shEsize r % 16 == 0 && ([1, 2, 3].all fun d => shStride r d % shEsize r == 0) &&
    [0, 1, 2, 3].all fun d => decide (1 ≤ shTile r d) && (decide (d < fieldAt r 2 1) || (shDim r d == 1 && shTile r d == 1))

/-- No number stands twice. -/
def noneTwice (l : List Nat) : Bool := (distinct l).length == l.length

/-- A group record keeps the rules of 12 R250. -/
def groupOk (r : List Byte) : Bool :=
  let n := fieldAt r 2 2
  let ws := (List.range 64).map fun i => fieldAt r (0x20 + 4 * i) 4
  decide (fieldAt r 0 1 < 64) && (firstNonzero r [(8, 24)]).isNone &&
    (if fieldAt r 1 1 = 0 then
      decide (1 ≤ n ∧ n ≤ 64) && fieldAt r 4 4 == 0 && (ws.drop n).all (· == 0) && (ws.take n).all (fun w => decide (w < 0x7FFFF)) && noneTwice (ws.take n)
     else if fieldAt r 1 1 = 1 then
      n == 0 && fieldAt r 4 4 % 512 == 0 && decide (fieldAt r 4 4 ≤ 0x7FC00) && fieldAt r 0x20 64 != 0 && (firstNonzero r [(0x60, 192)]).isNone
     else false)

/-- A kernel entry keeps the rules of 16 R320: at most 16 V and 8 S registers. -/
def kernOk (r : List Byte) : Bool :=
  decide (fieldAt r 0 1 < 64) && (firstNonzero r [(1, 7), (0x2C, 4), (0x50, 48)]).isNone && decide ((bitsSet 32 (kernSmask r)).length ≤ 8) &&
    decide ((bitsSet 256 (kernVmask r)).length ≤ 16)

/-- A cellar program entry keeps the rules of 16 R320. -/
def cellOk (r : List Byte) : Bool :=
  decide (fieldAt r 0 1 < 64) && (firstNonzero r [(1, 7), (0x18, 40)]).isNone && fieldAt r 8 8 % 2 == 0 && decide (fieldAt r 0x10 8 ≤ 65536)

/-- A table of 16 R320 by number: where its base stands in the descriptor, where its count, the entry's size in the table and as given, its rule. -/
def handleTable (n : Nat) : Option (Nat × Nat × Nat × Nat × (List Byte → Bool)) :=
  if n = 1 then some (0x30, 0x50, 64, 64, shapeOk)
  else if n = 2 then some (0x38, 0x52, 320, 288, groupOk)
  else if n = 3 then some (0x40, 0x54, 128, 128, kernOk)
  else if n = 4 then some (0x48, 0x56, 64, 64, cellOk)
  else none

/-- HWRITE (16 R320): the entry is validated and copied. -/
def execHwrite (q : Nat) (s : State) : Out :=
  queueOk s q (s.command q 135 [(0x11, 1), (0x14, 4), (0x20, 24)] fun s b _ =>
    let c := fieldAt b 1 1
    let h := fieldAt b 0x12 2
    let src := fieldAt b 0x18 8
    match handleTable (fieldAt b 0x10 1) with
    | none => checked [(!s.alive c, 3, 0)] (.fail 1 0x10)
    | some (base, count, size, given, ok) =>
      let r := s.homeRead src given
      checked [ (!s.alive c, 3, 0), (decide ((s.ctx c).fld count 2 ≤ h), 1, 0x12), (decide (2 ^ 40 < src + given), 1, 0x18), (!ok r, 1, 0x18) ]
        (.done (s.homeStore ((s.ctx c).fld base 8 + size * h) (padTo size r))))

/-! ### LOFTWIN, KEYSET, WAYCONV (09 R168, R174; 16 R323, R330) -/

/-- LOFTWIN (09 R168). -/
def execLoftwin (q : Nat) (s : State) : Out :=
  queueOk s q (s.command q 136 [(0x11, 7), (0x28, 16)] fun s b _ =>
    let c := fieldAt b 1 1
    let die := fieldAt b 0x10 1
    let base := fieldAt b 0x18 8
    let size := fieldAt b 0x20 8
    checked [ (!s.alive c, 3, 0), (decide (7 < die), 1, 0x10), (base % 65536 != 0, 1, 0x18), (size % 65536 != 0 || decide (2 ^ 27 < base + size), 1, 0x20),
              (s.ctxs.any fun e => e.1 != c && (let w := tget (0, 0) e.2.loft die; overlaps base size w.1 w.2 && w.2 != 0 && size != 0), 2, 0x18) ]
      (.done (s.setX c fun k => { k with loft := tput k.loft die (base, size) })))

/-- KEYSET (16 R330): the key waits in the port's pending slot for its switch counter. -/
def execKeyset (q : Nat) (s : State) : Out :=
  queueOk s q (s.command q 137 [(0x12, 6), (0x28, 16)] fun s b _ =>
    let p := fieldAt b 0x10 1
    let a := fieldAt b 0x18 8
    let k := some (s.homeRead a 32, fieldAt b 0x20 8)
    checked [(decide (31 < p), 1, 0x10), (decide (1 < fieldAt b 0x11 1), 1, 0x11), (decide (2 ^ 40 < a + 32), 1, 0x18)]
      (.done (s.setP p fun o => if fieldAt b 0x11 1 = 1 then { o with pendIn := k } else { o with pendOut := k })))

/-- A call accepted at a stack, queued or running, holds the scratch that it was granted (09 R174; 14 R274, R277; 16 R322). -/
def State.scratchHeld (s : State) (stack : Nat) : Bool := s.calls.any fun e => e.2.stack == stack && fieldAt e.2.msg 0x14 4 != 0

/-- A stack's scratch ways converted (09 R174): way 15 stands lowest, new ways read zero, the contents of ways returned are discarded. -/
def State.convert (s : State) (stack w : Nat) : State :=
  s.setS stack fun k =>
    { k with ways := w, wayPend := none, scratch := k.scratch.filter fun e => decide (e.1 < w * 2 ^ 27),
             scratchPoison := k.scratchPoison.filter fun q => decide (64 * q < w * 2 ^ 27) }

/-- WAYCONV (09 R174, R177): held pending while a call holds scratch; it replaces a conversion that is pending, whose command is over. -/
def execWayconv (q : Nat) (s : State) : Out :=
  queueOk s q (s.command q 138 [(0x12, 38)] fun s b _ =>
    let k := fieldAt b 0x10 1
    let w := fieldAt b 0x11 1
    let s := match (s.stack k).wayPend with | some (_, p) => s.commandOver p | none => s
    checked [(decide (15 < k), 1, 0x10), (decide (8 < w), 1, 0x11)]
      (if s.scratchHeld k then .more (s.setS k fun o => { o with wayPend := some (w, q) }) else .done (s.convert k w)))

/-- WAYCONV_APPLY (09 R174, R177): the pending conversion, once no call on the stack holds scratch. -/
def execWayconvApply (stack : Nat) (s : State) : Out :=
  unitStep s (decide (stack < 16))
    (match (s.stack stack).wayPend with
     | some (w, q) => if s.scratchHeld stack then s else (s.convert stack w).commandOver q
     | none => s)

/-! ### PREEMPT and CABORT (13 R269; 14 R279) -/

/-- One step of a context's saves; they are over when no team of it is being saved. -/
def State.preemptStep (s : State) (c : Nat) : Bool × State :=
  let s := ((s.teams.filter fun e => e.2.ctx == c && e.2.saving.isSome).map (·.1)).foldl State.saveStep s
  (!(s.teams.any fun e => e.2.ctx == c && e.2.saving.isSome), s)

/-- Every resident team of a context begins its save (13 R269; 17 R340). -/
def State.preemptAll (s : State) (c : Nat) : State :=
  ((s.teams.filter fun e => e.2.ctx == c && e.2.phase == .resident).map (·.1)).foldl
    (fun s t =>
      let was := (s.team t).saving
      (s.beginSave t false).setT t fun t => { t with noRoom := false, saving := some ((was.map (·.1)).getD s.now, false), ordered := true }) s

/-- PREEMPT (13 R269; 16 R325). -/
def execPreempt (q : Nat) (s : State) : Out :=
  queueOk s q (s.carryOn q 139 (fun s c => s.preemptStep c.ctx) (s.command q 139 [(0x10, 40)] fun s b _ =>
    let c := fieldAt b 1 1
    checked [(!s.alive c, 3, 0)] (match (s.preemptAll c).preemptStep c with | (true, s) => .done s | (false, s) => .more s)))

/-- CABORT (14 R279): every call of the context completes with STATE 3. -/
def execCabort (q : Nat) (s : State) : Out :=
  queueOk s q (s.command q 140 [(0x10, 40)] fun s b _ =>
    let c := fieldAt b 1 1
    checked [(!s.alive c, 3, 0)] (.done (s.endCalls c)))

/-! ### SCRUB (17 R347) -/

/-- One line scrubbed: its two bits of the bitmap. Whether a line without an uncorrectable error needed correction is open (log 2). -/
def State.scrubLine (s : State) (base bitmap n : Nat) : State :=
  let bad := s.homePoison (base + 256 * n) 256
  let (k, s) := if bad then (2, s) else s.pick 2
  let s := if k = 1 then s.tally 4 else s
  let a := bitmap + n / 4
  let sh := 2 * (n % 4)
  let old := s.homeField a 1
  s.homeSet a 1 (old - old / 2 ^ sh % 4 * 2 ^ sh + k * 2 ^ sh)

/-- A step of a SCRUB: one line. -/
def State.scrubStep (s : State) (q : Nat) (c : PrivCmd) : Bool × State :=
  let n := fieldAt c.bytes 0x18 8 / 256
  if n ≤ c.pos then (true, s)
  else
    let s := (s.scrubLine (fieldAt c.bytes 0x10 8) (fieldAt c.bytes 0x20 8) c.pos).setQ q fun k => { k with cmd := some { c with pos := c.pos + 1 } }
    (decide (n ≤ c.pos + 1), s)

/-- SCRUB (17 R347). -/
def execScrub (q : Nat) (s : State) : Out :=
  queueOk s q (s.carryOn q 142 (fun s c => s.scrubStep q c) (s.command q 142 [(0x28, 16)] fun s b _ =>
    let base := fieldAt b 0x10 8
    let len := fieldAt b 0x18 8
    let m := fieldAt b 0x20 8
    checked [ (fieldAt b 1 1 != 0, 1, 1), (base % 256 != 0, 1, 0x10), (len % 256 != 0 || decide (2 ^ 40 < base + len), 1, 0x18),
              (m % 8 != 0 || decide (2 ^ 40 < m + (len / 256 + 3) / 4), 1, 0x20) ] (.more s)))

/-! ### RESYNC (17 R348) -/

/-- A context's state as a number (16 R309; log 20). -/
def phaseCode : CtxPhase → Nat | .free => 0 | .active => 1 | .frozen => 2 | .closing => 3

/-- Booleans as a mask, the first lowest. -/
def maskBytes (n : Nat) (bs : List Bool) : List Byte := leBytes n (maskOf ((bs.zipIdx.filter (·.1)).map (·.2)))

/-- The entry of a context. -/
def State.sumCtx (s : State) (c : Nat) : List Byte :=
  let ts := s.teams.filter fun e => e.2.ctx == c
  let gs := s.grids.filter fun e => e.2.ctx == c
  let inn := (ts.filter fun e => e.2.phase == .resident).length
  record [(1, phaseCode (s.ctx c).phase), (1, (s.ctx c).freeze), (2, inn), (2, ts.length - inn + gs.foldl (fun n e => n + e.2.unplaced) 0), (2, gs.length)]

/-- The entry of a queue; a header that cannot be read shows zeros. -/
def State.sumQueue (s : State) (q : Nat) : List Byte :=
  let k := s.queue q
  let f (o n : Nat) : Nat := if k.used then (match s.ringPlace q 0 false with | .ok t => leNat (s.tgtRead (t.off o) n) | _ => 0) else 0
  record [(4, f 8 4), (1, k.ctx), (1, k.cls + 128 * b2n k.priv), (2, f 0x10 2)]

/-- The entry of an engine. -/
def State.sumEngine (s : State) (e : Nat) : List Byte :=
  let k := s.engine e
  match k.job with
  | some j => record [(1, if k.withdrawn then 2 else 1), (1, j.ctx), (1, j.queue), (1, 0)]
  | none => record [(1, if k.withdrawn then 2 else 0), (3, 0)]

/-- FBSTAT (17 Table 17.4). -/
def Die.fbstat (d : Die) : Nat := d.widx % 2 ^ 16 + 2 ^ 16 * (d.ridx % 2 ^ 16) + 2 ^ 32 * (d.gen % 2 ^ 16) + 2 ^ 48 * (d.drop % 2 ^ 16)

/-- The spare that stands for a core: the spares' table lists 1 + the core's place in its cluster pair (01 R14). -/
def State.spareOf (s : State) (core : Nat) : Option Nat :=
  let j := core % 128 / 16
  if tget 0 (s.die (dieOfCore core)).spares j = core % 16 + 1 then some j else none

/-- A physical position of a die is retired (01 R14): a core's own, or a spare's that stood for a core now out. -/
def State.positionOut (s : State) (die p : Nat) : Bool :=
  if p < 128 then
    let core := 128 * die + p
    (s.core core).out || (s.spareOf core).isSome
  else
    let j := p - 128
    let k := tget 0 (s.die die).spares j
    k != 0 && (s.core (128 * die + 16 * j + (k - 1))).out

/-- The entry of a die's cores. -/
def State.sumDie (s : State) (d : Nat) : List Byte :=
  maskBytes 16 ((List.range 128).map fun k => !(s.core (128 * d + k)).out) ++ maskBytes 17 ((List.range 136).map (s.positionOut d)) ++
    (List.range 8).flatMap (fun j => let k := tget 0 (s.die d).spares j; leBytes 1 (if k = 0 then 0 else 128 + (k - 1))) ++
    maskBytes 2 ((List.range 16).map fun c => (s.cluster (16 * d + c)).matrixOut) ++ List.replicate 5 0

/-- The entry of a stack. -/
def State.sumStack (s : State) (k : Nat) : List Byte :=
  let t := s.stack k
  record [(4, t.spared.foldl (fun n e => n + e.2) 0), (2, t.banksOut.length)] ++ maskBytes 4 ((List.range 32).map fun c => !(s.cellar (32 * k + c)).out) ++
    record [(1, t.ways), (5, 0)]

/-- The summary's entries in ascending offset (17 Table 17.9): offset and bytes of entry n; none past the last. -/
def State.sumEntry (s : State) (n : Nat) : Option (Nat × List Byte) :=
  if n < 64 then some (8 * n, s.sumCtx n)
  else if n < 320 then some (0x200 + 8 * (n - 64), s.sumQueue (n - 64))
  else if n < 352 then some (0xA00 + 4 * (n - 320), s.sumEngine (n - 320))
  else if n < 360 then some (0xA80 + 16 * (n - 352), leBytes 8 (s.die (n - 352)).fbstat ++ record [(4, (s.die (n - 352)).waiting.length), (4, 0)])
  else if n = 360 then
    some (0xB00, maskBytes 8 ((List.range 64).map fun c => (s.ctx c).phase == .frozen) ++
      maskBytes 4 ((List.range 32).map fun e => (s.engine e).withdrawn) ++ leBytes 4 0)
  else if n < 369 then some (0xB10 + 48 * (n - 361), s.sumDie (n - 361))
  else if n < 385 then some (0xC90 + 16 * (n - 369), s.sumStack (n - 369))
  else if n < 417 then some (0xD90 + 4 * (n - 385), record [(1, b2n (s.port (n - 385)).up), (1, (s.port (n - 385)).spared), (2, 0)])
  else if n < 433 then some (0xE10 + 8 * (n - 417), leBytes 8 (tget 0 s.resyncCounters (n - 417)))
  else if n = 433 then some (0xE90, List.replicate 368 0)
  else none

/-- A step of a RESYNC: one entry sampled and written. -/
def State.resyncStep (s : State) (q : Nat) (c : PrivCmd) : Bool × State :=
  match s.sumEntry c.pos with
  | none => (true, s)
  | some (o, bs) =>
    ((s.sumEntry (c.pos + 1)).isNone, (s.homeStore (fieldAt c.bytes 0x10 8 + o) bs).setQ q fun k => { k with cmd := some { c with pos := c.pos + 1 } })

/-- RESYNC (17 R348). -/
def execResync (q : Nat) (s : State) : Out :=
  queueOk s q (s.carryOn q 143 (fun s c => s.resyncStep q c) (s.command q 143 [(0x18, 32)] fun s b _ =>
    let a := fieldAt b 0x10 8
    checked [(a % 4096 != 0 || decide (2 ^ 40 ≤ a), 1, 0x10)] (.more s)))

/-! ### ROUTESET (12 R246) -/

/-- Every request sent under the old entries has its answer: the new table is in effect, and what was held is sent. -/
def State.routeTry (s : State) (table : Nat) : Bool × State :=
  if s.reqs.any fun r => r.hold == .sent then (false, s)
  else
    let held := (s.reqs.filter fun r => r.hold == .route).map (·.tag)
    (true, held.foldl State.resend { s with routeTable := table, routeHeld := false, routeOld := [] })

/-- ROUTESET (12 R246): entries read before are discarded, and new requests held. -/
def execRouteset (q : Nat) (s : State) : Out :=
  queueOk s q (s.command q 144 [(0x18, 32)] fun s b _ =>
    let t := fieldAt b 0x10 8
    checked [(t % 2 ^ 21 != 0 || decide (2 ^ 40 ≤ t), 1, 0x10), (s.routeHeld, 2, 0x10)]
      (match State.routeTry { s with routeOld := [], routeHeld := true } t with | (true, s) => .done s | (false, s) => .more s))

/-- ROUTESET_COMPLETE (12 R246). -/
def execRoutesetComplete (q : Nat) (s : State) : Out := queueOk s q (s.carryOn q 144 (fun s c => s.routeTry (fieldAt c.bytes 0x10 8)) s)

end Sys2Proof.Machine
end

