-- ==== Sys2Proof/Machine/Recovery.lean ====
section
/-! DEFINITION. Retirement of cores, of a cluster's matrix resources and of cellar cores, and the sparing of rows (01 R14; 17 R345, R346). That a
unit has failed its retries is an input (17 R343; log 1). -/
namespace Sys2Proof.Machine

/-! ### Cores (17 R346) -/

/-- The resident teams that a test picks begin a save, where none is under way. -/
def State.saveThose (s : State) (p : Team → Bool) : State :=
  ((s.teams.filter fun e => e.2.phase == .resident && p e.2 && e.2.saving.isNone && !e.2.noRoom).map (·.1)).foldl
    (fun s t => s.beginSave t false) s

/-- The saves under way of the teams that a test picks go on by a step. -/
def State.saveOn (s : State) (p : Team → Bool) : State :=
  ((s.teams.filter fun e => e.2.phase == .resident && p e.2 && e.2.saving.isSome).map (·.1)).foldl State.saveStep s

/-- The guests of a core. -/
def State.guestsOf (s : State) (core : Nat) : List Nat :=
  (s.groups.filter fun e => e.2.kind == .core && e.2.place == core && e.2.isGuest).map (·.1)

/-- A suspect core is empty. -/
def State.emptied (s : State) (core : Nat) : Bool :=
  !(s.teams.any fun e => e.2.phase == .resident && e.2.core == core) && (s.guestsOf core).isEmpty

/-- A team restored on the spare that stands for its core; an image with an error ends it (17 R342). One whose bins or sequencer context another team
has taken meanwhile goes to the head of its class list (17 R341, R346). -/
def State.restoreHere (s : State) (core tid : Nat) : State :=
  let t := s.team tid
  if t.phase ≠ .swapped then s
  else if s.swapCut core t.ctx || !s.fits (s.grid t.grid).launch (if t.binQuota = 0 then none else some t.binBase) core then s.setT tid fun t => { t with queuedAt := 0 }
  else if s.imgSpoiled tid (s.layout tid) then s.spoilTeam tid core
  else s.restoreTeam tid core

/-- A core's spare takes its ID, or the ID leaves service (01 R14; 17 R346, Table 17.6). -/
def State.retireCore (s : State) (core : Nat) : State :=
  let die := dieOfCore core
  let j := core % 128 / 16
  let ts := (s.core core).retiring.getD []
  let s := s.setC core fun c => { c with retiring := none }
  if tget 0 (s.die die).spares j = 0 then
    let s := s.setD die fun d => { d with spares := tput d.spares j (core % 16 + 1) }
    (ts.foldl (fun s t => s.restoreHere core t) s).postHw die 1 (core + 65536 * die) (j + 256 * core)
  else
    let s := s.setC core fun c => { c with out := true }
    let s := ts.foldl (fun s t => if (s.team t).phase = .swapped then s.setT t fun t => { t with queuedAt := 0 } else s) s
    s.postHw die 2 (core + 65536 * die) core

/-- One step of a suspect core's retirement: its teams' saves and its guests' returns go on; once it is empty it is retired. -/
def State.retireStep (s : State) (core : Nat) : State :=
  let mine (t : Team) : Bool := t.core == core
  let s := ((s.guestsOf core).foldl State.recallGuest s).saveThose mine
  let s := s.saveOn mine
  if s.emptied core then s.retireCore core else s

/-- CORE_RETIREMENT (17 R346). -/
def execCoreRetirement (core : Nat) (s : State) : Out :=
  unitStep s (decide (core < 1024))
    (if (s.core core).out then s
     else if (s.core core).retiring.isSome then s.retireStep core
     else ((s.suspect core).tally 7).retireStep core)

/-! ### Matrix resources and cellar cores (17 R346) -/

/-- A team has matrix resources. -/
def Team.hasMatrix (t : Team) : Bool := t.zAlloc != 0 || t.binQuota != 0 || t.seqGid != 0

/-- MATRIX_RESOURCE_RETIREMENT (17 R346): from then on the cluster places only teams without them; its teams that have them are saved. -/
def execMatrixResourceRetirement (cluster : Nat) (s : State) : Out :=
  unitStep s (decide (cluster < 128))
    (let mine (t : Team) : Bool := clusterOfCore t.core == cluster && t.hasMatrix
     let s := if (s.cluster cluster).matrixOut then s
       else ((s.setCl cluster fun c => { c with matrixOut := true }).tally 7).postHw (dieOfCluster cluster) 3 (65536 * dieOfCluster cluster + 2 ^ 20) cluster
     (s.saveThose mine).saveOn mine)

/-- The guests of a cellar core go home. -/
def State.cellarHome (s : State) (cellar : Nat) : State := (s.cellar cellar).guests.foldl State.recallGuest s

/-- The call that runs on a cellar core. -/
def State.callOn (s : State) (cellar : Nat) : Option Nat := (s.calls.find? fun e => e.2.started && e.2.members.contains cellar).map (·.1)

/-- CELLAR_CORE_RETIREMENT (17 R346): the call that runs on it completes with STATE 3. -/
def execCellarCoreRetirement (cellar : Nat) (s : State) : Out :=
  unitStep s (decide (cellar < 512))
    (let die := cellar / 64
     let fresh := !(s.cellar cellar).out
     let s := s.setCe cellar fun c => { c with out := true }
     let s := match s.callOn cellar with | some n => (s.setCall n fun k => { k with aborted := true }).completeCall n | none => s
     let s := s.cellarHome cellar
     if fresh then (s.tally 7).postHw die 3 (cellar + 65536 * die + 3 * 2 ^ 19) (cellar + 2 ^ 16) else s)

/-! ### Rows (17 R345) -/

/-- ROW_SPARING (17 R345): a row is moved to a spare row of its bank; no byte and no poison changes. Whether it was the bank's last spare row is
open (log 2). -/
def execRowSparing (stack channel bank : Nat) (s : State) : Out :=
  unitStep s (decide (stack < 16 ∧ channel < 32 ∧ bank < 128))
    (let k := channel * 128 + bank
     let d := stack + 16 * channel + 512 * bank
     let die := stack / 2
     if (s.stack stack).banksOut.contains k then s
     else
       let s := (s.setS stack fun t => { t with spared := tput t.spared k (tget 0 t.spared k + 1) }).postHw die 4 (65536 * die) d
       let (last, s) := s.pick 2
       if last = 0 then s else (s.setS stack fun t => { t with banksOut := t.banksOut ++ [k] }).postHw die 5 (65536 * die) d)

end Sys2Proof.Machine
end

