-- ==== Sys2Proof/Machine/HostRegs.lean ====
section
/-! DEFINITION. The host link: reset and boot, accesses to device memory, the registers of BAR0, messages (09 R175 to R177; 10 R197; 12 R249;
17 R335; 19 R357 to R362). -/
namespace Sys2Proof.Machine

/-! ### Reset and boot (19 R362) -/

/-- The fused minimum in effect: the one of manufacture, or a later one (19 R362). -/
def State.minVersion (s : State) : Nat := max Config.fusedVersion s.fusedMin

/-- CAUSE of a boot that fails before the firmware starts; 0 for one that does not (19 Table 19.2). -/
def bootCause (b : BootInput) (min_ : Nat) : Nat :=
  if sha512 b.key ≠ Config.keyDigest then 1
  else if !pssVerify b.key (sha512 b.image) b.signature then 2
  else if Config.imageVersion b.image < min_ then 3
  else 0

/-- BOOTSTAT (19 Table 19.2). -/
def bootWord (svn cause st : Nat) : Dword := BitVec.ofNat 64 (2 ^ 32 * (svn % 2 ^ 32) + 256 * cause + st)

/-- The spares that the firmware loads (19 R362). -/
def State.loadSpares (s : State) (b : BootInput) : State :=
  let s := b.cores.foldl (fun s c => s.setC c fun k => { k with out := true }) s
  let s := b.spares.foldl (fun s e => s.setD (e.1 / 8) fun d => { d with spares := tput d.spares (e.1 % 8) e.2 }) s
  b.rows.foldl (fun s e => s.setS e.1 fun t => { t with spared := tput t.spared e.2.1 e.2.2 }) s

/-- The firmware runs: dies, stacks and links are trained and spares loaded. -/
def State.firmware (s : State) (b : BootInput) : State :=
  let s := { s with hstatWidth := b.width % 32, hstatRate := b.rate % 16 }
  let v := Config.imageVersion b.image
  if b.trained then State.loadSpares { s with bootstat := bootWord v 0 2 } b else { s with bootstat := bootWord v 4 3 }

/-- The module at reset; what is not the module's own state stays: the host's memory, the fuses, the sensors, what has been sent, the turns to
come, the count of free values (log 1, 2). -/
def State.cleared (s : State) (b : BootInput) : State :=
  { State.reset with boot := b, hostMem := s.hostMem, hostPoison := s.hostPoison, fusedMin := s.fusedMin, power := s.power, temp := s.temp, wire := s.wire, hostOut := s.hostOut,
                     mgmtOut := s.mgmtOut, agenda := s.agenda, fresh := s.fresh }

/-- MODULE_RESET (19 R362): reset; die 0's boot code has read the image and verifies it, with STATE 1. -/
def execModuleReset (b : BootInput) (s : State) : Out := .next { s.cleared b with bootstat := bootWord 0 0 1 }

/-- The boot code that verifies ends (19 R362): it fails, or it starts the firmware; vector 8 follows (19 R361). -/
def State.bootEnds (s : State) : State :=
  if s.bootstat.toNat % 16 ≠ 1 then s
  else
    let c := bootCause s.boot s.minVersion
    (if c = 0 then s.firmware s.boot else { s with bootstat := bootWord 0 c 3 }).raise 8

/-- BOOTSTAT.STATE is 2. -/
def State.booted (s : State) : Bool := s.bootstat.toNat % 16 == 2

/-- An answer to the host (log 1): 0 a message's vector, 1 a register's value, 2 bytes read, 3 poison, 4 a write's completion. -/
def State.toHost (s : State) (kind v : Nat) : State := { s with hostOut := s.hostOut ++ [(kind, v)] }

/-! ### Registers (19 R359, R360) -/

/-- HERR is set (19 R360). -/
def State.refuseWrite (s : State) : State := { s with herr := true }

/-- NODEID is written (19 R360). -/
def State.putNodeid (s : State) (v : Dword) : State := if s.porten ≠ 0 then s.refuseWrite else { s with nodeid := v.setWidth 19 }
/-- Q0RING is written (19 R360): bits 39:6. -/
def State.putQ0ring (s : State) (v : Dword) : State :=
  if s.q0ctl.getLsbD 31 then s.refuseWrite else { s with q0ring := v &&& 0xFFFFFFFFC0 }

/-- Q0CTL is written (19 R360): EN makes queue 0 a privileged queue of class 0; without EN it takes nothing more. -/
def State.putQ0ctl (s : State) (v : Dword) : State :=
  let n := v.toNat % 32
  let en := v.getLsbD 31
  if en && !decide (6 ≤ n ∧ n ≤ 16) then s.refuseWrite
  else
    let s := { s with q0ctl := v &&& 0x8000001F }
    let ring := s.q0ring.toNat
    if en then s.setQ 0 fun q => { cmd := q.cmd, used := true, priv := true, entries := 2 ^ n, ring := ring } else s.setQ 0 fun q => { q with used := false }

/-- WCAGE is written (10 R197, Table 10.8). -/
def State.putWcage (s : State) (v : Dword) : State :=
  let n := v.toNat % 2 ^ 17
  if 64 ≤ n ∧ n ≤ 64000 then { s with wcage := n } else s
/-- FTMO is written (12 Table 12.3). -/
def State.putFtmo (s : State) (v : Dword) : State :=
  let n := v.toNat % 2 ^ 20
  if 10 ≤ n ∧ n ≤ 1000000 then { s with ftmo := n } else s
/-- PWRCAP is written (19 Table 19.3). -/
def State.putPwrcap (s : State) (v : Dword) : State :=
  let n := v.toNat % 2 ^ 16
  if 2000 ≤ n ∧ n ≤ 8000 then State.watchPower { s with pwrcap := BitVec.ofNat 16 n } else s.refuseWrite

/-- A unit is busy as its register is written: open, for the model's accesses are whole steps (09 R177; log 2). -/
def State.busyNow (s : State) : Bool × State := let (k, s) := s.pick 2; (k == 1, s)

/-- FBBASE's value goes into effect (17 Table 17.3). -/
def State.setFbbase (s : State) (die : Nat) (v : Dword) : State := s.setD die fun d => { d with fbbase := v &&& 0xFFFFFE0001, fbPend := none }

/-- FBBASE is written (09 R177). -/
def State.putFbbase (s : State) (die : Nat) (v : Dword) : State :=
  match s.busyNow with
  | (true, s) => s.setD die fun d => { d with fbPend := some v }
  | (false, s) => s.setFbbase die v

/-- FBSTAT is written (17 Table 17.4): RIDX, unless it would pass WIDX. -/
def State.putFbstat (s : State) (die : Nat) (v : Dword) : State :=
  let r := bitsOf v.toNat 31 16
  let d := s.die die
  if (r + 65536 - d.ridx) % 65536 ≤ (d.widx + 65536 - d.ridx) % 65536 then s.setD die fun d => { d with ridx := r } else s

/-- PA bits 12:7 of a stack's cells under fold registers (09 R175): the fold is its own inverse. -/
def fold (ch pc : Word) (a : Nat) : Nat :=
  let c := if ch.getLsbD 31 then bitsOf a (ch.toNat % 64 + 4) (ch.toNat % 64) else 0
  let p := if pc.getLsbD 31 then a / 2 ^ (pc.toNat % 64) % 2 else 0
  a ^^^ (256 * c + 128 * p)

/-- Where a cell stands once a stack's fold registers have changed (09 R176). -/
def refold (stack : Nat) (ch pc ch' pc' : Word) (a : Nat) : Nat := if a / 2 ^ 36 = stack then fold ch' pc' (fold ch pc a) else a

/-- New fold registers of a stack: the cells stand as they did, at other addresses (09 R176). -/
def State.setFold (s : State) (stack : Nat) (ch' pc' : Word) : State :=
  let k := s.stack stack
  let f := refold stack k.hmaskCh k.hmaskPc ch' pc'
  let cell (m : Memory) (c : Host.Cell) : Memory := mwrite m (f c.1) c.2
  let s := State.poisonSectors { s with mem := s.mem.foldl cell [], poison := [] } (s.poison.map fun q => f (64 * q) / 64)
  s.setS stack fun k => { k with hmaskCh := ch', hmaskPc := pc' }

/-- HMASK.CH is written (09 R175, R177): a LOW that is not 13 to 31 sets STATUS.ERR alone. -/
def State.putHmaskCh (s : State) (stack : Nat) (v : Dword) : State :=
  let w := v.setWidth 32 &&& 0x8000003F
  if !decide (13 ≤ w.toNat % 64 ∧ w.toNat % 64 ≤ 31) then s.setS stack fun k => { k with err := true }
  else
    match s.busyNow with
    | (true, s) => s.setS stack fun k => { k with chPend := some w }
    | (false, s) => (s.setFold stack w (s.stack stack).hmaskPc).setS stack fun k => { k with chPend := none }

/-- HMASK.PC is written (09 R175, R177): a BIT that is not 13 to 35 sets STATUS.ERR alone. -/
def State.putHmaskPc (s : State) (stack : Nat) (v : Dword) : State :=
  let w := v.setWidth 32 &&& 0x8000003F
  if !decide (13 ≤ w.toNat % 64 ∧ w.toNat % 64 ≤ 35) then s.setS stack fun k => { k with err := true }
  else
    match s.busyNow with
    | (true, s) => s.setS stack fun k => { k with pcPend := some w }
    | (false, s) => (s.setFold stack (s.stack stack).hmaskCh w).setS stack fun k => { k with pcPend := none }

/-- A write of BAR0 of 8 bytes (19 R359): at a multiple of 8; before the module is ready nothing but BOOTSTAT answers (19 R362). -/
def State.barWrite (s : State) (off : Nat) (v : Dword) : State :=
  if !s.booted || off % 8 != 0 then s
  else if off = 0x10 then s.putNodeid v
  else if off = 0x18 then { s with porten := v.setWidth 32 }
  else if off = 0x20 then s.putWcage v
  else if off = 0x28 then s.putFtmo v
  else if off = 0x40 then s.putQ0ring v
  else if off = 0x48 then s.putQ0ctl v
  else if 0x100 ≤ off ∧ off < 0x180 then (if off % 16 = 0 then s.putFbbase ((off - 0x100) / 16) v else s.putFbstat ((off - 0x100) / 16) v)
  else if off = 0x200 then s.putPwrcap v
  else if 0x400 ≤ off ∧ off < 0x480 then s.putHmaskCh ((off - 0x400) / 8) v
  else if 0x480 ≤ off ∧ off < 0x500 then s.putHmaskPc ((off - 0x480) / 8) v
  else s

/-- HSTAT (19 Table 19.1). -/
def State.hstat (s : State) : Nat := s.hstatWidth + 256 * s.hstatRate + 2 ^ 16 * b2n s.herr
/-- PWRSTAT (19 Table 19.1). -/
def State.pwrstat (s : State) : Nat := s.power % 2 ^ 16 + 2 ^ 16 * (s.temp % 256) + 2 ^ 24 * b2n (s.clock < 4000) + 2 ^ 25 * b2n s.thermalStop
/-- HSTATUS of a stack (19 Table 19.1). -/
def Stack.hstatus (k : Stack) : Nat := b2n (k.chPend.isSome || k.pcPend.isSome) + 2 * b2n k.err

/-- What a read of BAR0 gives (19 R359, R362). -/
def State.barRead (s : State) (off : Nat) : Nat :=
  if off = 0 then s.bootstat.toNat
  else if !s.booted || off % 8 != 0 then 0
  else if off = 0x08 then s.hstat
  else if off = 0x10 then s.nodeid.toNat
  else if off = 0x18 then s.porten.toNat
  else if off = 0x20 then s.wcage
  else if off = 0x28 then s.ftmo
  else if off = 0x40 then s.q0ring.toNat
  else if off = 0x48 then s.q0ctl.toNat
  else if 0x100 ≤ off ∧ off < 0x180 then
    (let d := s.die ((off - 0x100) / 16)
     if off % 16 = 0 then d.fbbase.toNat else d.fbstat)
  else if off = 0x200 then s.pwrcap.toNat
  else if off = 0x208 then s.pwrstat
  else if 0x400 ≤ off ∧ off < 0x480 then (s.stack ((off - 0x400) / 8)).hmaskCh.toNat
  else if 0x480 ≤ off ∧ off < 0x500 then (s.stack ((off - 0x480) / 8)).hmaskPc.toNat
  else if 0x500 ≤ off ∧ off < 0x580 then (s.stack ((off - 0x500) / 8)).hstatus
  else 0

/-- A read of BAR0 (19 R359, R360): 8 bytes at a multiple of 8, and zero otherwise; HSTAT's clears HERR. -/
def State.readReg (s : State) (off width : Nat) : State :=
  if width ≠ 8 then s.toHost 1 0
  else if off = 8 ∧ s.booted = true then State.toHost { s with herr := false } 1 s.hstat
  else s.toHost 1 (s.barRead off)

/-! ### Accesses by the host link (19 R357 to R359) -/

/-- A host address lies in the HDM range, the access within one line (19 R358). -/
def State.hdmSpan (s : State) (hpa n : Nat) : Bool :=
  let pa := hpa - s.hdmBase
  decide (s.hdmBase ≤ hpa ∧ 0 < n ∧ pa / 256 = (pa + n - 1) / 256 ∧ pa + n ≤ 2 ^ 40)

/-- Device memory can be reached from the host link: the die link on the way is up, and no copy engine owns the line (10 R187; 17 R344). -/
def State.hdmOpen (s : State) (pa n : Nat) : Bool := !s.cut 0 (dieOfPa pa) && !s.recalls pa n

/-- An access of the host performed, or none where it waits (19 R357 to R359, R362): until the module is ready, device memory answers poison. -/
def State.hostTry (s : State) (a : HostAcc) : Option State :=
  if s.down.contains .cxl then none
  else
    match a with
    | .read hpa n =>
      let pa := hpa - s.hdmBase
      if !s.booted then some (s.toHost 3 n)
      else if !s.hdmOpen pa n then none
      else if s.homePoison pa n then some (s.toHost 3 n)
      else some (s.toHost 2 (leNat (s.homeRead pa n)))
    | .write hpa bs =>
      let pa := hpa - s.hdmBase
      if !s.booted then some (s.toHost 3 0)
      else if !s.hdmOpen pa bs.length then none
      else some ((s.homeStore pa bs).toHost 4 hpa)
    | .regRead off w => some (s.readReg off w)
    | .regWrite off w v => some (if w = 8 then s.barWrite off v else s)

/-- Two accesses of the host keep their order: those of one line, and those of BAR0. -/
def HostAcc.meets : HostAcc → HostAcc → Bool
  | .read a _, .read b _ => a / 256 == b / 256
  | .read a _, .write b _ => a / 256 == b / 256
  | .write a _, .read b _ => a / 256 == b / 256
  | .write a _, .write b _ => a / 256 == b / 256
  | .regRead _ _, .regRead _ _ => true
  | .regRead _ _, .regWrite _ _ _ => true
  | .regWrite _ _ _, .regRead _ _ => true
  | .regWrite _ _ _, .regWrite _ _ _ => true
  | .read _ _, .regRead _ _ => false
  | .read _ _, .regWrite _ _ _ => false
  | .write _ _, .regRead _ _ => false
  | .write _ _, .regWrite _ _ _ => false
  | .regRead _ _, .read _ _ => false
  | .regRead _ _, .write _ _ => false
  | .regWrite _ _ _, .read _ _ => false
  | .regWrite _ _ _, .write _ _ => false

/-- An access of the host: performed, or left to wait (19 R357). -/
def State.hostAccess (s : State) (a : HostAcc) : State :=
  match (if s.hostWaits.any fun w => w.meets a then none else s.hostTry a) with
  | some t => t
  | none => { s with hostWaits := s.hostWaits ++ [a] }

/-- Access k of those that wait goes on where it can and none before it must go first. -/
def State.hostGo (s : State) (k : Nat) : State :=
  match s.hostWaits[k]? with
  | none => s
  | some a =>
    if (s.hostWaits.take k).any fun w => w.meets a then s
    else
      match s.hostTry a with
      | some t => { t with hostWaits := s.hostWaits.eraseIdx k }
      | none => s

/-- The accesses that wait go on in order (17 R344; 19 R357). -/
def State.hostAll (s : State) : State := s.hostWaits.foldl State.hostAccess { s with hostWaits := [] }

/-- CXL_MEM_READ (19 R358, R362). -/
def execCxlMemRead (hpa n : Nat) (s : State) : Out := unitStep s (s.hdmSpan hpa n) (s.hostAccess (.read hpa n))
/-- CXL_MEM_WRITE (19 R358, R362): performed at the home before its completion. -/
def execCxlMemWrite (hpa : Nat) (data : List Byte) (s : State) : Out := unitStep s (s.hdmSpan hpa data.length) (s.hostAccess (.write hpa data))

/-- NODEID_WRITE (19 R360). -/
def execNodeidWrite (v : Dword) (s : State) : Out := .next (s.hostAccess (.regWrite 0x10 8 v))
/-- Q0RING_WRITE (19 R360). -/
def execQ0ringWrite (v : Dword) (s : State) : Out := .next (s.hostAccess (.regWrite 0x40 8 v))
/-- Q0CTL_WRITE (19 R360). -/
def execQ0ctlWrite (v : Dword) (s : State) : Out := .next (s.hostAccess (.regWrite 0x48 8 v))
/-- WCAGE_WRITE (10 R197). -/
def execWcageWrite (v : Dword) (s : State) : Out := .next (s.hostAccess (.regWrite 0x20 8 v))
/-- FTMO_WRITE (12 R249). -/
def execFtmoWrite (v : Dword) (s : State) : Out := .next (s.hostAccess (.regWrite 0x28 8 v))
/-- FBBASE_WRITE (09 R177; 17 R335). -/
def execFbbaseWrite (die : Nat) (v : Dword) (s : State) : Out := unitStep s (decide (die < 8)) (s.hostAccess (.regWrite (0x100 + 16 * die) 8 v))
/-- FBSTAT_WRITE (17 R335). -/
def execFbstatWrite (die : Nat) (v : Dword) (s : State) : Out := unitStep s (decide (die < 8)) (s.hostAccess (.regWrite (0x108 + 16 * die) 8 v))
/-- HMASK_CH_WRITE (09 R175). -/
def execHmaskChWrite (stack : Nat) (v : Dword) (s : State) : Out := unitStep s (decide (stack < 16)) (s.hostAccess (.regWrite (0x400 + 8 * stack) 8 v))
/-- HMASK_PC_WRITE (09 R175). -/
def execHmaskPcWrite (stack : Nat) (v : Dword) (s : State) : Out := unitStep s (decide (stack < 16)) (s.hostAccess (.regWrite (0x480 + 8 * stack) 8 v))
/-- REGISTER_WRITE (19 R359): any write of 8 bytes in BAR0. -/
def execRegisterWrite (off : Nat) (v : Dword) (s : State) : Out := .next (s.hostAccess (.regWrite off 8 v))

/-- HSTAT_READ (19 R360): the read clears HERR. -/
def execHstatRead (s : State) : Out := .next (s.hostAccess (.regRead 8 8))

/-- LINK_RETRAINED (17 R344; 19 R357): the traffic that waited goes on, and a crate's wait for a place counts from then; the host link reports the width and the rate to which it has trained. -/
def execLinkRetrained (r : Retrained) (s : State) : Out :=
  unitStep s (linkExists r.link)
    (match r.link with
     | .port p => s.setP p fun k => { k with up := true, fails := 0 }
     | .ucie _ =>
       let crates := s.crates.map fun c => if c.outbound && s.crateCut c then { c with sentAt := s.now } else c
       State.hostAll ((s.reqs.filter (·.hold == .cut)).foldl (fun s r => s.resend r.tag) { s with down := s.down.filter (· != r.link), crates := crates })
     | .cxl => State.hostAll { s with down := s.down.filter (· != r.link), hstatWidth := r.width % 32, hstatRate := r.rate % 16 })

/-- A value held pending goes into effect; nothing where none is pending. -/
def State.applyPending (s : State) : CfgUnit → State
  | .hmaskCh k =>
    (match (s.stack k).chPend with | some w => (s.setFold k w (s.stack k).hmaskPc).setS k fun t => { t with chPend := none } | none => s)
  | .hmaskPc k =>
    (match (s.stack k).pcPend with | some w => (s.setFold k (s.stack k).hmaskCh w).setS k fun t => { t with pcPend := none } | none => s)
  | .fbbase d => (match (s.die d).fbPend with | some v => s.setFbbase d v | none => s)

/-- A unit of the module. -/
def CfgUnit.there : CfgUnit → Bool
  | .hmaskCh k => decide (k < 16)
  | .hmaskPc k => decide (k < 16)
  | .fbbase d => decide (d < 8)

/-- CONFIG_PENDING_APPLY (09 R177): between two accesses. -/
def execConfigPendingApply (u : CfgUnit) (s : State) : Out := unitStep s (CfgUnit.there u) (s.applyPending u)

/-! ### Messages (19 R361) -/

/-- A message may go out: the vector is due, its last is 1 µs old, and the link is up. -/
def State.msiReady (s : State) (vec : Nat) : Bool :=
  s.msiDue.contains vec && !s.down.contains .cxl && (!thas s.msiAt vec || decide (tget 0 s.msiAt vec + usTicks ≤ s.now))

/-- MSI_X_MESSAGE (19 R361): messages that fall due within a µs of a vector's last are one, sent at its end. -/
def execMsiXMessage (vec : Nat) (s : State) : Out :=
  unitStep s (decide (vec < 9))
    (if s.msiReady vec then State.toHost { s with msiDue := s.msiDue.filter (· != vec), msiAt := tput s.msiAt vec s.now } 0 vec else s)

end Sys2Proof.Machine
end

