-- ==== Sys2Proof/Machine/Lane.lean ====
section
/-! DEFINITION. Lane exchange, votes, reductions and scans (06 R128 to R132). -/
namespace Sys2Proof.Machine

/-- SETLX (06 R128): its immediate is unsigned and has no bit above 17 set (03 Table 3.4). -/
def execSetlx (i : BitVec 11) (e : Bool) (s : State) : Out := s.runOk avCore [] e (s.modG fun g => g.setLx (s.immU i))

/-- An exchange (06 R129): each lane l of the batch reads lane `m l` of register a; b is uniform where `uni` says so, which is decided before the
scoreboard (03 R62). -/
def State.opXch (s : State) (d a : Reg) (b : Option Src) (uni : Bool) (e : Bool) (m : Nat → Nat) : Out :=
  let bs := match b with | some x => [srcRef x] | none => []
  let rs := [{ cls := 0, field := a.toNat }] ++ bs ++ [vdst d]
  s.runChecks
    [s.checkRegs avCore rs,
     (match b with | some x => if uni then s.checkUniform x else .ok () | none => .ok ()),
     s.checkPending rs,
     s.poisonPairs (s.batch.map fun l => (s.g.phys l a, m l)),
     (match s.poisonTrap bs with | some t => .error (.trap t) | none => .ok ())]
    e (s.writeV d fun l => ([s.g.vval (m l) (s.g.phys l a)], 0))

/-- The uniform operand n of an exchange. -/
def State.xchN (s : State) (b : Src) : Nat := (s.g.src s.lane0 b).toNat

/-- XCH.ROT (06 R129). -/
def execXchRot (d a : Reg) (b : Src) (e : Bool) (s : State) : Out :=
  s.opXch d a (some b) true e fun l => (l + s.xchN b) % s.g.width
/-- XCH.XOR (06 R129). -/
def execXchXor (d a : Reg) (b : Src) (e : Bool) (s : State) : Out :=
  s.opXch d a (some b) true e fun l => l ^^^ (s.xchN b % s.g.width)
/-- XCH.BCAST (06 R129). -/
def execXchBcast (d a : Reg) (b : Src) (e : Bool) (s : State) : Out :=
  s.opXch d a (some b) true e fun _ => s.xchN b % s.g.width
/-- XCH.MIRROR (06 R129). -/
def execXchMirror (d a : Reg) (e : Bool) (s : State) : Out := s.opXch d a none false e fun l => s.g.width - 1 - l
/-- XCH.IDX (06 R129): b is each fibre's own. -/
def execXchIdx (d a : Reg) (b : Src) (e : Bool) (s : State) : Out :=
  s.opXch d a (some b) false e fun l => (s.g.src l b).toNat % s.g.width
/-- XCH.SHUP (06 R129). -/
def execXchShup (d a : Reg) (b : Src) (e : Bool) (s : State) : Out :=
  s.opXch d a (some b) true e fun l => if s.xchN b ≤ l then l - s.xchN b else l
/-- XCH.SHDN (06 R129). -/
def execXchShdn (d a : Reg) (b : Src) (e : Bool) (s : State) : Out :=
  s.opXch d a (some b) true e fun l => if l + s.xchN b < s.g.width then l + s.xchN b else l

/-- The batch's lanes whose Pb is set, as a mask (06 R130). -/
def State.votes (s : State) (b : PReg) : Nat := maskOf (s.batch.filter fun l => s.g.pbit l b.toNat)

/-- VOTE.ANY (06 R130). -/
def execVoteAny (a b : PReg) (e : Bool) (s : State) : Out :=
  s.runOk avVec [pref b.toNat, pref a.toNat] e (s.writeP a fun _ => (s.batch.any fun l => s.g.pbit l b.toNat, 0))
/-- VOTE.ALL (06 R130). -/
def execVoteAll (a b : PReg) (e : Bool) (s : State) : Out :=
  s.runOk avVec [pref b.toNat, pref a.toNat] e (s.writeP a fun _ => (s.batch.all fun l => s.g.pbit l b.toNat, 0))
/-- VOTE.BALLOT (06 R130): a pair of a width-64 group. -/
def execVoteBallot (a : Reg) (b : PReg) (e : Bool) (s : State) : Out :=
  let w := s.g.width == 64
  s.runOk avVec [pref b.toNat, sref a (if w then 2 else 1)] e (s.writeS a (wordsOf w (s.votes b)))
/-- VOTE.MATCH (06 R130). -/
def execVoteMatch (a c : Reg) (e : Bool) (s : State) : Out :=
  let w := s.g.width == 64
  s.vecOp avVec [vsrc c] a (if w then 2 else 1) e fun l =>
    (wordsOf w (maskOf (s.batch.filter fun k => s.g.vval k (s.g.phys k c) == s.g.vval l (s.g.phys l c))), 0)
/-- VOTE.POPC (06 R130). -/
def execVotePopc (a : Reg) (b : PReg) (e : Bool) (s : State) : Out :=
  s.runOk avVec [pref b.toNat, sref a] e (s.writeS a [w32 (s.batch.filter fun l => s.g.pbit l b.toNat).length])

/-- The modes of a reduction's F32 steps (06 R131): RNE, DAZ done at the inputs. -/
def stepMode (md : FpMode) : FpMode := { md with rmode := .rne, daz := false }

/-- One step of a reduction, with flags (06 R131). -/
def redStep (m : RedForm) (md : FpMode) (a b : Nat) : Nat × Nat :=
  match m with
  | .addI32 => ((a + b) % 2 ^ 32, 0)
  | .addF32 => fAdd fF32 (stepMode md) false a b
  | .minI32 => (mmLane .i32 false a b, 0)
  | .maxI32 => (mmLane .i32 true a b, 0)
  | .minF32 => fMinMax fF32 (stepMode md) false a b
  | .maxF32 => fMinMax fF32 (stepMode md) true a b
  | .and => (a &&& b, 0)
  | .or => (a ||| b, 0)

/-- Identities (06 R131). -/
def redIdent : RedForm → Nat
  | .addI32 => 0 | .addF32 => 0x80000000 | .minI32 => 0x7FFFFFFF | .maxI32 => 0x80000000 | .minF32 => 0x7F800000 | .maxF32 => 0xFF800000
  | .and => 0xFFFFFFFF | .or => 0

/-- The form works on F32 values. -/
def redIsF : RedForm → Bool
  | .addF32 => true | .minF32 => true | .maxF32 => true | .addI32 => false | .minI32 => false | .maxI32 => false | .and => false | .or => false

/-- An input as read: DAZ acts on F32 inputs (06 R131). -/
def redInput (m : RedForm) (md : FpMode) (x : Nat) : Nat := if redIsF m then asRead fF32 x (unpack fF32 md.daz x) else x

/-- The input vector of a reduction or scan: identities outside the batch (06 R131, R132). -/
def State.redVector (s : State) (m : RedForm) (a : Src) : List Nat :=
  (List.range s.g.width).map fun l => if s.batch.contains l then redInput m s.md (s.g.src l a).toNat else redIdent m

/-- The steps at distances d, 2d, … below the width: lane l combines with the lane that `partner` names, or keeps its value; the values
and the gathered flags (06 R131, R132). -/
def treeSteps (op : Nat → Nat → Nat × Nat) (partner : Nat → Nat → Option Nat) (w : Nat) : Nat → Nat → List Nat × Nat → List Nat × Nat
  | 0, _, x => x
  | n + 1, d, x =>
    if w ≤ d then x
    else
      let y := (List.range w).map fun l =>
        match partner d l with
        | some k => op (x.1.getD k 0) (x.1.getD l 0)
        | none => (x.1.getD l 0, 0)
      treeSteps op partner w n (2 * d) (y.map (·.1), y.foldl (fun f r => f ||| r.2) x.2)

/-- REDL (06 R131). -/
def execRedl (m : RedForm) (d : Reg) (a : Src) (e : Bool) (s : State) : Out :=
  let r := treeSteps (fun x y => redStep m s.md y x) (fun k l => some (l ^^^ k)) s.g.width 6 1 (s.redVector m a, 0)
  s.vecOp avVec [srcRef a] d 1 e fun l => ([w32 (r.1.getD l 0)], r.2)

/-- The reduction form a scan's operation is (06 R132). -/
def scanRed : ScanOp → RedForm | .addI32 => .addI32 | .addF32 => .addF32 | .maxI32 => .maxI32 | .minI32 => .minI32
/-- What lane 0 of an exclusive scan receives (06 R132). -/
def scanFirst : ScanOp → Nat | .addI32 => 0 | .addF32 => 0 | .maxI32 => 0x80000000 | .minI32 => 0x7FFFFFFF

/-- SCANL (06 R132). -/
def execScanl (m : ScanOp) (x : Bool) (d : Reg) (a : Src) (e : Bool) (s : State) : Out :=
  let r := treeSteps (redStep (scanRed m) s.md) (fun k l => if k ≤ l then some (l - k) else none) s.g.width 6 1 (s.redVector (scanRed m) a, 0)
  s.vecOp avVec [srcRef a] d 1 e fun l =>
    ([w32 (if x then (if l = 0 then scanFirst m else r.1.getD (l - 1) 0) else r.1.getD l 0)], r.2)

end Sys2Proof.Machine
end

