-- ==== Sys2Proof/Machine/Mgmt.lean ====
section
/-! DEFINITION. Attestation, monitoring, and the limits of power and heat (19 R362 to R365). -/
namespace Sys2Proof.Machine

/-! ### Answers (19 R363, R365) -/

/-- An answer on the management path or over DOE: nothing answers before the module is ready (19 R362). -/
def State.reply (s : State) (b : List Byte) : State := if s.booted then { s with mgmtOut := s.mgmtOut ++ [b] } else s

/-- An SPDM 1.2 message: version, code, two parameters, the rest (log 6). -/
def spdm (code p1 p2 : Nat) (rest : List Byte) : List Byte := record [(1, 0x12), (1, code), (1, p1), (1, p2)] ++ rest

/-- The answer to a request that is not well-formed: InvalidRequest. -/
def spdmError : List Byte := spdm 0x7F 1 0 []

/-- GET_VERSION (19 R363): one version, 1.2. -/
def execGetVersion (s : State) : Out := .next (s.reply (record [(1, 0x10), (1, 0x04), (2, 0), (1, 0), (1, 1), (2, 0x1200)]))

/-- GET_CAPABILITIES (19 R363): certificates, challenge, signed measurements. -/
def execGetCapabilities (s : State) : Out := .next (s.reply (spdm 0x61 0 0 (record [(4, 0), (4, 0x16)])))

/-- NEGOTIATE_ALGORITHMS (19 R363): RSASSA-PSS of 4,096 bits and SHA-512, where the offer's two masks (signatures, digests) have them. -/
def execNegotiateAlgorithms (offer : List Byte) (s : State) : Out :=
  let a := fieldAt offer 0 4
  let h := fieldAt offer 4 4
  .next (s.reply (if offer.length = 8 then spdm 0x63 0 0 (record [(4, if bitOf a 6 then 0x40 else 0), (4, if bitOf h 2 then 4 else 0)]) else spdmError))

/-- The digest of the certificate chain. -/
def chainDigest : List Byte := sha512 Config.certificateChain

/-- GET_DIGESTS (19 R363). -/
def execGetDigests (s : State) : Out := .next (s.reply (spdm 0x01 0 1 chainDigest))

/-- GET_CERTIFICATE (19 R363): a portion of the chain and what remains after it. -/
def execGetCertificate (off len : Nat) (s : State) : Out :=
  let c := Config.certificateChain
  let part := (c.drop off).take len
  .next (s.reply (if off ≤ c.length then spdm 0x02 0 0 (record [(2, part.length), (2, c.length - off - part.length)] ++ part) else spdmError))

/-- Thirty-two bytes of the module's own nonce (log 2). -/
def State.ownNonce (s : State) : List Byte × State :=
  ((List.range 4).flatMap fun i => leBytes 8 (Config.freeValue (s.fresh + i)).toNat, { s with fresh := s.fresh + 4 })

/-- A signature's salt of 64 bytes (log 2). -/
def State.salt (s : State) : List Byte × State :=
  ((List.range 8).flatMap fun i => leBytes 8 (Config.freeValue (s.fresh + i)).toNat, { s with fresh := s.fresh + 8 })

/-- A response signed with the device key over the requester's nonce and the response (19 R363). -/
def State.replySigned (s : State) (nonce body : List Byte) : State := let (t, s) := s.salt; s.reply (body ++ deviceSign (nonce ++ body) t)

/-- The bytes measured under an index (19 R363): the boot code, the image, the fused version and key digest, the spares that boot loaded. -/
def State.measured (s : State) (i : Nat) : List Byte :=
  if i = 1 then Config.bootCode
  else if i = 2 then s.boot.image
  else if i = 3 then Config.fusedImage s.minVersion Config.keyDigest
  else Config.spareImage s.boot.cores s.boot.spares s.boot.rows

/-- A measurement (19 R363): its index and its SHA-512 digest. -/
def State.measurement (s : State) (i : Nat) : List Byte := leBytes 1 i ++ sha512 (s.measured i)

/-- CHALLENGE (19 R363). -/
def execChallenge (nonce : List Byte) (s : State) : Out :=
  .next (if nonce.length ≠ 32 then s.reply spdmError
    else
      let (own, s) := s.ownNonce
      s.replySigned nonce (spdm 0x03 0 1 (chainDigest ++ own)))

/-- GET_MEASUREMENTS (19 R363): 0 asks how many there are, 255 for all. -/
def execGetMeasurements (idx : Nat) (nonce : List Byte) (s : State) : Out :=
  .next (if nonce.length ≠ 32 ∨ (4 < idx ∧ idx ≠ 255) then s.reply spdmError
    else
      let (own, s) := s.ownNonce
      let ms := if idx = 0 then [] else if idx = 255 then [1, 2, 3, 4] else [idx]
      s.replySigned nonce (spdm 0x60 (if idx = 0 then 4 else 0) 0 (leBytes 1 ms.length ++ ms.flatMap s.measurement ++ own)))

/-- PLDM_MONITOR (19 R365): PWRSTAT and the coolant's state, which nothing in the module gives (log 2). -/
def execPldmMonitor (s : State) : Out :=
  let (k, s) := s.pick 256
  .next (s.reply (leBytes 8 s.pwrstat ++ leBytes 1 k))

/-- FUSED_MINIMUM_RAISE (19 R362): raised, never lowered, by the firmware that runs. -/
def execFusedMinimumRaise (v : Nat) (s : State) : Out := .next (if s.booted then { s with fusedMin := max s.fusedMin v } else s)

/-! ### Power and heat (19 R364) -/

/-- 10 µs between two steps of the clocks. -/
def State.clockDue (s : State) : Bool := decide (s.clockAt + 10 * usTicks ≤ s.now)

/-- POWER_STEP_DOWN (19 R364): 125 MHz, to no lower than 1 GHz; the first step sets PWRSTAT's throttled bit, a power event (19 R361). -/
def execPowerStepDown (s : State) : Out :=
  .next (if s.overLimit && s.clockDue && decide (1000 < s.clock) then
      let t := { s with clock := s.clock - 125, clockAt := s.now }
      if s.clock = 4000 then t.raise 8 else t
    else s)

/-- POWER_STEP_UP (19 R364): 125 MHz, once both conditions have been clear for 1 ms; the last clears the throttled bit. -/
def execPowerStepUp (s : State) : Out :=
  .next (match s.clearSince with
    | some t =>
      if !s.overLimit && s.clockDue && decide (t + 1000 * usTicks ≤ s.now) && decide (s.clock < 4000) then
        let u := { s with clock := s.clock + 125, clockAt := s.now }
        if u.clock = 4000 then u.raise 8 else u
      else s
    | none => s)

/-- THERMAL_STOP (19 R364): at 105 degrees. -/
def execThermalStop (s : State) : Out :=
  .next (if 105 ≤ s.temp && !s.thermalStop then State.raise { s with thermalStop := true, stoppedAt := s.now } 8 else s)

/-- THERMAL_RESUME (19 R364): below 90 degrees. What was ready has waited no longer for the stop. -/
def execThermalResume (s : State) : Out :=
  .next (if s.thermalStop && decide (s.temp < 90) then
      State.raise { s with thermalStop := false,
                           groups := s.groups.map fun e => (e.1, { e.2 with readySince := e.2.readySince + (s.now - s.stoppedAt) }) } 8
    else s)

/-! ### The management path's registers (19 R365) -/

/-- PWRCAP_WRITE (19 R364, R365): by the management path, whatever the host link does, or by the host. -/
def execPwrcapWrite (w : CapWrite) (s : State) : Out :=
  .next (if w.mgmt then (if s.booted then s.putPwrcap w.value else s) else s.hostAccess (.regWrite 0x200 8 w.value))

end Sys2Proof.Machine
end

