-- ==== Sys2Proof/Machine/Scalar.lean ====
section
/-! DEFINITION. Scalar instructions on S registers (06 R115, R116). -/
namespace Sys2Proof.Machine

/-- A scalar instruction of two S sources. -/
def State.opS2 (s : State) (d a b : Reg) (e : Bool) (f : Word → Word → Word) : Out :=
  s.runOk avScalar [sref a, sref b, sref d] e (s.writeS d [f (s.g.sreg a.toNat) (s.g.sreg b.toNat)])

/-- A scalar instruction of one S source. -/
def State.opS1 (s : State) (d a : Reg) (e : Bool) (f : Word → Word) : Out :=
  s.runOk avScalar [sref a, sref d] e (s.writeS d [f (s.g.sreg a.toNat)])

/-- SADD (06 R115). -/
def execSadd (d a b : Reg) (e : Bool) (s : State) : Out := s.opS2 d a b e fun x y => x + y
/-- SSUB (06 R115). -/
def execSsub (d a b : Reg) (e : Bool) (s : State) : Out := s.opS2 d a b e fun x y => x - y
/-- SMUL (06 R115). -/
def execSmul (d a b : Reg) (e : Bool) (s : State) : Out := s.opS2 d a b e fun x y => x * y
/-- SAND (06 R115). -/
def execSand (d a b : Reg) (e : Bool) (s : State) : Out := s.opS2 d a b e fun x y => x &&& y
/-- SOR (06 R115). -/
def execSor (d a b : Reg) (e : Bool) (s : State) : Out := s.opS2 d a b e fun x y => x ||| y
/-- SXOR (06 R115). -/
def execSxor (d a b : Reg) (e : Bool) (s : State) : Out := s.opS2 d a b e fun x y => x ^^^ y
/-- SSHL (06 R115). -/
def execSshl (d a b : Reg) (e : Bool) (s : State) : Out := s.opS2 d a b e fun x y => shiftWord .shl x (y.toNat % 32)
/-- SSHR (06 R115). -/
def execSshr (d a b : Reg) (e : Bool) (s : State) : Out := s.opS2 d a b e fun x y => shiftWord .shr x (y.toNat % 32)
/-- SMOVI (06 R115). -/
def execSmovi (d : Reg) (i : BitVec 11) (e : Bool) (s : State) : Out := s.runOk avScalar [sref d] e (s.writeS d [s.immS i])
/-- SADDI (06 R115). -/
def execSaddi (d a : Reg) (i : BitVec 11) (e : Bool) (s : State) : Out := s.opS1 d a e fun x => x + s.immS i

/-- RDLANE reads the window of the batch's lowest lane, whatever the lane it reads (06 R116). -/
def execRdlane (d a b : Reg) (e : Bool) (s : State) : Out :=
  let p := s.g.phys s.lane0 a
  let l := (s.g.sreg b.toNat).toNat % s.g.width
  s.run avCore [{ cls := 0, field := a.toNat, low := true }, sref b, sref d] e
    (match s.poisonPairs [(p, l)] with
     | .error st => .error st
     | .ok _ => .ok (s.writeS d [s.g.vval l p]))

/-- SMIN (06 R116). -/
def execSmin (u : Bool) (d a b : Reg) (e : Bool) (s : State) : Out :=
  s.opS2 d a b e fun x y => w32 (mmLane (if u then .n32 else .i32) false x.toNat y.toNat)
/-- SMAX (06 R116). -/
def execSmax (u : Bool) (d a b : Reg) (e : Bool) (s : State) : Out :=
  s.opS2 d a b e fun x y => w32 (mmLane (if u then .n32 else .i32) true x.toNat y.toNat)
/-- SSEL reads its destination (06 R116). -/
def execSsel (d a b : Reg) (e : Bool) (s : State) : Out :=
  s.opS2 d a b e fun x y => if s.g.sreg d.toNat != 0 then x else y
/-- SPOPC (06 R116). -/
def execSpopc (d a : Reg) (e : Bool) (s : State) : Out := s.opS1 d a e fun x => w32 (popCount 32 x.toNat)
/-- SCLZ (06 R116). -/
def execSclz (d a : Reg) (e : Bool) (s : State) : Out := s.opS1 d a e fun x => w32 (leadZeros 32 x.toNat)

end Sys2Proof.Machine
end

