-- ==== Sys2Proof/Machine/System.lean ====
section
/-! DEFINITION. System registers, FPMODE, traps raised by programs, and the return from a handler (09 R164, R166; 17 R334; 18 R349 to
R356). -/
namespace Sys2Proof.Machine

/-! ### Reading (18 Table 18.1, R351) -/

/-- Half k of a 64-bit quantity. -/
def half32 (v k : Nat) : Word := w32 (v / 2 ^ (32 * k))

/-- The team's grid coordinates: linear index (13 R261) by GRIDX and GRIDY. -/
def State.teamCoord (s : State) (k : Nat) : Nat :=
  let x := s.gr.fld 0x18 4
  let y := s.gr.fld 0x1C 2
  match k with
  | 0 => s.tm.index % x
  | 1 => s.tm.index / x % y
  | _ => s.tm.index / (x * y)

/-- The child of an aggregate that the team belongs to: its number, PARAM and first team (13 R270). -/
def State.teamChild (s : State) : Option (Nat × Nat × Nat) :=
  ((s.gr.children.zipIdx.filter fun c => decide (c.1.2.2.1 ≤ s.tm.index)).getLast?).map fun c => (c.2, c.1.1, c.1.2.2.1)

/-- PARAM of the launch, or of the team's child (13 R270). -/
def State.teamParam (s : State) : Nat := match s.teamChild with | some c => c.2.1 | none => s.gr.fld 0x90 8

/-- Word j of CORESOK for the group's die (01 R14). -/
def State.coresOk (s : State) (j : Nat) : Word := w32 (maskOf ((List.range 32).filter fun k => !(s.core (128 * s.g.die + 32 * j + k)).out))

/-- A system register as the fibre in a lane reads it (18 Table 18.1). -/
def State.sysReg (s : State) (n l : Nat) : Word :=
  let g := s.g
  let q := g.seq
  if n = 0 then g.lx
  else if n = 1 then g.fpmode
  else if n = 2 then g.fpflags
  else if n = 3 then w32 (g.wb l)
  else if n = 4 then w32 (g.homeLane l)
  else if n = 5 then (if g.isGuest then 1 else 0)
  else if 0x10 ≤ n ∧ n ≤ 0x12 then w32 (s.teamCoord (n - 0x10))
  else if n = 0x13 then w32 g.number
  else if n = 0x14 then w32 g.role
  else if n = 0x15 then w32 g.width
  else if n = 0x18 ∨ n = 0x19 then half32 s.teamParam (n - 0x18)
  else if n = 0x1A then w32 (match s.teamChild with | some c => c.1 | none => 0)
  else if n = 0x1B then w32 (match s.teamChild with | some c => s.tm.index - c.2.2 | none => s.teamCoord 0)
  else if n = 0x20 then w32 g.ctx
  else if n = 0x21 then w32 (if g.kind = .sequencer then 8 * g.place else g.place)
  else if n = 0x22 then w32 g.die
  else if n = 0x23 then w32 s.nodeid.toNat
  else if 0x24 ≤ n ∧ n ≤ 0x27 then s.coresOk (n - 0x24)
  else if 0x30 ≤ n ∧ n ≤ 0x37 then
    (let w := tget {} s.tm.lmap ((n - 0x30) / 2)
     if n % 2 = 0 then w.a else w.b)
  else if n = 0x40 then w32 s.wcage
  else if n = 0x41 then w32 s.ftmo
  else if n = 0x80 ∨ n = 0x81 then half32 q.stvec.toNat (n - 0x80)
  else if n = 0x82 ∨ n = 0x83 then half32 q.stpc.toNat (n - 0x82)
  else if n = 0x84 ∨ n = 0x85 then half32 q.stnext.toNat (n - 0x84)
  else if n = 0x86 then q.stcode
  else if n = 0x87 ∨ n = 0x88 then half32 q.stdetail.toNat (n - 0x87)
  else if n = 0x89 ∨ n = 0x8A then half32 q.staddr.toNat (n - 0x89)
  else half32 q.stparc.toNat (n - 0x8B)

/-- The kinds on which a register may be named; guests go home first (15 R308; 18 R351). -/
def sysAvail (n : Nat) (cellar : Bool) : Avail :=
  match sysRegInfo n with
  | some i => { core := i.core, cellar := i.cellar && cellar, seq := i.seq }
  | none => { core := false }

/-- A QNT of the group waits for its index add, which FPFLAGS waits for (18 R353). -/
def State.flagsWait (s : State) (n : Nat) : Except Stop Unit :=
  if n = 2 && s.g.returns.any (·.kind == .qnt) then .error (.block .fpflags) else .ok ()

/-- SYSR (18 R351). -/
def execSysr (n : BitVec 10) (a : Reg) (e : Bool) (s : State) : Out :=
  s.run (sysAvail n.toNat true) [sref a] e
    (match s.flagsWait n.toNat with
     | .error st => .error st
     | .ok _ => .ok (s.writeS a [s.sysReg n.toNat s.lane0]))

/-- SYSR.V (18 R351). -/
def execSysrV (n : BitVec 10) (a : Reg) (e : Bool) (s : State) : Out :=
  s.run (sysAvail n.toNat true) [vdst a] e
    (match s.flagsWait n.toNat with
     | .error st => .error st
     | .ok _ => .ok (s.writeV a fun l => ([s.sysReg n.toNat l], 0)))

/-! ### Writing (18 R352) -/

/-- A 64-bit register with half k replaced. -/
def setHalf (d : Dword) (k : Nat) (w : Word) : Dword := if k = 0 then d.extractLsb' 32 32 ++ w else w ++ d.extractLsb' 0 32

/-- LX, FPMODE, LMAPm.B, STVEC or STPC written (18 Table 18.1). -/
def State.sysWriteReg (s : State) (n : Nat) (w : Word) : State :=
  if n = 0 then s.modG fun g => g.setLx w
  else if n = 1 then s.modG fun g => { g with fpmode := w &&& 0xFF }
  else if n < 0x80 then s.modT fun t => { t with lmap := tmod {} t.lmap ((n - 0x30) / 2) fun k => { k with b := w } }
  else if n ≤ 0x81 then s.modG fun g => { g with seq := { g.seq with stvec := setHalf g.seq.stvec (n - 0x80) w } }
  else s.modG fun g => { g with seq := { g.seq with stpc := setHalf g.seq.stpc (n - 0x82) w } }

/-- SYSW (18 R352). -/
def execSysw (n : BitVec 10) (a : Reg) (e : Bool) (s : State) : Out :=
  if s.sysReadOnly n.toNat then .next (s.halt (kindReserved 13 22))
  else s.runOk (sysAvail n.toNat false) [sref a] e (s.sysWriteReg n.toNat (s.g.sreg a.toNat))

/-- SYSW of FPFLAGS (18 R352, R353): bits written 1 are cleared. -/
def execFpflagsClear (a : Reg) (e : Bool) (s : State) : Out :=
  if s.sysReadOnly 2 then .next (s.halt (kindReserved 13 22))
  else
    s.run (sysAvail 2 false) [sref a] e
      (match s.flagsWait 2 with
       | .error st => .error st
       | .ok _ => .ok (s.modG fun g => { g with fpflags := g.fpflags &&& ~~~(g.sreg a.toNat) }))

/-- A larder window unmapped: its registers' LEN is 0 and no line is valid (09 R164, R166). -/
def Team.unmap (t : Team) (m : Nat) : Team := { t with lmap := tmod {} t.lmap m fun k => { a := 0, b := k.b } }

/-- What a new window must meet, and the global address of its first line (09 R164, R165): the lowest lane and the window's larder offset are reported.
A record of another context is refused as it is read, before SIZE and RO (DEDUCED, log 54). -/
def State.checkWindow (s : State) (m : Nat) (w : LWindow) : Except Stop Nat :=
  let off := 256 * w.off
  let bad (c : Nat) : Stop := memTrap tBOUNDS c s.lane0 off
  let other := [0, 1, 2, 3].any fun k => k != m && (let v := tget {} s.tm.lmap k; v.len != 0 && overlaps w.off w.len v.off v.len)
  match firstErr [need (decide (256 * (w.off + w.len) ≤ s.tm.larderSize)) (bad 3), need (!other) (bad 3), need (decide (w.pool ≠ 0)) (bad 1)] with
  | .error st => .error st
  | .ok _ =>
    match s.poolRec w.pool fun _ => off with
    | .error st => .error st
    | .ok p =>
      match firstErr [need (decide (256 * (w.poff + w.len) ≤ p.size)) (bad 3), need (!(p.ro && w.wb)) (bad 1)] with
      | .error st => .error st
      | .ok _ => .ok ((p.base + 256 * w.poff) % 2 ^ 64)

/-- SYSW of LMAPm.A (09 R164, R166): the window that stood there is written back and unmapped; then the new one is checked and mapped. -/
def execLmapWrite (m : BitVec 2) (a : Reg) (e : Bool) (s : State) : Out :=
  s.runEnd (sysAvail (0x30 + 2 * m.toNat) false) [sref a]
    (let v := s.g.sreg a.toNat &&& 0x803FFFFF
     match s.drainAll s.cur.gid with
     | (false, s) => .ok (s.blockOn (.fence .team))
     | (true, s) =>
       match s.windowBack m.toNat fun _ => true with
       | (s, some st) => .ok (s.halt st)
       | (s, none) =>
         let s := s.modT fun t => t.unmap m.toNat
         let w : LWindow := { a := v, b := (tget {} s.tm.lmap m.toNat).b }
         match (if w.len = 0 then .ok 0 else s.checkWindow m.toNat w) with
         | .error st => .ok (s.halt st)
         | .ok base => .ok ((s.modT fun t => { t with lmap := tput t.lmap m.toNat { w with base := base } }).retire e))

/-! ### SETFPM (18 R354) -/

/-- SETFPM of an S register. -/
def execSetfpm (a : Reg) (e : Bool) (s : State) : Out :=
  s.run avHome [sref a] e
    (let v := s.g.sreg a.toNat
     match need (decide (v.toNat < 256)) (s.uniTrap tBOUNDS 6 0) with
     | .error st => .error st
     | .ok _ => .ok (s.modG fun g => { g with fpmode := v }))

/-- SETFPM of an immediate. -/
def execSetfpmImm (i : Byte) (e : Bool) (s : State) : Out := s.runOk avHome [] e (s.modG fun g => { g with fpmode := i.setWidth 32 })

/-! ### TRAP, BKPT, TRET, EMRET (17 R331, R334; 18 R355, R356) -/

/-- TRAP (18 R355). -/
def execTrap (n : BitVec 15) (_e : Bool) (s : State) : Out := s.runEnd avHomeSeq [] (.ok (s.halt (.trap { code := tUSER, detail := n.toNat })))

/-- BKPT (18 R355). -/
def execBkpt (n : BitVec 15) (_e : Bool) (s : State) : Out := s.runEnd avHomeSeq [] (.ok (s.halt (.trap { code := tBKPT, detail := n.toNat })))

/-- Return from the handler on a core: each fibre takes WB from its WBLANE byte and the PC from the record, at the offset of PC or NEXTPC
(18 R356). -/
def State.handlerReturn (s : State) (off : Nat) : Except Stop State :=
  let g := s.g
  if g.handler &&& s.cur.mask != s.cur.mask then .error (.trap { code := tILLEGAL, detail := 6 })
  else
    let at_ := s.recordAt s.cur.gid
    match s.fillAll [(s.lane0, at_)] 128 2048 with
    | .error st => .error st
    | .ok (false, s) => .ok (s.blockOn .remote)
    | .ok (true, s) =>
    let (rcd, pois, s) := s.readAt s.cur.gid (.larder at_) 128
    let pc := fieldAt rcd off 8
    if pois then .error (.trap { code := tPOISON, addr := s.recordAt s.cur.gid })
    else if pc % 2 = 1 then .error (memTrap tALIGN 2 s.lane0 pc)
    else
      let s := s.eachFib fun l f =>
        { f with wb8 := BitVec.ofNat 8 (fieldAt rcd (0x40 + l) 1), barring := if off = 8 then none else f.barring }
      let s := s.modG fun g => g.leaveHandler s.cur.mask
      .ok (s.retireAt fun _ => BitVec.ofNat 64 pc)

/-- TRET on a sequencer (18 R356). -/
def State.seqReturn (s : State) : Except Stop State :=
  let pc := s.g.seq.stpc
  if !s.g.seq.inHandler then .error (.trap { code := tILLEGAL, detail := 6 })
  else if pc.getLsbD 0 then .error (memTrap tALIGN 2 0 pc.toNat)
  else
    let s := s.modG fun g => { g with seq := { g.seq with inHandler := false } }
    .ok (s.retireAt fun _ => pc)

/-- TRET (18 R356). -/
def execTret (_e : Bool) (s : State) : Out := s.runEnd avHomeSeq [] (if s.g.kind = .sequencer then s.seqReturn else s.handlerReturn 0)

/-- EMRET (18 R356). -/
def execEmret (_e : Bool) (s : State) : Out := s.runEnd avHome [] (s.handlerReturn 8)

end Sys2Proof.Machine
end

