-- ==== Sys2Proof/Machine/Dispatch.lean ====
section
/-! DEFINITION. The one match over the instruction: each arm is a single call of its meaning. -/
namespace Sys2Proof.Machine

/-- What an instruction, or a step of the module, does (spec/opcode_table.json). -/
def exec (i : Instr) (s : State) : Host.Outcome State Fault Refusal :=
  match i with
  | .iadd m d a b e => Sys2Proof.Machine.execIadd m d a b e s
  | .isub m d a b e => Sys2Proof.Machine.execIsub m d a b e s
  | .imul m d a b e => Sys2Proof.Machine.execImul m d a b e s
  | .imin m d a b e => Sys2Proof.Machine.execImin m d a b e s
  | .imax m d a b e => Sys2Proof.Machine.execImax m d a b e s
  | .iabsd d a b e => Sys2Proof.Machine.execIabsd d a b e s
  | .iabs d a e => Sys2Proof.Machine.execIabs d a e s
  | .and d a b e => Sys2Proof.Machine.execAnd d a b e s
  | .or d a b e => Sys2Proof.Machine.execOr d a b e s
  | .xor d a b e => Sys2Proof.Machine.execXor d a b e s
  | .andn d a b e => Sys2Proof.Machine.execAndn d a b e s
  | .orn d a b e => Sys2Proof.Machine.execOrn d a b e s
  | .xnor d a b e => Sys2Proof.Machine.execXnor d a b e s
  | .not d a e => Sys2Proof.Machine.execNot d a e s
  | .shl d a b e => Sys2Proof.Machine.execShl d a b e s
  | .shr d a b e => Sys2Proof.Machine.execShr d a b e s
  | .sar d a b e => Sys2Proof.Machine.execSar d a b e s
  | .rol d a b e => Sys2Proof.Machine.execRol d a b e s
  | .ror d a b e => Sys2Proof.Machine.execRor d a b e s
  | .shlI64 d a b e => Sys2Proof.Machine.execShlI64 d a b e s
  | .shrI64 d a b e => Sys2Proof.Machine.execShrI64 d a b e s
  | .sarI64 d a b e => Sys2Proof.Machine.execSarI64 d a b e s
  | .popc d a e => Sys2Proof.Machine.execPopc d a e s
  | .clz d a e => Sys2Proof.Machine.execClz d a e s
  | .ctz d a e => Sys2Proof.Machine.execCtz d a e s
  | .brev d a e => Sys2Proof.Machine.execBrev d a e s
  | .bfx u d a b e => Sys2Proof.Machine.execBfx u d a b e s
  | .bfi d a b e => Sys2Proof.Machine.execBfi d a b e s
  | .prmt d a b e => Sys2Proof.Machine.execPrmt d a b e s
  | .icmp m d a b e => Sys2Proof.Machine.execIcmp m d a b e s
  | .sel k d a b e => Sys2Proof.Machine.execSel k d a b e s
  | .imad m d a b c e => Sys2Proof.Machine.execImad m d a b c e s
  | .idot4 u d a b c e => Sys2Proof.Machine.execIdot4 u d a b c e s
  | .idot2 d a b c e => Sys2Proof.Machine.execIdot2 d a b c e s
  | .lea k d a b e => Sys2Proof.Machine.execLea k d a b e s
  | .lea64 k d a b e => Sys2Proof.Machine.execLea64 k d a b e s
  | .iaddi d a im e => Sys2Proof.Machine.execIaddi d a im e s
  | .andi d a im e => Sys2Proof.Machine.execAndi d a im e s
  | .shi k d a n e => Sys2Proof.Machine.execShi k d a n e s
  | .movi d im e => Sys2Proof.Machine.execMovi d im e s
  | .fadd m d a b e => Sys2Proof.Machine.execFadd m d a b e s
  | .fsub m d a b e => Sys2Proof.Machine.execFsub m d a b e s
  | .fmul m d a b e => Sys2Proof.Machine.execFmul m d a b e s
  | .fmin m d a b e => Sys2Proof.Machine.execFmin m d a b e s
  | .fmax m d a b e => Sys2Proof.Machine.execFmax m d a b e s
  | .fcmp m d a b e => Sys2Proof.Machine.execFcmp m d a b e s
  | .fabs d a e => Sys2Proof.Machine.execFabs d a e s
  | .fneg d a e => Sys2Proof.Machine.execFneg d a e s
  | .fclass d a e => Sys2Proof.Machine.execFclass d a e s
  | .frndn d a e => Sys2Proof.Machine.execFrndn d a e s
  | .frndz d a e => Sys2Proof.Machine.execFrndz d a e s
  | .frndd d a e => Sys2Proof.Machine.execFrndd d a e s
  | .fcopys d a b e => Sys2Proof.Machine.execFcopys d a b e s
  | .fscale d a b e => Sys2Proof.Machine.execFscale d a b e s
  | .frcp d a e => Sys2Proof.Machine.execFrcp d a e s
  | .frsq d a e => Sys2Proof.Machine.execFrsq d a e s
  | .fsqrt d a e => Sys2Proof.Machine.execFsqrt d a e s
  | .fexp2 d a e => Sys2Proof.Machine.execFexp2 d a e s
  | .flog2 d a e => Sys2Proof.Machine.execFlog2 d a e s
  | .fsin d a e => Sys2Proof.Machine.execFsin d a e s
  | .fcos d a e => Sys2Proof.Machine.execFcos d a e s
  | .ftanh d a e => Sys2Proof.Machine.execFtanh d a e s
  | .hdot2 bf d a b c e => Sys2Proof.Machine.execHdot2 bf d a b c e s
  | .hdot4 e5 d a b c e => Sys2Proof.Machine.execHdot4 e5 d a b c e s
  | .fma m d a b c e => Sys2Proof.Machine.execFma m d a b c e s
  | .fms d a b c e => Sys2Proof.Machine.execFms d a b c e s
  | .fnma d a b c e => Sys2Proof.Machine.execFnma d a b c e s
  | .fmaMixed m d a b c e => Sys2Proof.Machine.execFmaMixed m d a b c e s
  | .rdlane d a b e => Sys2Proof.Machine.execRdlane d a b e s
  | .smin u d a b e => Sys2Proof.Machine.execSmin u d a b e s
  | .smax u d a b e => Sys2Proof.Machine.execSmax u d a b e s
  | .ssel d a b e => Sys2Proof.Machine.execSsel d a b e s
  | .spopc d a e => Sys2Proof.Machine.execSpopc d a e s
  | .sclz d a e => Sys2Proof.Machine.execSclz d a e s
  | .wait t c st l e => Sys2Proof.Machine.execWait t c st l e s
  | .cvt r src dst d a e => Sys2Proof.Machine.execCvt r src dst d a e s
  | .qnt n k z v d e => Sys2Proof.Machine.execQnt n k z v d e s
  | .dqnt k z v d e => Sys2Proof.Machine.execDqnt k z v d e s
  | .pack m d a b e => Sys2Proof.Machine.execPack m d a b e s
  | .unpk m d a b e => Sys2Proof.Machine.execUnpk m d a b e s
  | .fscl m d a b e => Sys2Proof.Machine.execFscl m d a b e s
  | .xchRot d a b e => Sys2Proof.Machine.execXchRot d a b e s
  | .xchXor d a b e => Sys2Proof.Machine.execXchXor d a b e s
  | .xchBcast d a b e => Sys2Proof.Machine.execXchBcast d a b e s
  | .xchMirror d a e => Sys2Proof.Machine.execXchMirror d a e s
  | .xchIdx d a b e => Sys2Proof.Machine.execXchIdx d a b e s
  | .xchShup d a b e => Sys2Proof.Machine.execXchShup d a b e s
  | .xchShdn d a b e => Sys2Proof.Machine.execXchShdn d a b e s
  | .voteAny a b e => Sys2Proof.Machine.execVoteAny a b e s
  | .voteAll a b e => Sys2Proof.Machine.execVoteAll a b e s
  | .voteBallot a b e => Sys2Proof.Machine.execVoteBallot a b e s
  | .voteMatch a c e => Sys2Proof.Machine.execVoteMatch a c e s
  | .votePopc a b e => Sys2Proof.Machine.execVotePopc a b e s
  | .redl m d a e => Sys2Proof.Machine.execRedl m d a e s
  | .scanl m x d a e => Sys2Proof.Machine.execScanl m x d a e s
  | .setlx im e => Sys2Proof.Machine.execSetlx im e s
  | .sadd d a b e => Sys2Proof.Machine.execSadd d a b e s
  | .ssub d a b e => Sys2Proof.Machine.execSsub d a b e s
  | .smul d a b e => Sys2Proof.Machine.execSmul d a b e s
  | .sand d a b e => Sys2Proof.Machine.execSand d a b e s
  | .sor d a b e => Sys2Proof.Machine.execSor d a b e s
  | .sxor d a b e => Sys2Proof.Machine.execSxor d a b e s
  | .sshl d a b e => Sys2Proof.Machine.execSshl d a b e s
  | .sshr d a b e => Sys2Proof.Machine.execSshr d a b e s
  | .smovi d im e => Sys2Proof.Machine.execSmovi d im e s
  | .saddi d a im e => Sys2Proof.Machine.execSaddi d a im e s
  | .tload g im p r t e => Sys2Proof.Machine.execTload g im p r t e s
  | .tstore g im p r t e => Sys2Proof.Machine.execTstore g im p r t e s
  | .tmovTv b a e => Sys2Proof.Machine.execTmovTv b a e s
  | .tmovVt b a e => Sys2Proof.Machine.execTmovVt b a e s
  | .txp k c b e => Sys2Proof.Machine.execTxp k c b e s
  | .tclr b e => Sys2Proof.Machine.execTclr b e s
  | .bclm k a e => Sys2Proof.Machine.execBclm k a e s
  | .bclmt k a e => Sys2Proof.Machine.execBclmt k a e s
  | .brel k b e => Sys2Proof.Machine.execBrel k b e s
  | .bfillt rows c b a e => Sys2Proof.Machine.execBfillt rows c b a e s
  | .bstat n a e => Sys2Proof.Machine.execBstat n a e s
  | .mma z k b a zd e => Sys2Proof.Machine.execMma z k b a zd e s
  | .mmas z k b a zd e => Sys2Proof.Machine.execMmas z k b a zd e s
  | .mmaq z k b a zd e => Sys2Proof.Machine.execMmaq z k b a zd e s
  | .mmat k b a zd e => Sys2Proof.Machine.execMmat k b a zd e s
  | .zrd c b a e => Sys2Proof.Machine.execZrd c b a e s
  | .zst m b a e => Sys2Proof.Machine.execZst m b a e s
  | .zclr b e => Sys2Proof.Machine.execZclr b e s
  | .zld b a e => Sys2Proof.Machine.execZld b a e s
  | .msave a e => Sys2Proof.Machine.execMsave a e s
  | .mres a e => Sys2Proof.Machine.execMres a e s
  | .mstat a e => Sys2Proof.Machine.execMstat a e s
  | .qpsh b a e => Sys2Proof.Machine.execQpsh b a e s
  | .qpop b a e => Sys2Proof.Machine.execQpop b a e s
  | .qtry c b a e => Sys2Proof.Machine.execQtry c b a e s
  | .qpshv b a e => Sys2Proof.Machine.execQpshv b a e s
  | .qcnt b a e => Sys2Proof.Machine.execQcnt b a e s
  | .fslot k w a e => Sys2Proof.Machine.execFslot k w a e s
  | .ldg z im p r t e => Sys2Proof.Machine.execLdg z im p r t e s
  | .stg z im p r t e => Sys2Proof.Machine.execStg z im p r t e s
  | .ldp z q p r t e => Sys2Proof.Machine.execLdp z q p r t e s
  | .ldl z im r t e => Sys2Proof.Machine.execLdl z im r t e s
  | .stl z im r t e => Sys2Proof.Machine.execStl z im r t e s
  | .ldo z im r t e => Sys2Proof.Machine.execLdo z im r t e s
  | .sto z im r t e => Sys2Proof.Machine.execSto z im r t e s
  | .lopAddF32 c b a e => Sys2Proof.Machine.execLopAddF32 c b a e s
  | .lopAddI32 c b a e => Sys2Proof.Machine.execLopAddI32 c b a e s
  | .lopMaxabsF32 c b a e => Sys2Proof.Machine.execLopMaxabsF32 c b a e s
  | .lopMinF32 c b a e => Sys2Proof.Machine.execLopMinF32 c b a e s
  | .lopXchr c b a e => Sys2Proof.Machine.execLopXchr c b a e s
  | .lopXadd k c b e => Sys2Proof.Machine.execLopXadd k c b e s
  | .lopXrd b a e => Sys2Proof.Machine.execLopXrd b a e s
  | .lopFill c b e => Sys2Proof.Machine.execLopFill c b e s
  | .atomAdd v p r d e => Sys2Proof.Machine.execAtomAdd v p r d e s
  | .atomMinI v p r d e => Sys2Proof.Machine.execAtomMinI v p r d e s
  | .atomMaxI v p r d e => Sys2Proof.Machine.execAtomMaxI v p r d e s
  | .atomMinN v p r d e => Sys2Proof.Machine.execAtomMinN v p r d e s
  | .atomMaxN v p r d e => Sys2Proof.Machine.execAtomMaxN v p r d e s
  | .atomAnd v p r d e => Sys2Proof.Machine.execAtomAnd v p r d e s
  | .atomOr v p r d e => Sys2Proof.Machine.execAtomOr v p r d e s
  | .atomXor v p r d e => Sys2Proof.Machine.execAtomXor v p r d e s
  | .atomxXchg v p r d e => Sys2Proof.Machine.execAtomxXchg v p r d e s
  | .atomxCas v p r d e => Sys2Proof.Machine.execAtomxCas v p r d e s
  | .atomxFaddF32 v p r d e => Sys2Proof.Machine.execAtomxFaddF32 v p r d e s
  | .atomxFmaxF32 v p r d e => Sys2Proof.Machine.execAtomxFmaxF32 v p r d e s
  | .atomxFaddBf16x2 v p r d e => Sys2Proof.Machine.execAtomxFaddBf16x2 v p r d e s
  | .atomxIncw v p r d e => Sys2Proof.Machine.execAtomxIncw v p r d e s
  | .atomxDecw v p r d e => Sys2Proof.Machine.execAtomxDecw v p r d e s
  | .atomxFmaxabsF32 v p r d e => Sys2Proof.Machine.execAtomxFmaxabsF32 v p r d e s
  | .fence k a e => Sys2Proof.Machine.execFence k a e s
  | .watch c b a e => Sys2Proof.Machine.execWatch c b a e s
  | .unwatch b e => Sys2Proof.Machine.execUnwatch b e s
  | .waitw c b a e => Sys2Proof.Machine.execWaitw c b a e s
  | .drainwc e => Sys2Proof.Machine.execDrainwc e s
  | .mcst c b a e => Sys2Proof.Machine.execMcst c b a e s
  | .flushr b a e => Sys2Proof.Machine.execFlushr b a e s
  | .invr b a e => Sys2Proof.Machine.execInvr b a e s
  | .cpy c b a e => Sys2Proof.Machine.execCpy c b a e s
  | .cpyt c b a e => Sys2Proof.Machine.execCpyt c b a e s
  | .cpym c b a e => Sys2Proof.Machine.execCpym c b a e s
  | .sdrn c b a e => Sys2Proof.Machine.execSdrn c b a e s
  | .seal k e => Sys2Proof.Machine.execSeal k e s
  | .bwait a e => Sys2Proof.Machine.execBwait a e s
  | .swinit b a e => Sys2Proof.Machine.execSwinit b a e s
  | .swwait b a e => Sys2Proof.Machine.execSwwait b a e s
  | .br d e => Sys2Proof.Machine.execBr d e s
  | .brCond d sn p e => Sys2Proof.Machine.execBrCond d sn p e s
  | .call d sl e => Sys2Proof.Machine.execCall d sl e s
  | .nop e => Sys2Proof.Machine.execNop e s
  | .yield e => Sys2Proof.Machine.execYield e s
  | .ret e => Sys2Proof.Machine.execRet e s
  | .jmpr a e => Sys2Proof.Machine.execJmpr a e s
  | .skp n sn p e => Sys2Proof.Machine.execSkp n sn p e s
  | .swin a e => Sys2Proof.Machine.execSwin a e s
  | .fork c b a e => Sys2Proof.Machine.execFork c b a e s
  | .fend e => Sys2Proof.Machine.execFend e s
  | .bar n e => Sys2Proof.Machine.execBar n e s
  | .arrv n e => Sys2Proof.Machine.execArrv n e s
  | .waitb n e => Sys2Proof.Machine.execWaitb n e s
  | .barg e => Sys2Proof.Machine.execBarg e s
  | .launch o c b a e => Sys2Proof.Machine.execLaunch o c b a e s
  | .ncall a e => Sys2Proof.Machine.execNcall a e s
  | .nwait b a e => Sys2Proof.Machine.execNwait b a e s
  | .nret e => Sys2Proof.Machine.execNret e s
  | .mbxs n b a e => Sys2Proof.Machine.execMbxs n b a e s
  | .mbxw n a e => Sys2Proof.Machine.execMbxw n a e s
  | .skipz c b a e => Sys2Proof.Machine.execSkipz c b a e s
  | .go b a e => Sys2Proof.Machine.execGo b a e s
  | .gohome e => Sys2Proof.Machine.execGohome e s
  | .rejoin e => Sys2Proof.Machine.execRejoin e s
  | .trap n e => Sys2Proof.Machine.execTrap n e s
  | .tret e => Sys2Proof.Machine.execTret e s
  | .emret e => Sys2Proof.Machine.execEmret e s
  | .sysr n a e => Sys2Proof.Machine.execSysr n a e s
  | .sysrV n a e => Sys2Proof.Machine.execSysrV n a e s
  | .sysw n a e => Sys2Proof.Machine.execSysw n a e s
  | .lmapWrite m a e => Sys2Proof.Machine.execLmapWrite m a e s
  | .fpflagsClear a e => Sys2Proof.Machine.execFpflagsClear a e s
  | .setfpm a e => Sys2Proof.Machine.execSetfpm a e s
  | .setfpmImm im e => Sys2Proof.Machine.execSetfpmImm im e s
  | .bkpt n e => Sys2Proof.Machine.execBkpt n e s
  | .rdclk a e => Sys2Proof.Machine.execRdclk a e s
  | .lit p => Sys2Proof.Machine.execLit p s
  | .mod p => Sys2Proof.Machine.execMod p s
  | .iaddC16 c r d => Sys2Proof.Machine.execIaddC16 c r d s
  | .isubC16 c r d => Sys2Proof.Machine.execIsubC16 c r d s
  | .imulC16 c r d => Sys2Proof.Machine.execImulC16 c r d s
  | .andC16 c r d => Sys2Proof.Machine.execAndC16 c r d s
  | .orC16 c r d => Sys2Proof.Machine.execOrC16 c r d s
  | .xorC16 c r d => Sys2Proof.Machine.execXorC16 c r d s
  | .shlC16 c r d => Sys2Proof.Machine.execShlC16 c r d s
  | .shrC16 c r d => Sys2Proof.Machine.execShrC16 c r d s
  | .movC16 c r d => Sys2Proof.Machine.execMovC16 c r d s
  | .moviC16 im d => Sys2Proof.Machine.execMoviC16 im d s
  | .iaddiC16 im d => Sys2Proof.Machine.execIaddiC16 im d s
  | .faddC16 c r d => Sys2Proof.Machine.execFaddC16 c r d s
  | .fmaxC16 c r d => Sys2Proof.Machine.execFmaxC16 c r d s
  | .fmulC16 c r d => Sys2Proof.Machine.execFmulC16 c r d s
  | .ldlC16 r d => Sys2Proof.Machine.execLdlC16 r d s
  | .stlC16 r d => Sys2Proof.Machine.execStlC16 r d s
  | .issueSlotArbitration core slot => Sys2Proof.Machine.execIssueSlotArbitration core slot s
  | .asynchronousReturn gid ret lane => Sys2Proof.Machine.execAsynchronousReturn gid ret lane s
  | .storePerformed gid => Sys2Proof.Machine.execStorePerformed gid s
  | .l1Eviction core line => Sys2Proof.Machine.execL1Eviction core line s
  | .wcAgeDrain core line => Sys2Proof.Machine.execWcAgeDrain core line s
  | .syncWordArrival tid => Sys2Proof.Machine.execSyncWordArrival tid s
  | .queueEntryTakeable tid q => Sys2Proof.Machine.execQueueEntryTakeable tid q s
  | .heldTrapTaken gid => Sys2Proof.Machine.execHeldTrapTaken gid s
  | .faultRecordDeferred die => Sys2Proof.Machine.execFaultRecordDeferred die s
  | .pushApply im => Sys2Proof.Machine.execPushApply im s
  | .unwatchComplete gid ret => Sys2Proof.Machine.execUnwatchComplete gid ret s
  | .matrixOpAccept cluster => Sys2Proof.Machine.execMatrixOpAccept cluster s
  | .matrixSumUnit cluster => Sys2Proof.Machine.execMatrixSumUnit cluster s
  | .sequencerStopTrap gid => Sys2Proof.Machine.execSequencerStopTrap gid s
  | .matrixPoisonTrap gid => Sys2Proof.Machine.execMatrixPoisonTrap gid s
  | .binZeroing cluster => Sys2Proof.Machine.execBinZeroing cluster s
  | .copyPacket q => Sys2Proof.Machine.execCopyPacket q s
  | .launchPacket q => Sys2Proof.Machine.execLaunchPacket q s
  | .eventPacket q => Sys2Proof.Machine.execEventPacket q s
  | .queueHoldRetry q => Sys2Proof.Machine.execQueueHoldRetry q s
  | .copyLineWrite engine => Sys2Proof.Machine.execCopyLineWrite engine s
  | .shelfPark cluster => Sys2Proof.Machine.execShelfPark cluster s
  | .launchDependenceMet grid => Sys2Proof.Machine.execLaunchDependenceMet grid s
  | .teamPlacement core => Sys2Proof.Machine.execTeamPlacement core s
  | .teamRetirement tid => Sys2Proof.Machine.execTeamRetirement tid s
  | .endNoticeArrival crate => Sys2Proof.Machine.execEndNoticeArrival crate s
  | .swapOut tid => Sys2Proof.Machine.execSwapOut tid s
  | .swapIn core => Sys2Proof.Machine.execSwapIn core s
  | .preEmption tid => Sys2Proof.Machine.execPreEmption tid s
  | .copyCancel engine => Sys2Proof.Machine.execCopyCancel engine s
  | .aggregateClose grid => Sys2Proof.Machine.execAggregateClose grid s
  | .cellarCallStart stack => Sys2Proof.Machine.execCellarCallStart stack s
  | .cellarCallComplete call => Sys2Proof.Machine.execCellarCallComplete call s
  | .crateArrival crate place => Sys2Proof.Machine.execCrateArrival crate place s
  | .returnCrateArrival crate => Sys2Proof.Machine.execReturnCrateArrival crate s
  | .migrationRefusal crate cause => Sys2Proof.Machine.execMigrationRefusal crate cause s
  | .read p => Sys2Proof.Machine.execRead p s
  | .write p => Sys2Proof.Machine.execWrite p s
  | .atomic p => Sys2Proof.Machine.execAtomic p s
  | .reduce p => Sys2Proof.Machine.execReduce p s
  | .mcast p => Sys2Proof.Machine.execMcast p s
  | .sub p => Sys2Proof.Machine.execSub p s
  | .unsub p => Sys2Proof.Machine.execUnsub p s
  | .push p => Sys2Proof.Machine.execPush p s
  | .pushend p => Sys2Proof.Machine.execPushend p s
  | .crate p => Sys2Proof.Machine.execCrate p s
  | .resp p => Sys2Proof.Machine.execResp p s
  | .mack p => Sys2Proof.Machine.execMack p s
  | .ftmoTimeout tag => Sys2Proof.Machine.execFtmoTimeout tag s
  | .remoteRetry tag => Sys2Proof.Machine.execRemoteRetry tag s
  | .pushResend im => Sys2Proof.Machine.execPushResend im s
  | .flitReceive port ok => Sys2Proof.Machine.execFlitReceive port ok s
  | .linkDown l => Sys2Proof.Machine.execLinkDown l s
  | .keySwitch port inward => Sys2Proof.Machine.execKeySwitch port inward s
  | .nonceExhausted port inward => Sys2Proof.Machine.execNonceExhausted port inward s
  | .walkMovingRecheck im => Sys2Proof.Machine.execWalkMovingRecheck im s
  | .ctxcreate q => Sys2Proof.Machine.execCtxcreate q s
  | .ctxdestroy q => Sys2Proof.Machine.execCtxdestroy q s
  | .freeze q => Sys2Proof.Machine.execFreeze q s
  | .thaw q => Sys2Proof.Machine.execThaw q s
  | .tlbinv q => Sys2Proof.Machine.execTlbinv q s
  | .tlbinvComplete q => Sys2Proof.Machine.execTlbinvComplete q s
  | .qcreate q => Sys2Proof.Machine.execQcreate q s
  | .qdestroy q => Sys2Proof.Machine.execQdestroy q s
  | .hwrite q => Sys2Proof.Machine.execHwrite q s
  | .loftwin q => Sys2Proof.Machine.execLoftwin q s
  | .keyset q => Sys2Proof.Machine.execKeyset q s
  | .wayconv q => Sys2Proof.Machine.execWayconv q s
  | .wayconvApply stack => Sys2Proof.Machine.execWayconvApply stack s
  | .preempt q => Sys2Proof.Machine.execPreempt q s
  | .cabort q => Sys2Proof.Machine.execCabort q s
  | .replay q => Sys2Proof.Machine.execReplay q s
  | .scrub q => Sys2Proof.Machine.execScrub q s
  | .resync q => Sys2Proof.Machine.execResync q s
  | .routeset q => Sys2Proof.Machine.execRouteset q s
  | .routesetComplete q => Sys2Proof.Machine.execRoutesetComplete q s
  | .coreRetirement core => Sys2Proof.Machine.execCoreRetirement core s
  | .matrixResourceRetirement cluster => Sys2Proof.Machine.execMatrixResourceRetirement cluster s
  | .cellarCoreRetirement cellar => Sys2Proof.Machine.execCellarCoreRetirement cellar s
  | .rowSparing stack channel bank => Sys2Proof.Machine.execRowSparing stack channel bank s
  | .moduleReset b => Sys2Proof.Machine.execModuleReset b s
  | .cxlMemRead pa n => Sys2Proof.Machine.execCxlMemRead pa n s
  | .cxlMemWrite pa data => Sys2Proof.Machine.execCxlMemWrite pa data s
  | .nodeidWrite v => Sys2Proof.Machine.execNodeidWrite v s
  | .q0ringWrite v => Sys2Proof.Machine.execQ0ringWrite v s
  | .q0ctlWrite v => Sys2Proof.Machine.execQ0ctlWrite v s
  | .wcageWrite v => Sys2Proof.Machine.execWcageWrite v s
  | .ftmoWrite v => Sys2Proof.Machine.execFtmoWrite v s
  | .fbbaseWrite die v => Sys2Proof.Machine.execFbbaseWrite die v s
  | .fbstatWrite die v => Sys2Proof.Machine.execFbstatWrite die v s
  | .pwrcapWrite v => Sys2Proof.Machine.execPwrcapWrite v s
  | .hmaskChWrite stack v => Sys2Proof.Machine.execHmaskChWrite stack v s
  | .hmaskPcWrite stack v => Sys2Proof.Machine.execHmaskPcWrite stack v s
  | .configPendingApply u => Sys2Proof.Machine.execConfigPendingApply u s
  | .hstatRead => Sys2Proof.Machine.execHstatRead s
  | .registerWrite off v => Sys2Proof.Machine.execRegisterWrite off v s
  | .msiXMessage vec => Sys2Proof.Machine.execMsiXMessage vec s
  | .getVersion => Sys2Proof.Machine.execGetVersion s
  | .getCapabilities => Sys2Proof.Machine.execGetCapabilities s
  | .negotiateAlgorithms offer => Sys2Proof.Machine.execNegotiateAlgorithms offer s
  | .getDigests => Sys2Proof.Machine.execGetDigests s
  | .getCertificate off len => Sys2Proof.Machine.execGetCertificate off len s
  | .challenge nonce => Sys2Proof.Machine.execChallenge nonce s
  | .getMeasurements idx nonce => Sys2Proof.Machine.execGetMeasurements idx nonce s
  | .pldmMonitor => Sys2Proof.Machine.execPldmMonitor s
  | .powerStepDown => Sys2Proof.Machine.execPowerStepDown s
  | .powerStepUp => Sys2Proof.Machine.execPowerStepUp s
  | .thermalStop => Sys2Proof.Machine.execThermalStop s
  | .thermalResume => Sys2Proof.Machine.execThermalResume s
  | .unassignedEncoding f => Sys2Proof.Machine.execUnassignedEncoding f s
  | .reservedPacketKind q => Sys2Proof.Machine.execReservedPacketKind q s
  | .reservedFraricKind p => Sys2Proof.Machine.execReservedFraricKind p s
  | .linkRetrained l => Sys2Proof.Machine.execLinkRetrained l s
  | .linkLaneSpared l => Sys2Proof.Machine.execLinkLaneSpared l s
  | .fusedMinimumRaise v => Sys2Proof.Machine.execFusedMinimumRaise v s

end Sys2Proof.Machine
end

