-- ==== Sys2Proof/Machine/Auto.lean ====
section
/-! DEFINITION. The instruction that an issue fetches, the acts, and what the module does next when no agenda says so (log 1). -/
namespace Sys2Proof.Machine

/-- The next word at `cur.npc` is fetched and executed (03 R54, R62). -/
def State.runWord (s : State) : Out :=
  match s.fetchWord with
  | (ps, .error e) => .next ((s.took ps).halt e)
  | (ps, .ok _) =>
    match decode s.cur.pre (wordOf ps) with
    | .ok i => exec i (s.took ps)
    | .error f => execUnassignedEncoding f (s.took ps)

/-- A group issues the next instruction of its batch at a PC; where no such batch may issue, nothing happens. -/
def State.issueAt (s : State) (gid : Nat) (pc : Dword) : Out := if s.batchAt gid pc = 0 then .next s else (s.startIssue gid pc).runWord

/-- One act. An event row that names an encoded instruction is no act. -/
def State.doAct (s : State) : Act → Out
  | .issue gid pc => s.issueAt gid pc
  | .event i => if (encode? i).isSome then .next s else exec i s
  | .poison q => .next (s.errorAt q)
  | .loftError d w => .next (s.loftErrorAt d w)
  | .binError c w => .next (s.binErrorAt c w)
  | .laneError g l p => .next (s.laneErrorAt g l p)
  | .fileError g pc r l => .next (s.fileErrorAt g pc r l)
  | .larderError t w => .next (s.larderErrorAt t w)
  | .zError t w => .next (s.zErrorAt t w)
  | .l1Error c w => .next (s.l1ErrorAt c w)
  | .storeError c w => .next (s.storeErrorAt c w)
  | .shelfError c k u => .next (s.shelfErrorAt c k u)
  | .scratchError k q => .next (s.scratchErrorAt k q)
  | .boxError c w => .next (s.boxErrorAt c w)
  | .hostError q => .next (s.hostErrorAt q)
  | .retried w n => .next (s.retriedAt w n)
  | .counted k => .next (s.counts k)
  | .hostWrite pa bs => .next (s.hostStores pa bs)
  | .hdmBase a => .next { s with hdmBase := a }
  | .regRead off w => .next (s.hostAccess (.regRead off w))
  | .regWrite off w v => .next (s.hostAccess (.regWrite off w v))
  | .hostGoes k => .next (s.hostGo k)
  | .bootEnds => .next s.bootEnds
  | .sensors p t => .next (s.sense p t)

/-! ### The module's own turns (log 1) -/

/-- One of a list, by a free value; nothing of an empty one. -/
def State.one {α : Type} (s : State) (l : List α) : Option α × State := let (k, s) := s.pick (max 1 l.length); (l[k]?, s)

/-- A turn for one of a list. -/
def State.withOne {α : Type} (s : State) (l : List α) (f : α → State → Out) : Out :=
  match s.one l with
  | (some a, s) => f a s
  | (none, s) => .next s

/-! ### What the arbiters see after each step (13 R264, R265, R269) -/

/-- Waits at which an instruction has done nothing yet: a trial of it tells whether its fibre is ready (13 R264). At the others it has begun: it has
recorded an arrival, asked another module, or sent its core's stores on their way; such an instruction counts as ready until it has issued once (DEDUCED,
log 123). -/
def Wait.plain : Wait → Bool
  | .scoreboard _ => true
  | .counter _ => true
  | .counts _ _ _ _ => true
  | .qFull _ _ => true
  | .qEmpty _ _ => true
  | .claim _ _ => true
  | .rearrive _ => true
  | .waitb _ => true
  | .swwait _ _ => true
  | .nwait _ => true
  | .bwait _ => true
  | .ncall _ => true
  | .launch => true
  | .ring _ _ => true
  | .shelf => true
  | .seal => true
  | .rejoin => true
  | .mbxFull _ _ => true
  | .array => true
  | .mmas _ => true
  | .fpflags => true
  | .moving _ => true
  | .link _ => true
  | .none => false
  | .barrier _ => false
  | .barg => false
  | .fence _ => false
  | .reach _ _ => false
  | .remote => false
  | .resend => false
  | .depart => false
  | .handler => false
  | .record => false
  | .mbxEmpty _ _ => false

/-- A whole instruction with its prefixes (03 R54). -/
def State.runInstr (s : State) : Nat → Out
  | 0 => .next s
  | n + 1 => match s.runWord with | .next t => if t.cur.mid then t.runInstr n else .next t | .fault f => .fault f | .refused r => .refused r

/-- What would hold a fibre's next instruction, were it issued for that fibre now: `none` where nothing would (13 R264). -/
def State.tryWait (s : State) (gid l : Nat) : Wait :=
  let f := (s.grp gid).fib l
  match State.runInstr { s with cur := { gid := gid, mask := 2 ^ l, pc := f.pc, npc := f.pc } } 3 with
  | .next t =>
    let g := t.grp gid
    let h := g.fib l
    if thas t.groups gid && g.hold.isNone && (t.ctx g.ctx).phase == .active && h.life == .live && h.pc == f.pc && h.wait.plain then h.wait else .none
  | .fault _ => .none
  | .refused _ => .none

/-- The fibres of a group whose readiness a trial tells: none of a run in progress, and none that waits for a condition that has its own test. -/
def State.untried (s : State) (gid : Nat) : List Nat :=
  let g := s.grp gid
  let run := match g.kind with
    | .core => (match (s.core g.place).slotOf gid with | some k => (tget {} (s.core g.place).slots k).mask | none => 0)
    | .cellar => 0
    | .sequencer => 0
  if s.mayIssue gid then
    g.liveLanes.filter fun l => !bitOf run l && (match (g.fib l).wait with | .none => true | .moving _ => true | .link _ => true | _ => false)
  else []

/-- A fibre's wait as a trial finds it; one that goes on keeps its start, and so does a stall on MOVING that is over (16 R315). -/
def Fibre.tried (f : Fibre) (now : Nat) (w : Wait) : Fibre :=
  if f.wait = w then { f with movingOver := false }
  else if w = .none then { f with movingOver := true }
  else { f with wait := w, waitSince := now, movingOver := false }

/-- The fibres that stand at an instruction which may not issue yet are noted with the reason (13 R264). -/
def State.noteTried (s : State) : State :=
  if s.cur.mid || s.thermalStop then s
  else
    { s with groups := s.groups.map fun e =>
        (e.1, (s.untried e.1).foldl (fun g l => g.setF l fun f => f.tried s.now (s.tryWait e.1 l)) e.2) }

/-- What the arbiters see after a step. -/
def State.noted (s : State) : State := s.noteHeaders.noteTried.noteReady.noteFits

/-- What the arbiters see is noted after a step (13 R264, R265, R269). -/
def noteOut : Out → Out
  | .next s => .next s.noted
  | .fault f => .fault f
  | .refused r => .refused r

/-- The PCs at which a group may issue: its run's on a core, its chosen batch's on a cellar core, its fibre's on a sequencer. -/
def State.issuePcs (s : State) (gid : Nat) : List Nat :=
  match (s.grp gid).kind with
  | .core => (match (s.core (s.grp gid).place).slotOf gid with | some k => [(tget {} (s.core (s.grp gid).place).slots k).pc.toNat] | none => [])
  | .cellar => ((s.grp gid).choose (s.readyPcs gid)).toList
  | .sequencer => s.readyPcs gid

/-- A group issues. -/
def State.issueTurn (s : State) : Out :=
  s.withOne (s.groups.map (·.1)) fun g s => s.withOne (s.issuePcs g) fun p s => s.issueAt g (BitVec.ofNat 64 p)

/-- A lane of a return lands. -/
def State.returnTurn (s : State) : Out :=
  s.withOne (s.groups.flatMap fun e => e.2.returns.flatMap fun r => r.lanes.map fun x => (e.1, r.id, x.lane)) fun x s =>
    execAsynchronousReturn x.1 x.2.1 x.2.2 s

/-- What completes for groups, cores and teams. -/
def State.groupTurn (k : Nat) (s : State) : Out :=
  let groups := s.groups.map (·.1)
  let teams := s.teams.map (·.1)
  let cores := List.range 1024
  match k with
  | 0 => s.withOne cores fun c s => s.withOne [0, 1, 2, 3] fun k s => execIssueSlotArbitration c k s
  | 1 => s.returnTurn
  | 2 => s.withOne groups execStorePerformed
  | 3 => s.withOne (s.cores.flatMap fun e => e.2.l1.map fun b => (e.1, b.1 / 256)) fun x s => execL1Eviction x.1 x.2 s
  | 4 => s.withOne (s.cores.flatMap fun e => e.2.wc.map fun w => (e.1, w.line)) fun x s => execWcAgeDrain x.1 x.2 s
  | 5 => s.withOne teams execSyncWordArrival
  | 6 => s.withOne teams fun t s => s.withOne (List.range 8) fun q s => execQueueEntryTakeable t q s
  | 7 => s.withOne groups execHeldTrapTaken
  | 8 => s.withOne (s.teams.flatMap fun e => e.2.subs.flatMap (·.ending)) fun x s => execUnwatchComplete x.1 x.2 s
  | 9 => s.withOne groups execSequencerStopTrap
  | 10 => s.withOne groups execMatrixPoisonTrap
  | 11 => s.withOne cores execTeamPlacement
  | 12 => s.withOne teams execTeamRetirement
  | 13 => s.withOne teams execSwapOut
  | 14 => s.withOne cores execSwapIn
  | 15 => s.withOne teams execPreEmption
  | _ => s.issueTurn

/-- What completes for clusters, dies, engines, stacks, and what is under way between them. -/
def State.unitTurn (k : Nat) (s : State) : Out :=
  let clusters := List.range 128
  let engines := List.range 32
  let crates := s.crates.map (·.id)
  match k with
  | 0 => s.withOne (List.range 8) execFaultRecordDeferred
  | 1 => s.withOne (List.range s.pushes.length) execPushApply
  | 2 => s.withOne clusters execMatrixOpAccept
  | 3 => s.withOne clusters execMatrixSumUnit
  | 4 => s.withOne clusters execBinZeroing
  | 5 => s.withOne engines execCopyLineWrite
  | 6 => s.withOne clusters execShelfPark
  | 7 => s.withOne (s.grids.map (·.1)) execLaunchDependenceMet
  | 8 => s.withOne (s.grids.map (·.1)) execAggregateClose
  | 9 => s.withOne engines execCopyCancel
  | 10 => s.withOne (List.range 16) execCellarCallStart
  | 11 => s.withOne (s.calls.map (·.1)) execCellarCallComplete
  | 12 => s.withOne crates fun c s => s.withOne (List.range 1024) fun p s => execCrateArrival c p s
  | 13 => s.withOne crates execReturnCrateArrival
  | 14 => s.withOne crates execEndNoticeArrival
  | 15 => s.withOne crates fun c s => s.withOne [1, 2, 3, 4, 5] fun k s => execMigrationRefusal c k s
  | 16 => s.withOne (s.reqs.map (·.tag)) execFtmoTimeout
  | 17 => s.withOne (s.reqs.map (·.tag)) execRemoteRetry
  | 18 => s.withOne (List.range s.pushes.length) execPushResend
  | 19 => s.withOne (List.range s.inbox.length) execWalkMovingRecheck
  | 20 => s.withOne (List.range 32) fun p s => s.withOne [true, false] fun b s => execKeySwitch p b s
  | 21 => s.withOne (List.range 32) fun p s => s.withOne [true, false] fun b s => execNonceExhausted p b s
  | 22 => s.withOne (List.range 16) execWayconvApply
  | 23 => s.withOne (List.range 9) execMsiXMessage
  | 24 => execPowerStepDown s
  | 25 => execPowerStepUp s
  | 26 => execThermalStop s
  | 27 => execThermalResume s
  | 28 => s.withOne (List.range 16) fun k s => execConfigPendingApply (.hmaskCh k) s
  | 29 => s.withOne (List.range 16) fun k s => execConfigPendingApply (.hmaskPc k) s
  | 30 => s.withOne ((s.cores.filter fun e => e.2.retiring.isSome).map (·.1)) execCoreRetirement
  | 31 => s.withOne (List.range s.hostWaits.length) fun k s => .next (s.hostGo k)
  | 32 => .next s.bootEnds
  | _ => s.withOne (List.range 8) fun d s => execConfigPendingApply (.fbbase d) s

/-- A work queue's turn: its head is taken by the step of its kind, or a command under way goes on. -/
def State.queueTurn (k q : Nat) (s : State) : Out :=
  match k with
  | 0 => execCopyPacket q s
  | 1 => execLaunchPacket q s
  | 2 => execEventPacket q s
  | 3 => execQueueHoldRetry q s
  | 4 => execReservedPacketKind q s
  | 5 => execCtxcreate q s
  | 6 => execCtxdestroy q s
  | 7 => execFreeze q s
  | 8 => execThaw q s
  | 9 => execTlbinv q s
  | 10 => execTlbinvComplete q s
  | 11 => execQcreate q s
  | 12 => execQdestroy q s
  | 13 => execHwrite q s
  | 14 => execLoftwin q s
  | 15 => execKeyset q s
  | 16 => execWayconv q s
  | 17 => execPreempt q s
  | 18 => execCabort q s
  | 19 => execReplay q s
  | 20 => execScrub q s
  | 21 => execResync q s
  | 22 => execRouteset q s
  | _ => execRoutesetComplete q s

/-- A turn of the module's own, by free values: any that may come next can be the one; one that finds nothing to do changes nothing else. -/
def State.ownTurn (s : State) : Out :=
  let (r, s) := s.pick 4
  match r with
  | 0 => s.issueTurn
  | 1 => s.withOne (List.range 17) State.groupTurn
  | 2 => s.withOne (List.range 34) State.unitTurn
  | _ => s.withOne (List.range 24) fun k s => s.withOne (s.queues.map (·.1)) fun q s => s.queueTurn k q

/-- The next turn: the agenda's, or the module's own. Time passes first. -/
def State.nextTurn (s : State) : Out :=
  match s.agenda with
  | t :: ts => State.doAct { s with agenda := ts, now := s.now + t.dt } t.act
  | [] => State.ownTurn { s with now := s.now + Config.ticks s.fresh, fresh := s.fresh + 1 }

end Sys2Proof.Machine
end

