-- ==== Sys2Proof/Machine/Loader.lean ====
section
/-! DEFINITION. How an instruction is placed so that the next step runs it: the load that the driver and the launch of a grid stand for
(log 1). -/
namespace Sys2Proof.Machine

/-- The kind of agent that runs an instruction; the core where several do (03 Table 3.8). -/
def kindFor : Instr → Kind
  | .nret _ => .cellar
  | .mbxs _ _ _ _ => .cellar
  | .mbxw _ _ _ => .cellar
  | .skipz _ _ _ _ => .cellar
  | .msave _ _ => .sequencer
  | .mres _ _ => .sequencer
  | _ => .core

/-- The virtual address at which the word is placed: this module's, offset 0x1000 (16 R312). -/
def placePc : Dword := 0xFFFFE00000001000

/-- A context descriptor whose page table is one level-1 leaf: V, LEAF, W, X and USER at address 0 (16 Tables 16.1, 16.2). -/
def placeCtx : Ctx := { phase := .active, desc := leBytes 8 0x2000 }

/-- One group of the kind, with one fibre at the PC, full allocations. -/
def placeGroup (k : Kind) (pc : Dword) : Group :=
  { kind := k, width := match k with | .core => 32 | .cellar => 16 | .sequencer => 1
    tid := match k with | .cellar => 0 | .core => 1 | .sequencer => 1
    vAlloc := match k with | .cellar => 64 | .core => 256 | .sequencer => 0
    sAlloc := match k with | .cellar => 8 | .core => 32 | .sequencer => 32
    tAlloc := match k with | .cellar => 0 | .core => 8 | .sequencer => 0
    call := match k with | .cellar => some (1, 0) | .core => none | .sequencer => none
    fibres := [(0, { life := .live, pc := pc })] }

/-- The state with a word placed, the agent that issues it, and its issue as the next turn. -/
def State.placeWord (s : State) (w : Nat) : State :=
  let k := match decode {} w with | .ok i => kindFor i | .error _ => .core
  let pc : Dword := match k with | .cellar => 0 | .core => placePc | .sequencer => placePc
  { s with
    cur := {}
    ctxs := tput s.ctxs 0 placeCtx
    groups := tput s.groups 1 (placeGroup k pc)
    teams := tput s.teams 1 { phase := .resident, grid := 1, larderSize := 65536, groups := [1], qregs := 8, zAlloc := 8, binQuota := 128 }
    grids := tput s.grids 1 { teams := 1 }
    cores := tput s.cores 0 { slots := [(0, { gid := 1, mask := 1, pc := pc })] }
    cellars := tput s.cellars 0 { gid := 1, store := leBytes 4 w ++ List.replicate 12 0 }
    calls := tput s.calls 1 { gid := 1, cores := 1, started := true, members := [1] }
    mem := mwrites (mwrites s.mem 0x1000 (leBytes 16 w)) 0x2000 (leBytes 8 0x1F)
    l2 := []
    agenda := [{ act := .issue 1 pc }] }

end Sys2Proof.Machine
end

