-- ==== Sys2Proof/Machine/Step.lean ====
section
/-! DEFINITION. One step of the module: the next word of the instruction under way, or the next turn (log 1). -/
namespace Sys2Proof.Machine

/-- One step: an instruction whose prefixes have been taken goes on; otherwise the next turn is taken. The arbiters see what it leaves. -/
def step (s : State) : Host.Outcome State Fault Refusal := noteOut (if s.cur.mid then s.runWord else s.nextTurn)

/-- The state with an instruction's bytes where the next step fetches them, and an agent of the right kind that issues it (log 1). -/
def State.withFetchWord (s : State) (_nbits w : Nat) : State := s.placeWord w

end Sys2Proof.Machine
end

