-- ==== Sys2Proof/Safety.lean ====
section
/-! DEFINITION. The terms in which claims speak of the machine: canonical memory, registers that can be read and written, what an instruction
leaves as it was, and where its batch stands afterwards. -/
namespace Sys2Proof
open Machine

/-! ### Canonical memory -/

/-- Cells in strictly rising order of address, as an L2's dirty bytes are listed. -/
def rising (l : List Host.Cell) : Bool := decide (l.Pairwise fun a b => a.1 < b.1)

/-- Every byte memory of the module and of the host is in its canonical form: device memory, the L2s' dirty bytes above it, host memory, larders,
scratch, lofts and bins, and the bytes that the cores' L1s hold, listed in order. -/
structure MemoryCanonical (s : State) : Prop where
  mem : s.mem.wf = true
  l2 : rising s.l2 = true
  host : s.hostMem.wf = true
  larders : (s.teams.all fun e => e.2.larder.wf) = true
  scratch : (s.memStacks.all fun e => e.2.scratch.wf) = true
  lofts : (s.dies.all fun e => e.2.loft.wf) = true
  bins : (s.clusters.all fun e => e.2.bins.wf) = true
  l1s : (s.cores.all fun e => decide ((e.2.l1.map (·.1)).Pairwise (· < ·))) = true

/-- A core's L1, where a group of it has one, has room for n more lines: none is given up (01 R13). -/
def L1Room (s : State) (gid n : Nat) : Prop := (s.grp gid).hasL1 = true → (s.core (s.grp gid).place).l1Lines.length + n ≤ l1Capacity

/-! ### Before an instruction (02 R33, R42, R44; 03 R63) -/

/-- The kind of the issuing group runs the instruction, and a guest executes it where it stands (03 R63; 15 R308). -/
def RunsHere (s : State) (av : Avail) : Prop :=
  av.runs s.g.kind = true ∧ (s.g.isGuest = true → av.guest = true)

/-- The references of an instruction lie within the allocation (02 R33), hold no scoreboard bit (02 R42), and read no poison (02 R44). -/
structure Ready (s : State) (av : Avail) (rs : List Ref) : Prop where
  runs : RunsHere s av
  allocated : ∀ r ∈ rs, r.cls ≠ 5 → ∀ i ∈ s.refIdx r, i < s.allocOf r.cls
  free : ∀ r ∈ rs, ∀ i ∈ s.refIdx r, s.g.pending { cls := r.cls, idx := i } = false
  clean : ∀ r ∈ rs, s.poisonOf r = []

/-- The issuing group is listed, and its allocation lies within the files (02 R31, R33). -/
structure Housed (s : State) : Prop where
  listed : thas s.groups s.cur.gid = true
  vfile : s.g.vAlloc ≤ 256
  wide : s.g.width ≤ 64

/-! ### What stays -/

/-- Nothing but the issuing group, its core's issue slots and the issue under way differs. -/
structure OnlyGroup (s t : State) : Prop where
  rest : { t with groups := s.groups, cores := s.cores, cur := s.cur } = s
  others : ∀ k, k ≠ s.cur.gid → t.grp k = s.grp k
  slots : ∀ c, { t.core c with slots := (s.core c).slots } = s.core c

/-- Every byte of every memory reads as it did: device memory, host memory, the larders, scratch, the lofts and the bins. -/
structure MemoryKept (s t : State) : Prop where
  device : ∀ a, t.homeByte a = s.homeByte a
  host : ∀ a, mread t.hostMem a = mread s.hostMem a
  larder : ∀ k a, mread (t.team k).larder a = mread (s.team k).larder a
  scratch : ∀ k a, mread (t.stack k).scratch a = mread (s.stack k).scratch a
  loft : ∀ k a, mread (t.die k).loft a = mread (s.die k).loft a
  bins : ∀ k a, mread (t.cluster k).bins a = mread (s.cluster k).bins a

/-- What a group keeps when an instruction writes at most V, S and P registers and FPFLAGS and moves fibres: everything else, but for the ages
and the time of readiness, which the end of a run updates (13 R264, R265). -/
def GroupKept (g h : Group) : Prop :=
  { h with v := g.v, sregs := g.sregs, fibres := g.fibres, fpflags := g.fpflags, ages := g.ages, readySince := g.readySince } = g

/-- The batch stands at given PCs and waits for nothing; other fibres, and all but the P registers of the batch's, are as they were. -/
def Stands (s t : State) (pc : Nat → Dword) : Prop :=
  ∀ l, (t.grp s.cur.gid).fib l =
    if l ∈ s.batch then { s.g.fib l with pc := pc l, wait := .none, refused := none, fellBack := false, preds := ((t.grp s.cur.gid).fib l).preds } else s.g.fib l

/-- An instruction of the issuing group has completed: nothing but the group's registers differs, no memory does, and the batch stands at given
PCs. -/
structure CompletedAt (s t : State) (pc : Nat → Dword) : Prop where
  only : OnlyGroup s t
  memory : MemoryKept s t
  group : GroupKept s.g (t.grp s.cur.gid)
  stands : Stands s t pc
  ended : t.cur = {}

/-- An instruction of the issuing group has completed, and its batch stands at the next one. -/
abbrev Completed (s t : State) : Prop := CompletedAt s t fun _ => s.cur.npc

/-- t is u with the issuing batch moved to given PCs: nothing else differs but ages, readiness and issue slots (03 R48; 13 R264, R265). -/
structure MovedOn (u t : State) (pc : Nat → Dword) : Prop where
  rest : { t with groups := u.groups, cores := u.cores, cur := u.cur } = u
  others : ∀ k, k ≠ u.cur.gid → t.grp k = u.grp k
  own : { t.grp u.cur.gid with fibres := u.g.fibres, ages := u.g.ages, readySince := u.g.readySince } = u.g
  stands : ∀ l, (t.grp u.cur.gid).fib l =
    if l ∈ u.batch then { u.g.fib l with pc := pc l, wait := .none, refused := none, fellBack := false } else u.g.fib l
  slots : ∀ c, { t.core c with slots := (u.core c).slots } = u.core c
  ended : t.cur = {}

/-- The instruction completes: it has the effect that leads from s to u, and its batch then stands at given PCs. -/
def Does (i : Instr) (s u : State) (pc : Nat → Dword) : Prop := ∃ t, exec i s = .next t ∧ MovedOn u t pc

/-- The instruction completes with the effect that leads from s to u, and its batch stands at the next one. -/
abbrev Goes (i : Instr) (s u : State) : Prop := Does i s u fun _ => s.cur.npc

/-- The V registers, but for those from field d of the batch's lanes, which hold what `f` gives, without poison (02 R38, R44). -/
def VRegs (s t : State) (d : Reg) (f : Nat → List Word) : Prop :=
  ∀ l p, p < 256 →
    (t.grp s.cur.gid).vlane l p =
      if l ∈ s.batch ∧ s.g.phys l d ≤ p ∧ p < s.g.phys l d + (f l).length then { val := (f l).getD (p - s.g.phys l d) 0 } else s.g.vlane l p

/-- The P registers, but for Pd of the batch's lanes, which holds what `f` gives. -/
def PRegs (s t : State) (d : Nat) (f : Nat → Bool) : Prop :=
  ∀ l i, i < 16 → (t.grp s.cur.gid).pbit l i = if l ∈ s.batch ∧ i = d then f l else s.g.pbit l i

/-- The S registers, but for those from field d, which hold the words. -/
def SRegs (s t : State) (d : Nat) (ws : List Word) : Prop :=
  ∀ i, (t.grp s.cur.gid).sreg i = if d ≤ i ∧ i < d + ws.length then ws.getD (i - d) 0 else s.g.sreg i

/-- FPFLAGS gathered: sticky, ORed with the flags of every lane of the batch (02 R38). -/
def FlagsOr (s t : State) (f : Nat → Nat) : Prop :=
  (t.grp s.cur.gid).fpflags = s.g.fpflags ||| w32 (s.batch.foldl (fun m l => m ||| f l) 0 % 64)

/-! ### Instructions that write V registers -/

/-- An instruction on V registers: where it runs, what it reads, a condition of its own, its destination field and width, and what a lane
receives with the flags it raises. -/
structure VecSpec where
  av : Avail := avVec
  srcs : List Ref
  cond : Prop := True
  d : Reg
  n : Nat := 1
  val : Nat → List Word × Nat

/-- The instruction completes: the lanes of the batch hold what the rule gives, and nothing else is written. -/
structure VecDone (s t : State) (d : Reg) (val : Nat → List Word × Nat) : Prop where
  done : Completed s t
  regs : VRegs s t d fun l => (val l).1
  preds : PRegs s t 16 fun _ => false
  sregs : SRegs s t 0 []
  flags : FlagsOr s t fun l => (val l).2

/-- The instruction completes: Pd of the batch's lanes holds what the rule gives, and nothing else is written. -/
structure PredDone (s t : State) (d : Nat) (val : Nat → Bool × Nat) : Prop where
  done : Completed s t
  regs : VRegs s t 0 fun _ => []
  preds : PRegs s t d fun l => (val l).1
  sregs : SRegs s t 0 []
  flags : FlagsOr s t fun l => (val l).2

/-- The instruction completes: the S registers from field d hold the words, and nothing else is written. -/
structure ScalarDone (s t : State) (d : Reg) (ws : List Word) : Prop where
  done : Completed s t
  regs : VRegs s t 0 fun _ => []
  preds : PRegs s t 16 fun _ => false
  sregs : SRegs s t d.toNat ws
  flags : FlagsOr s t fun _ => 0

/-! ### What each register instruction gives (06) -/

/-- An instruction of two source words. -/
def VecSpec.two (s : State) (d : Reg) (a b : Src) (f : Word → Word → Word) : VecSpec :=
  { srcs := [srcRef a, srcRef b], d := d, val := fun l => ([f (s.g.src l a) (s.g.src l b)], 0) }
/-- An instruction of one source word. -/
def VecSpec.one (s : State) (d : Reg) (a : Src) (f : Word → Word) : VecSpec :=
  { srcs := [srcRef a], d := d, val := fun l => ([f (s.g.src l a)], 0) }
/-- An instruction that reads two source words and its destination (06 R109, R126). -/
def VecSpec.third (s : State) (d : Reg) (a b : Src) (f : Word → Word → Word → Word) : VecSpec :=
  { srcs := [srcRef a, srcRef b, vsrc d], d := d, val := fun l => ([f (s.g.vval l (s.g.phys l d)) (s.g.src l a) (s.g.src l b)], 0) }

/-- A source pair as a 64-bit value, low half first (05 R83). -/
def pairOf (s : State) (l : Nat) (a : Src) : Dword := s.g.src l a 1 ++ s.g.src l a 0
/-- The two words of a 64-bit value, low half first (05 R83). -/
def wordsOf64 (x : Dword) : List Word := [x.truncate 32, (x >>> 32).truncate 32]

/-- An instruction of two source pairs and a destination pair. -/
def VecSpec.pairs (s : State) (d : Reg) (a b : Src) (f : Dword → Dword → Dword) : VecSpec :=
  { srcs := [srcRef a 2, srcRef b 2], d := d, n := 2, val := fun l => (wordsOf64 (f (pairOf s l a) (pairOf s l b)), 0) }
/-- An instruction of a source pair, a source word and a destination pair. -/
def VecSpec.pairWord (s : State) (d : Reg) (a b : Src) (f : Dword → Word → Dword) : VecSpec :=
  { srcs := [srcRef a 2, srcRef b], d := d, n := 2, val := fun l => (wordsOf64 (f (pairOf s l a) (s.g.src l b)), 0) }

/-- What the integer, bit and address instructions give (06 R104 to R114). -/
def intSpec (s : State) : Instr → Option VecSpec
  | .iadd m d a b _ => some (match m with
      | .i32 => .two s d a b fun x y => x + y
      | .i64 => .pairs s d a b fun x y => x + y
      | m => .two s d a b fun x y => w32 (addLane m false x.toNat y.toNat))
  | .isub m d a b _ => some (match m with
      | .i32 => .two s d a b fun x y => x - y
      | .i64 => .pairs s d a b fun x y => x - y
      | m => .two s d a b fun x y => w32 (addLane m true x.toNat y.toNat))
  | .imul m d a b _ => some (match m with
      | .loI32 => .two s d a b fun x y => x * y
      | .hiI32 => .two s d a b fun x y => ((x.signExtend 64 * y.signExtend 64) >>> 32).truncate 32
      | .hiN32 => .two s d a b fun x y => ((x.zeroExtend 64 * y.zeroExtend 64) >>> 32).truncate 32
      | .i16x2 => .two s d a b fun x y => w32 (mulLane .i16x2 x.toNat y.toNat)
      | .wideI32 => { srcs := [srcRef a, srcRef b], d := d, n := 2
                      val := fun l => (wordsOf64 ((s.g.src l a).signExtend 64 * (s.g.src l b).signExtend 64), 0) }
      | .wideN32 => { srcs := [srcRef a, srcRef b], d := d, n := 2
                      val := fun l => (wordsOf64 ((s.g.src l a).zeroExtend 64 * (s.g.src l b).zeroExtend 64), 0) }
      | .loI64 => .pairs s d a b fun x y => x * y)
  | .imin m d a b _ => some (match m with
      | .i32 => .two s d a b fun x y => if y.slt x then y else x
      | .n32 => .two s d a b fun x y => if y < x then y else x
      | .i16x2 => .two s d a b fun x y => w32 (mmLane .i16x2 false x.toNat y.toNat))
  | .imax m d a b _ => some (match m with
      | .i32 => .two s d a b fun x y => if x.slt y then y else x
      | .n32 => .two s d a b fun x y => if x < y then y else x
      | .i16x2 => .two s d a b fun x y => w32 (mmLane .i16x2 true x.toNat y.toNat))
  | .iabsd d a b _ => some (.two s d a b fun x y => w32 (x.toInt - y.toInt).natAbs)
  | .iabs d a _ => some (.one s d a fun x => if x.slt 0 then -x else x)
  | .and d a b _ => some (.two s d a b fun x y => x &&& y)
  | .or d a b _ => some (.two s d a b fun x y => x ||| y)
  | .xor d a b _ => some (.two s d a b fun x y => x ^^^ y)
  | .andn d a b _ => some (.two s d a b fun x y => x &&& ~~~y)
  | .orn d a b _ => some (.two s d a b fun x y => x ||| ~~~y)
  | .xnor d a b _ => some (.two s d a b fun x y => ~~~(x ^^^ y))
  | .not d a _ => some (.one s d a fun x => ~~~x)
  | .shl d a b _ => some (.two s d a b fun x y => x <<< (y.toNat % 32))
  | .shr d a b _ => some (.two s d a b fun x y => x >>> (y.toNat % 32))
  | .sar d a b _ => some (.two s d a b fun x y => x.sshiftRight (y.toNat % 32))
  | .rol d a b _ => some (.two s d a b fun x y => x.rotateLeft (y.toNat % 32))
  | .ror d a b _ => some (.two s d a b fun x y => x.rotateRight (y.toNat % 32))
  | .shlI64 d a b _ => some (.pairWord s d a b fun x y => x <<< (y.toNat % 64))
  | .shrI64 d a b _ => some (.pairWord s d a b fun x y => x >>> (y.toNat % 64))
  | .sarI64 d a b _ => some (.pairWord s d a b fun x y => x.sshiftRight (y.toNat % 64))
  | .popc d a _ => some (.one s d a fun x => w32 ((List.range 32).countP fun i => x.getLsbD i))
  | .clz d a _ => some (.one s d a fun x => w32 (leadZeros 32 x.toNat))
  | .ctz d a _ => some (.one s d a fun x => w32 (trailZeros 32 x.toNat))
  | .brev d a _ => some (.one s d a fun x => x.reverse)
  | .bfx u d a b _ => some (.two s d a b fun x y => w32 (bfxLane u x.toNat y.toNat))
  | .bfi d a b _ => some (.third s d a b bfiLane)
  | .prmt d a b _ => some (.third s d a b fun o x y => w32 (prmtLane o.toNat x.toNat y.toNat))
  | .sel k d a b _ => some { srcs := [srcRef a, srcRef b, pref k.toNat], d := d
                             val := fun l => ([if s.g.pbit l k.toNat then s.g.src l a else s.g.src l b], 0) }
  | .imad m d a b c _ => some (
      let (a, b, c) := (s.modSrc a 0, s.modSrc b 1, s.modSrc c 2)
      let n := if m = .wideI32 ∨ m = .wideN32 then 2 else 1
      { srcs := [srcRef a, srcRef b, srcRef c n], d := d, n := n
        val := fun l =>
          let (x, y, z) := (s.g.src l a, s.g.src l b, s.g.src l c)
          (match m with
            | .loI32 => [x * y + z]
            | .hiI32 => [((x.signExtend 64 * y.signExtend 64) >>> 32).truncate 32 + z]
            | .hiN32 => [((x.zeroExtend 64 * y.zeroExtend 64) >>> 32).truncate 32 + z]
            | .wideI32 => wordsOf64 (x.signExtend 64 * y.signExtend 64 + pairOf s l c)
            | .wideN32 => wordsOf64 (x.zeroExtend 64 * y.zeroExtend 64 + pairOf s l c), 0) })
  | .idot4 u d a b c _ => some (
      let (a, b, c) := (s.modSrc a 0, s.modSrc b 1, s.modSrc c 2)
      { srcs := [srcRef a, srcRef b, srcRef c], d := d
        val := fun l => ([w32 (idotLane 4 8 (!u) (s.g.src l a).toNat (s.g.src l b).toNat (s.g.src l c).toNat)], 0) })
  | .idot2 d a b c _ => some (
      let (a, b, c) := (s.modSrc a 0, s.modSrc b 1, s.modSrc c 2)
      { srcs := [srcRef a, srcRef b, srcRef c], d := d
        val := fun l => ([w32 (idotLane 2 16 true (s.g.src l a).toNat (s.g.src l b).toNat (s.g.src l c).toNat)], 0) })
  | .lea k d a b _ => some (.two s d a b fun x y => x + y <<< k.toNat)
  | .lea64 k d a b _ => some (.pairWord s d a b fun x y => x + y.zeroExtend 64 <<< k.toNat)
  | .iaddi d a i _ => some (.one s d a fun x => x + s.immS i)
  | .andi d a i _ => some (.one s d a fun x => x &&& s.immS i)
  | .shi k d a n _ => some (.one s d a fun x => shiftWord k x n.toNat)
  | .movi d i _ => some { srcs := [], d := d, val := fun _ => ([s.immS i], 0) }
  | _ => none

/-- A floating-point instruction of one F32 source. -/
def VecSpec.fp1 (s : State) (av : Avail) (d : Reg) (a : Src) (f : Nat → Nat × Nat) : VecSpec :=
  { av := av, srcs := [srcRef a], d := d, val := fun l => let r := f (s.g.src l a).toNat; ([w32 r.1], r.2) }
/-- A floating-point instruction of two sources of a form. -/
def VecSpec.fp2 (s : State) (m : FpForm) (d : Reg) (a b : Src) (f : Fmt → Nat → Nat → Nat × Nat) : VecSpec :=
  { av := if m = .f64 then avCore else avVec, srcs := [srcRef a (fpRegs m), srcRef b (fpRegs m)], d := d, n := fpRegs m
    val := fun l => fres (fpWide m) (fpLane2 m f (s.g.srcN (fpWide m) l a) (s.g.srcN (fpWide m) l b)) }
/-- A floating-point instruction of three F32 sources under MOD's patterns. -/
def VecSpec.fp3 (s : State) (av : Avail) (d a b c : Reg) (f : Nat → Nat → Nat → Nat × Nat) : VecSpec :=
  let (a, b, c) := (s.modSrc a 0, s.modSrc b 1, s.modSrc c 2)
  { av := av, srcs := [srcRef a, srcRef b, srcRef c], d := d
    val := fun l => let r := f (s.g.src l a).toNat (s.g.src l b).toNat (s.g.src l c).toNat; ([w32 r.1], r.2) }

/-- What the floating-point instructions give, each rounded once with its flags (05 R79 to R94; 06 R103, R117 to R123). -/
def fpSpec (s : State) : Instr → Option VecSpec
  | .fadd m d a b _ => some (.fp2 s m d a b fun f => fAdd f s.md false)
  | .fsub m d a b _ => some (.fp2 s m d a b fun f => fAdd f s.md true)
  | .fmul m d a b _ => some (.fp2 s m d a b fun f => fMul f s.md)
  | .fmin m d a b _ => some (.fp2 s m d a b fun f => fMinMax f s.md false)
  | .fmax m d a b _ => some (.fp2 s m d a b fun f => fMinMax f s.md true)
  | .fabs d a _ => some (.one s d a fun x => x &&& 0x7FFFFFFF)
  | .fneg d a _ => some (.one s d a fun x => x ^^^ 0x80000000)
  | .fclass d a _ => some (.one s d a fun x => w32 (fClass x.toNat))
  | .frndn d a _ => some (.fp1 s avVec d a (fRound s.md .rne))
  | .frndz d a _ => some (.fp1 s avVec d a (fRound s.md .rz))
  | .frndd d a _ => some (.fp1 s avVec d a (fRound s.md .rd))
  | .fcopys d a b _ => some (.two s d a b fun x y => (x &&& 0x7FFFFFFF) ||| (y &&& 0x80000000))
  | .fscale d a b _ => some { srcs := [srcRef a, srcRef b], d := d
                              val := fun l => let r := fScale s.md (s.g.src l a).toNat (s.g.src l b).toInt; ([w32 r.1], r.2) }
  | .frcp d a _ => some (.fp1 s avCore d a (fTrans .rcp s.md))
  | .frsq d a _ => some (.fp1 s avCore d a (fTrans .rsq s.md))
  | .fsqrt d a _ => some (.fp1 s avCore d a (fTrans .sqrt s.md))
  | .fexp2 d a _ => some (.fp1 s avCore d a (fTrans .exp2 s.md))
  | .flog2 d a _ => some (.fp1 s avCore d a (fTrans .log2 s.md))
  | .fsin d a _ => some (.fp1 s avCore d a (fTrans .sin s.md))
  | .fcos d a _ => some (.fp1 s avCore d a (fTrans .cos s.md))
  | .ftanh d a _ => some (.fp1 s avCore d a (fTrans .tanh s.md))
  | .hdot2 bf d a b c _ => some (.fp3 s avCore d a b c fun x y z => fDot (if bf then fBF16 else fF16) s.md (elemPairs 2 16 x y) z)
  | .hdot4 e5 d a b c _ => some (.fp3 s avCore d a b c fun x y z => fDot (if e5 then fF8E5 else fF8E4) s.md (elemPairs 4 8 x y) z)
  | .fma m d a b c _ => some (
      let (a, b, c) := (s.modSrc a 0, s.modSrc b 1, s.modSrc c 2)
      { av := if m = .f64 then avCore else avVec, srcs := [srcRef a (fpRegs m), srcRef b (fpRegs m), srcRef c (fpRegs m)], d := d, n := fpRegs m
        val := fun l =>
          let (x, y, z) := (s.g.srcN (fpWide m) l a, s.g.srcN (fpWide m) l b, s.g.srcN (fpWide m) l c)
          fres (fpWide m) (perElement (fpPacked m) fun i =>
            fFma (fpFmt m) (fpFmt m) s.md false false (elemOf (fpPacked m) x i) (elemOf (fpPacked m) y i) (elemOf (fpPacked m) z i)) })
  | .fms d a b c _ => some (.fp3 s avVec d a b c (fFma fF32 fF32 s.md false true))
  | .fnma d a b c _ => some (.fp3 s avVec d a b c (fFma fF32 fF32 s.md true false))
  | .fmaMixed m d a b c _ => some (.fp3 s avVec d a b c fun x y z =>
      fFma (mixFmt m) fF32 s.md false false (elemOf true x (mixHalf m)) (elemOf true y (mixHalf m)) z)
  | .cvt r src dst d a _ => some { av := if src = .f64 ∨ dst = .f64 then avCore else avVec, srcs := [srcRef a (typeRegs src)], d := d, n := typeRegs dst
                                   val := fun l => let x := convert s.md r src dst (s.g.srcN (typeBits src == 64) l a % 2 ^ typeBits src); (placeType dst x.1, x.2) }
  | .pack m d a b _ => some { av := avCore, srcs := [srcRef a, srcRef b] ++ (if m = .h then [] else [vsrc d]), d := d
                              val := fun l => ([packLane m (s.g.vval l (s.g.phys l d)) (s.g.src l a) (s.g.src l b)], 0) }
  | .unpk m d a b _ => some { av := avCore, srcs := [srcRef a, srcRef b], d := d, val := fun l => ([unpkLane m (s.g.src l a) (s.g.src l b)], 0) }
  | .fscl m d a b _ => some { av := avCore, srcs := [srcRef a, srcRef b], d := d
                              val := fun l => let r := fsclLane m s.md (s.g.src l a) (s.g.src l b); ([w32 r.1], r.2) }
  | _ => none

/-- An exchange: lane l receives register a of lane `m l`, whose poison alone counts; a uniform operand agrees across the batch (06 R129). -/
def VecSpec.xch (s : State) (d a : Reg) (b : Option Src) (uni : Bool) (m : Nat → Nat) : VecSpec :=
  { av := avCore, srcs := { cls := 0, field := a.toNat } :: (b.map srcRef).toList, d := d
    cond := (∀ l ∈ s.batch, (s.g.vlane (m l) (s.g.phys l a)).pois = false) ∧
      (uni = true → ∀ x ∈ b, ∀ l ∈ s.batch, ∀ k ∈ s.batch, s.g.src l x = s.g.src k x)
    val := fun l => ([s.g.vval (m l) (s.g.phys l a)], 0) }

/-- The exchanges: destination, source, operand, whether it is uniform, and the lane whose register a lane receives (06 R129). -/
def xchOf (s : State) : Instr → Option (Reg × Reg × Option Src × Bool × (Nat → Nat))
  | .xchRot d a b _ => some (d, a, some b, true, fun l => (l + s.xchN b) % s.g.width)
  | .xchXor d a b _ => some (d, a, some b, true, fun l => l ^^^ (s.xchN b % s.g.width))
  | .xchBcast d a b _ => some (d, a, some b, true, fun _ => s.xchN b % s.g.width)
  | .xchMirror d a _ => some (d, a, none, false, fun l => s.g.width - 1 - l)
  | .xchIdx d a b _ => some (d, a, some b, false, fun l => (s.g.src l b).toNat % s.g.width)
  | .xchShup d a b _ => some (d, a, some b, true, fun l => if s.xchN b ≤ l then l - s.xchN b else l)
  | .xchShdn d a b _ => some (d, a, some b, true, fun l => if l + s.xchN b < s.g.width then l + s.xchN b else l)
  | _ => none

/-- What the other lane instructions that write V registers give (06 R130 to R132). -/
def laneSpec (s : State) : Instr → Option VecSpec
  | .voteMatch a c _ => some { srcs := [vsrc c], d := a, n := if s.g.width = 64 then 2 else 1
                               val := fun l =>
                                 let m := maskOf (s.batch.filter fun k => s.g.vval k (s.g.phys k c) == s.g.vval l (s.g.phys l c))
                                 (wordsOf (s.g.width == 64) m, 0) }
  | .redl m d a _ => some { srcs := [srcRef a], d := d
                            val := fun l =>
                              let r := treeSteps (fun x y => redStep m s.md y x) (fun k l => some (l ^^^ k)) s.g.width 6 1 (s.redVector m a, 0)
                              ([w32 (r.1.getD l 0)], r.2) }
  | .scanl m x d a _ => some { srcs := [srcRef a], d := d
                               val := fun l =>
                                 let r := treeSteps (redStep (scanRed m) s.md) (fun k l => if k ≤ l then some (l - k) else none) s.g.width 6 1
                                   (s.redVector (scanRed m) a, 0)
                                 ([w32 (if x then (if l = 0 then scanFirst m else r.1.getD (l - 1) 0) else r.1.getD l 0)], r.2) }
  | i => (xchOf s i).map fun (d, a, b, u, m) => .xch s d a b u m

/-- The 32-bit form as which a 16-bit form executes (03 Table 3.2). -/
def expanded : Instr → Option Instr
  | .iaddC16 c r d => some (.iadd .i32 d (.v d .straight) (c16Src c r) false)
  | .isubC16 c r d => some (.isub .i32 d (.v d .straight) (c16Src c r) false)
  | .imulC16 c r d => some (.imul .loI32 d (.v d .straight) (c16Src c r) false)
  | .andC16 c r d => some (.and d (.v d .straight) (c16Src c r) false)
  | .orC16 c r d => some (.or d (.v d .straight) (c16Src c r) false)
  | .xorC16 c r d => some (.xor d (.v d .straight) (c16Src c r) false)
  | .shlC16 c r d => some (.shl d (.v d .straight) (c16Src c r) false)
  | .shrC16 c r d => some (.shr d (.v d .straight) (c16Src c r) false)
  | .movC16 c r d => some (.or d (c16Src c r) (c16Src c r) false)
  | .faddC16 c r d => some (.fadd .f32 d (.v d .straight) (c16Src c r) false)
  | .fmaxC16 c r d => some (.fmax .f32 d (.v d .straight) (c16Src c r) false)
  | .fmulC16 c r d => some (.fmul .f32 d (.v d .straight) (c16Src c r) false)
  | _ => none

/-- What the 16-bit forms give: what their 32-bit form gives, or an immediate sign-extended from 6 bits (03 R51). -/
def compactSpec (s : State) : Instr → Option VecSpec
  | .moviC16 i d => some { srcs := [], d := d, val := fun _ => ([i.signExtend 32], 0) }
  | .iaddiC16 i d => some (.one s d (.v d .straight) fun x => x + i.signExtend 32)
  | i => (expanded i).bind fun j => (intSpec s j).orElse fun _ => fpSpec s j

/-- What an instruction that writes Pd gives, with what it reads: sources, destination, and a lane's bit and flags (06 R110, R119, R130). -/
def predSpec (s : State) : Instr → Option (List Ref × PReg × (Nat → Bool × Nat))
  | .icmp m d a b _ => some ([srcRef a, srcRef b], d, fun l =>
      let (x, y) := (s.g.src l a, s.g.src l b)
      (match m with
        | .eq => decide (x = y) | .ne => decide (x ≠ y) | .ltI => x.slt y | .leI => x.sle y | .ltN => decide (x < y) | .leN => decide (x ≤ y)
        | .tst => decide (x &&& y ≠ 0), 0))
  | .fcmp m d a b _ => some ([srcRef a, srcRef b], d, fun l => fCmp m s.md (s.g.src l a).toNat (s.g.src l b).toNat)
  | .voteAny a b _ => some ([pref b.toNat], a, fun _ => (s.batch.any fun l => s.g.pbit l b.toNat, 0))
  | .voteAll a b _ => some ([pref b.toNat], a, fun _ => (s.batch.all fun l => s.g.pbit l b.toNat, 0))
  | _ => none

/-- An S instruction: where it runs, what it reads, a condition of its own, its destination field, and the words it receives. -/
structure ScalarSpec where
  av : Avail := avScalar
  srcs : List Ref
  cond : Prop := True
  d : Reg
  words : List Word

/-- An S instruction of two sources. -/
def ScalarSpec.two (s : State) (d a b : Reg) (f : Word → Word → Word) : ScalarSpec :=
  { srcs := [sref a, sref b], d := d, words := [f (s.g.sreg a.toNat) (s.g.sreg b.toNat)] }
/-- An S instruction of one source. -/
def ScalarSpec.one (s : State) (d a : Reg) (f : Word → Word) : ScalarSpec :=
  { srcs := [sref a], d := d, words := [f (s.g.sreg a.toNat)] }

/-- What the instructions that write S registers from registers give (06 R115, R116, R130). -/
def scalarSpec (s : State) : Instr → Option ScalarSpec
  | .sadd d a b _ => some (.two s d a b fun x y => x + y)
  | .ssub d a b _ => some (.two s d a b fun x y => x - y)
  | .smul d a b _ => some (.two s d a b fun x y => x * y)
  | .sand d a b _ => some (.two s d a b fun x y => x &&& y)
  | .sor d a b _ => some (.two s d a b fun x y => x ||| y)
  | .sxor d a b _ => some (.two s d a b fun x y => x ^^^ y)
  | .sshl d a b _ => some (.two s d a b fun x y => x <<< (y.toNat % 32))
  | .sshr d a b _ => some (.two s d a b fun x y => x >>> (y.toNat % 32))
  | .smovi d i _ => some { srcs := [], d := d, words := [s.immS i] }
  | .saddi d a i _ => some (.one s d a fun x => x + s.immS i)
  | .smin u d a b _ => some (.two s d a b fun x y => if u then (if y < x then y else x) else (if y.slt x then y else x))
  | .smax u d a b _ => some (.two s d a b fun x y => if u then (if x < y then y else x) else (if x.slt y then y else x))
  | .ssel d a b _ => some (.two s d a b fun x y => if s.g.sreg d.toNat ≠ 0 then x else y)
  | .spopc d a _ => some (.one s d a fun x => w32 ((List.range 32).countP fun i => x.getLsbD i))
  | .sclz d a _ => some (.one s d a fun x => w32 (leadZeros 32 x.toNat))
  | .rdlane d a b _ => some (
      let l := (s.g.sreg b.toNat).toNat % s.g.width
      let p := s.g.phys s.lane0 a
      { av := avCore, srcs := [{ cls := 0, field := a.toNat, low := true }, sref b], cond := (s.g.vlane l p).pois = false, d := d, words := [s.g.vval l p] })
  | .voteBallot a b _ => some { av := avVec, srcs := [pref b.toNat], d := a
                                words := wordsOf (s.g.width == 64) (maskOf (s.batch.filter fun l => s.g.pbit l b.toNat)) }
  | .votePopc a b _ => some { av := avVec, srcs := [pref b.toNat], d := a, words := [w32 (s.batch.filter fun l => s.g.pbit l b.toNat).length] }
  | _ => none

/-! ### Traps (03 R64; 17 R331 to R334) -/

/-- A core's group at home whose launch has a user handler that is not running, with no store queued; the larder's lines where its trap record goes
hold their bytes. -/
structure HandlerFree (s : State) : Prop where
  kind : s.g.kind = .core
  home : s.g.guest = none
  free : s.g.call = none
  idle : s.g.handler = 0
  empty : s.g.stores = []
  vector : (s.grid s.tm.grid).trapvec ≠ 0
  wf : s.tm.larder.wf = true
  held : ∀ line k w, s.recordAt s.cur.gid / 256 ≤ line → line ≤ (s.recordAt s.cur.gid + 127) / 256 → s.tm.window line = some (k, w) →
    line ∈ w.valid

/-- The batch has entered the user handler: the trap record stands in the team's larder, each fibre at the vector with its window moved, and the
group's registers and every other byte are as they were (03 Table 3.9; 17 R333). -/
structure EntersHandler (s t : State) (code detail addr : Nat) : Prop where
  fmask : (t.grp s.cur.gid).handler = s.cur.mask
  fibres : ∀ l, (t.grp s.cur.gid).fib l =
    if l ∈ s.batch then
      { s.g.fib l with pc := BitVec.ofNat 64 (s.grid s.tm.grid).trapvec, wait := .none,
                       wb8 := (s.g.fib l).wb8 + BitVec.ofNat 8 ((s.grid s.tm.grid).trapwin / 8) }
    else s.g.fib l
  pc : fieldAt (mreads (t.team s.g.tid).larder (s.recordAt s.cur.gid) 128) 0 8 = s.cur.pc.toNat
  nextpc : fieldAt (mreads (t.team s.g.tid).larder (s.recordAt s.cur.gid) 128) 8 8 = s.cur.npc.toNat
  parcels : sliceAt (mreads (t.team s.g.tid).larder (s.recordAt s.cur.gid) 128) 0x10 12 = parcelBytes s.cur.parcels
  count : fieldAt (mreads (t.team s.g.tid).larder (s.recordAt s.cur.gid) 128) 0x1C 1 = s.cur.parcels.length % 256
  codeByte : fieldAt (mreads (t.team s.g.tid).larder (s.recordAt s.cur.gid) 128) 0x1D 1 = code % 256
  flags : fieldAt (mreads (t.team s.g.tid).larder (s.recordAt s.cur.gid) 128) 0x1E 1 =
    b2n (s.g.width == 64) + 2 * b2n s.cur.pre.lit.isSome + 4 * b2n s.cur.pre.mod.isSome + 8 * b2n s.cur.c16
  kindByte : fieldAt (mreads (t.team s.g.tid).larder (s.recordAt s.cur.gid) 128) 0x1F 1 = kindCode s.g.kind
  mask : fieldAt (mreads (t.team s.g.tid).larder (s.recordAt s.cur.gid) 128) 0x20 8 = s.cur.mask % 2 ^ 64
  detailWord : fieldAt (mreads (t.team s.g.tid).larder (s.recordAt s.cur.gid) 128) 0x28 8 = detail % 2 ^ 64
  addrWord : fieldAt (mreads (t.team s.g.tid).larder (s.recordAt s.cur.gid) 128) 0x30 8 = addr % 2 ^ 64
  modeWord : fieldAt (mreads (t.team s.g.tid).larder (s.recordAt s.cur.gid) 128) 0x38 4 = s.g.fpmode.toNat
  windows : ∀ l, l < 64 →
    fieldAt (mreads (t.team s.g.tid).larder (s.recordAt s.cur.gid) 128) (0x40 + l) 1 = if bitOf s.cur.mask l then (s.g.fib l).wb8.toNat else 0
  larder : ∀ a, (a < s.recordAt s.cur.gid ∨ s.recordAt s.cur.gid + 128 ≤ a) → mread (t.team s.g.tid).larder a = mread s.tm.larder a
  regs : (t.grp s.cur.gid).v = s.g.v ∧ (t.grp s.cur.gid).sregs = s.g.sregs ∧ (t.grp s.cur.gid).tiles = s.g.tiles ∧
    (t.grp s.cur.gid).fpflags = s.g.fpflags ∧ (t.grp s.cur.gid).fpmode = s.g.fpmode ∧ (t.grp s.cur.gid).lx = s.g.lx
  others : ∀ k, k ≠ s.cur.gid → t.grp k = s.grp k
  memory : ∀ a, t.homeByte a = s.homeByte a ∧ mread t.hostMem a = mread s.hostMem a
  ended : t.cur = {}

/-- The instruction takes a trap: no effect of its own happens (17 R332). What a trap does is stated for every trap at once. -/
def TakesTrap (i : Instr) (s : State) (code detail addr : Nat) : Prop := exec i s = .next (s.halt (.trap { code := code, detail := detail, addr := addr }))

/-- The lowest lane of the batch that fails a check (11 R205, R207). -/
def FirstLane (s : State) (bad : Nat → Prop) (l : Nat) : Prop := l ∈ s.batch ∧ bad l ∧ ∀ k ∈ s.batch, k < l → ¬ bad k

/-- An access of the larder, a call's scratch or the loft: its size, its displacement, its address register, the bytes that the space holds for the
issuing group, the trap and cause beyond them, its registers, its counter, and the kinds that run it (09 R163, R168, R174; 11 R211, R212; 14 R274). -/
structure OffsetForm where
  size : Size
  disp : Int
  reg : Reg
  limit : Nat
  beyond : Nat × Nat
  refs : List Ref
  ctr : Ctr
  av : Avail

/-- LDL and STL, with their 16-bit forms, and LDO and STO. -/
def offsetForm (s : State) : Instr → Option OffsetForm
  | .ldl z i r t _ => some (larder z (s.immML i * sizeBytes z) r [vsrc r, vdst t (sizeRegs z)] .ld)
  | .stl z i r t _ => some (larder z (s.immML i * sizeBytes z) r [vsrc r, vsrc t (sizeRegs z)] .st)
  | .ldlC16 r t => some (larder .b32 0 r [vsrc r, vdst t] .ld)
  | .stlC16 r t => some (larder .b32 0 r [vsrc r, vsrc t] .st)
  | .ldo z i r t _ => some ⟨z, s.immML i * sizeBytes z, r, s.loftWin.2, (tBOUNDS, 3), [vsrc r, vdst t (sizeRegs z)], .ld, avHome⟩
  | .sto z i r t _ => some ⟨z, s.immML i * sizeBytes z, r, s.loftWin.2, (tBOUNDS, 3), [vsrc r, vsrc t (sizeRegs z)], .st, avHome⟩
  | _ => none
where
  /-- the team's larder, or the scratch of the call that the issuing core runs -/
  larder (z : Size) (disp : Int) (r : Reg) (refs : List Ref) (c : Ctr) : OffsetForm :=
    match s.g.call with
    | some (k, _) => ⟨z, disp, r, fieldAt (s.call k).msg 0x14 4 * 65536, (tPROT, 3), refs, c, avHomeCellar⟩
    | none => ⟨z, disp, r, s.tm.larderSize, (tBOUNDS, 3), refs, c, avHomeCellar⟩

/-- An access of global memory: its size, its address register, its pool index and displacement, whether it writes, its registers, its counter, the
kinds that run it, and whether a page that is not there makes its group replayable (09 R171; 11 R206, R208, R210). -/
structure GlobalForm where
  size : Size
  reg : Reg
  pool : Nat
  disp : Nat
  write : Bool
  refs : List Ref
  ctr : Ctr
  av : Avail
  replays : Bool

/-- LDG, STG and LDP. -/
def globalForm (s : State) : Instr → Option GlobalForm
  | .ldg z i p r t _ => some ⟨z, r, s.poolIdx p, s.immM i * sizeBytes z, false, [vsrc r (addrRegs (s.poolIdx p)), vdst t (sizeRegs z)], .ld, avVec, true⟩
  | .stg z i p r t _ => some ⟨z, r, s.poolIdx p, s.immM i * sizeBytes z, true, [vsrc r (addrRegs (s.poolIdx p)), vsrc t (sizeRegs z)], .st, avVec, true⟩
  | .ldp z q p r t _ =>
    some ⟨z, r, s.poolIdx p, 0, false, [vsrc r (addrRegs (s.poolIdx p)), vdst t (sizeRegs z), pref q.toNat], .ld, avCore, false⟩
  | _ => none

/-- Every byte of every memory but that of a target reads as it did. -/
structure OtherMemoryKept (s t : State) (tid : Nat) (tgt : Target) : Prop where
  device : (∀ a p, tgt ≠ .dev a p) → ∀ a, t.homeByte a = s.homeByte a
  host : (∀ a, tgt ≠ .host a) → ∀ a, mread t.hostMem a = mread s.hostMem a
  larder : ∀ k, (k ≠ tid ∨ ∀ a, tgt ≠ .larder a) → ∀ a, mread (t.team k).larder a = mread (s.team k).larder a
  scratch : ∀ k, (∀ a, tgt ≠ .scratch k a) → ∀ a, mread (t.stack k).scratch a = mread (s.stack k).scratch a
  loft : ∀ k, (∀ a, tgt ≠ .loft k a) → ∀ a, mread (t.die k).loft a = mread (s.die k).loft a
  bins : ∀ k a, mread (t.cluster k).bins a = mread (s.cluster k).bins a

/-! ### Loads and stores under way (02 R42, R43; 10 R180) -/

/-- What begins under way for the issuing group, whose batch has moved on: a Return, a counter that rises by one, accesses at the end of the store
queue; all registers and memory are as they were. -/
structure Begun (s t : State) (c : Ctr) (r : Return) (os : List StoreOp) : Prop where
  returns : (t.grp s.cur.gid).returns = s.g.returns ++ [r]
  counted : r.ctr = some c
  counter : ∀ k, (t.grp s.cur.gid).ctr k = if k = c then s.g.ctr k + 1 else s.g.ctr k
  stores : (t.grp s.cur.gid).stores = s.g.stores ++ os
  group : { t.grp s.cur.gid with returns := s.g.returns, stores := s.g.stores, ld := s.g.ld, st := s.g.st, cp := s.g.cp, tl := s.g.tl,
                                 fibres := s.g.fibres, ages := s.g.ages, readySince := s.g.readySince } = s.g
  stands : Stands s t fun _ => s.cur.npc
  preds : ∀ l i, (t.grp s.cur.gid).pbit l i = s.g.pbit l i
  others : ∀ k, k ≠ s.cur.gid → t.grp k = s.grp k
  memory : MemoryKept s t
  ended : t.cur = {}

/-- The places of an access can be reached now: links up, and no copy engine owns their lines (10 R187; 17 R344). -/
def Reachable (s : State) (xs : List LaneAcc) : Prop :=
  ∀ x ∈ xs, x.tgt.isRemote = false ∧ s.cutTo s.g.die x.tgt = false ∧ ∀ pa pol, x.tgt = .dev pa pol → s.recalls pa 128 = false

/-- The state that a load reads: an acquire beyond the core has dropped the L1's clean bytes first (10 R184). -/
def readState (s : State) : State :=
  if (preOrder s.cur.pre).acq && (preScope s.cur.pre).beyond && s.g.hasL1 then s.l1Acquire s.g.place else s

/-- A full group's access of an aligned block is read 128 bytes at a time, each as one event (10 R186). -/
def readsWhole (s : State) (z : Size) (p : Option PReg) (xs : List LaneAcc) : Bool :=
  (accUnits s.g.width (sizeBytes z) (groupSize s.g.width z && p.isNone) xs).any fun u => decide (1 < u.length)

/-- What a lane of a load reads at its place: the bytes, and whether they carry poison. -/
def laneRead (s : State) (z : Size) (p : Option PReg) (xs : List LaneAcc) (x : LaneAcc) : List Byte × Bool :=
  let r := (readState s).readAt s.cur.gid x.tgt (sizeBytes z) x.va (readsWhole s z p xs)
  (r.1, r.2.1)

/-- A load is under way: it holds its destination registers and counts in LD, and nothing of memory has changed. Where its places can be reached, every
lane has their bytes, zero- or sign-extended, with their poison (02 R42 to R44; 11 R208); a lane of LDP whose page is not there has zeros, and its P bit
clear (11 R210). -/
def LoadBegun (s t : State) (z : Size) (d : Reg) (p : Option PReg) (xs : List LaneAcc) (zero : List Nat) : Prop :=
  ∃ r os, Begun s t .ld r os ∧ r.kind = .load ∧ r.stall = xs.any (fun x => x.tgt.isRemote) ∧
    r.regs = s.destRegs d (sizeRegs z) ++ (p.map fun i => ({ cls := 5, idx := i.toNat } : RegRef)).toList ∧
    r.lanes.map (·.lane) = xs.map (·.lane) ++ (if p.isSome then zero else []) ∧
    (Reachable s xs → os = [] ∧
      ∀ x ∈ xs, ∃ y ∈ r.lanes, y.lane = x.lane ∧ y.ready = true ∧
        y.ws = vWrites x.lane (s.g.phys x.lane d) (laneRead s z p xs x).2 (loadWords z (laneRead s z p xs x).1) ++
          (p.map fun i => RegWrite.p x.lane i.toNat true).toList) ∧
    (∀ l ∈ zero, ∀ i ∈ p, ∃ y ∈ r.lanes, y.lane = l ∧ y.ready = true ∧
      y.ws = vWrites l (s.g.phys l d) false (List.replicate (sizeRegs z) 0) ++ [.p l i.toNat false])

/-- Stores are under way: they stand at the end of the group's queue in order, and count in ST until the last is performed (02 R43; 10 R180). -/
def StoreBegun (s t : State) (us : List (Target × Nat × List Byte)) : Prop :=
  ∃ r os, Begun s t .st r os ∧ r.kind = .store ∧ r.left = us.length ∧ r.lanes = [] ∧
    os.map (fun o => (o.tgt, o.va, o.act)) = us.map (fun u => (u.1, u.2.1, Action.bytes u.2.2)) ∧
    ∀ o ∈ os, o.ret = r.id ∧ o.order = preOrder s.cur.pre ∧ o.scope = preScope s.cur.pre

/-- Operations at their places are under way, one a lane: a returning form holds its registers and counts in LD, a no-return form counts in ST
(11 R219, R220). -/
def OpsBegun (s t : State) (d : Reg) (n : Nat) (nr : Bool) (xs : List (LaneAcc × Action)) : Prop :=
  ∃ r os, Begun s t (if nr then .st else .ld) r os ∧ r.kind = .atomic ∧
    (nr = true → r.left = xs.length ∧ r.regs = []) ∧
    (nr = false → r.regs = s.destRegs d n ∧ r.lanes.map (fun y => (y.lane, y.dst)) = xs.map fun x => (x.1.lane, s.g.phys x.1.lane d)) ∧
    os.map (fun o => (o.tgt, o.va, o.act)) = xs.map (fun x => (x.1.tgt, x.1.va, x.2)) ∧
    ∀ o ∈ os, o.ret = r.id ∧ (nr = false → o.dst = s.g.phys o.lane d) ∧ (nr = true → 256 ≤ o.dst)

/-- The stores of a STG: one a lane, or 128 bytes each where the group addresses one aligned block (10 R185, R186). -/
def stgUnits (s : State) (z : Size) (d : Reg) (xs : List LaneAcc) : List (Target × Nat × List Byte) :=
  (accUnits s.g.width (sizeBytes z) (groupSize s.g.width z) xs).filterMap fun u =>
    u.head?.map fun x => (x.tgt, x.va, u.flatMap fun y => s.g.storeBytes z y.lane d)

/-- The instruction issues no acquire, so nothing of its group waits for it. -/
def NoAcquire (s : State) : Prop := (preOrder s.cur.pre).acq = false

/-- An operation for the array is issued: it stands behind the cluster's waiting operations, under its instruction's address, and counts in TL until
it completes (08 R151). -/
def ArrayIssued (s t : State) (k : MatKind) : Prop :=
  ∃ r o, Begun { s with clusters := t.clusters } t .tl r [] ∧ r.left = 1 ∧ r.lanes = [] ∧
    (t.cluster s.g.cluster).ops = (s.cluster s.g.cluster).ops ++ [o] ∧ o.gid = s.cur.gid ∧ o.ret = r.id ∧ o.kind = k ∧ o.pc = s.cur.pc ∧ o.dep = 0 ∧
    (∀ a, mread (t.cluster s.g.cluster).bins a = mread (s.cluster s.g.cluster).bins a) ∧
    (∀ c, c ≠ s.g.cluster → t.cluster c = s.cluster c) ∧ t.teams = s.teams

/-- The atomic an instruction names (11 R218). -/
def atomOf : Instr → Option (AtomOp × Avail × Reg × BitVec 6 × Reg × Reg)
  | .atomAdd v p r d _ => some (.add, avVec, v, p, r, d)
  | .atomMinI v p r d _ => some (.minI, avVec, v, p, r, d)
  | .atomMaxI v p r d _ => some (.maxI, avVec, v, p, r, d)
  | .atomMinN v p r d _ => some (.minN, avVec, v, p, r, d)
  | .atomMaxN v p r d _ => some (.maxN, avVec, v, p, r, d)
  | .atomAnd v p r d _ => some (.and, avVec, v, p, r, d)
  | .atomOr v p r d _ => some (.or, avVec, v, p, r, d)
  | .atomXor v p r d _ => some (.xor, avVec, v, p, r, d)
  | .atomxXchg v p r d _ => some (.xchg, avCore, v, p, r, d)
  | .atomxCas v p r d _ => some (.cas, avCore, v, p, r, d)
  | .atomxFaddF32 v p r d _ => some (.faddF32, avCore, v, p, r, d)
  | .atomxFmaxF32 v p r d _ => some (.fmaxF32, avCore, v, p, r, d)
  | .atomxFaddBf16x2 v p r d _ => some (.faddBf16x2, avCore, v, p, r, d)
  | .atomxIncw v p r d _ => some (.incw, avCore, v, p, r, d)
  | .atomxDecw v p r d _ => some (.decw, avCore, v, p, r, d)
  | .atomxFmaxabsF32 v p r d _ => some (.fmaxabsF32, avCore, v, p, r, d)
  | _ => none

/-- The bank operation an instruction names: its operand, its offset, its destination (11 R213). -/
def lopOf : Instr → Option (LopOp × Option Reg × Reg × Option Reg)
  | .lopAddF32 c b a _ => some (.addF32, some c, b, some a)
  | .lopAddI32 c b a _ => some (.addI32, some c, b, some a)
  | .lopMaxabsF32 c b a _ => some (.maxabsF32, some c, b, some a)
  | .lopMinF32 c b a _ => some (.minF32, some c, b, some a)
  | .lopXchr c b a _ => some (.xchr, some c, b, some a)
  | .lopXadd k c b _ => some (.xadd k, some c, b, none)
  | .lopXrd b a _ => some (.xrd, none, b, some a)
  | .lopFill c b _ => some (.fill, some c, b, none)
  | _ => none

/-- t is s but for one cluster. -/
structure OnlyCluster (s t : State) (k : Nat) (c : Cluster) : Prop where
  rest : { t with clusters := s.clusters } = s
  own : t.cluster k = c
  others : ∀ j, j ≠ k → t.cluster j = s.cluster j

/-- The group's earlier stores are performed (10 R180). -/
abbrev Drained (s : State) : Prop := s.g.stores = []

/-- Nothing of the issuing group's core is left to be released: its queue and the write-combining buffer are empty, the L1 holds no dirty byte, and every
write to another module has its answer (10 R182, R194, R196). -/
structure Released (s : State) : Prop where
  drained : Drained s
  clean : s.g.hasL1 = true → ∀ x ∈ (s.core s.g.place).l1, x.2.dirty = false
  buffer : s.g.hasL1 = true → (s.core s.g.place).wc = []
  answered : s.coreWaits s.g.place = false

/-- No larder line of the issuing group's team is mapped (09 R164). -/
abbrev Unmapped (s : State) : Prop := ∀ line, s.tm.window line = none

/-- The answer to a request: it leaves by the port at which the request arrived, under its tag (12 R247). -/
def answerOf (s : State) (p : Packet) (op aux : Nat) (data : List Byte) : Packet :=
  { kind := 11, src := s.srcField (dieOfPort p.port), ckey := p.ckey, tag := p.tag, op := op, va := p.va, aux := BitVec.ofNat 64 aux,
    dest := p.src % 2 ^ 19, port := p.port, payload := data }

/-- A packet was put on the wire between two states, after everything sent before. -/
def Sent (s t : State) (p : Packet) : Prop := ∃ a b, t.wire = s.wire ++ a ++ p :: b

/-- A port that sends has room before its counter runs out for the pushes of one write and a packet with n bytes of payload (12 R245; 16 R330). -/
def PortSends (s : State) (port n : Nat) : Prop :=
  s.portLive port = true ∧ (s.port port).cntOut + s.pegs.length + (32 + n + 255) / 256 ≤ 2 ^ 48

/-- A packet that keeps the header's rules arrives, with no earlier request waiting (12 R243, R248). -/
def Arrives (s : State) (p : Packet) : Prop := p.port < 32 ∧ p.bad = false ∧ s.inbox = []


/-! ### Fibres and barriers (15 R291 to R294) -/

/-- The issuing group stands in its team, whose fibres the barriers count; the batch is not empty. -/
structure InTeam (s : State) : Prop where
  listed : thas s.groups s.cur.gid = true
  team : s.g.tid ≠ 0
  member : s.cur.gid ∈ s.tm.groups
  live : ∀ l ∈ s.batch, (s.g.fib l).life = .live
  some_ : s.batch ≠ []

/-- With the batch's arrival, every fibre of the team has arrived in the current phase of a barrier (15 R293). -/
def AllArrive (s : State) (n : Nat) : Prop :=
  ∀ x ∈ s.teamFibres s.g.tid, (x.1 = s.cur.gid ∧ x.2 ∈ s.batch) ∨ tget 0 ((s.grp x.1).fib x.2).arrived n = tget 0 s.tm.barriers n + 1

/-- The batch stands at given PCs in a given wait, and the group's registers are as they were. -/
def BatchAt (s t : State) (pc : Nat → Dword) (w : Wait) : Prop :=
  t.cur = {} ∧ (∀ l ∈ s.batch, ((t.grp s.cur.gid).fib l).pc = pc l ∧ ((t.grp s.cur.gid).fib l).wait = w) ∧
    (t.grp s.cur.gid).v = s.g.v ∧ (t.grp s.cur.gid).sregs = s.g.sregs

/-- An S register receives a value by a return that counts in LD and lands at once (02 R42, R43). -/
def StatusReturns (s t : State) (a : Reg) (w : Word) : Prop :=
  ∃ r x, (t.grp s.cur.gid).returns = s.g.returns ++ [r] ∧ r.ctr = some .ld ∧ r.regs = [{ cls := 1, idx := a.toNat }] ∧ r.lanes = [x] ∧ x.ready = true ∧
    x.ws = [.s a.toNat w] ∧ (t.grp s.cur.gid).ld = s.g.ld + 1



/-! ### What decoding asks of an instruction (03 R62, R63; 02 R33, R40, R42, R44) -/

/-- The kinds that run an instruction; its registers, in the order of its fields; the V registers that it reads of lanes of its own choice, as
(physical index, lane); and what is asked between its registers and its data. -/
structure Needs where
  av : Avail := avHome
  refs : List Ref := []
  lanes : List (Nat × Nat) := []
  first : Prop := True

/-- What an instruction of registers, lanes or atomics asks, by its specification. -/
def specNeeds (s : State) (i : Instr) : Option Needs :=
  match xchOf s i with
  | some (d, a, b, u, m) =>
    some { av := avCore, refs := { cls := 0, field := a.toNat } :: (b.map srcRef).toList ++ [vdst d], lanes := s.batch.map fun l => (s.g.phys l a, m l)
           first := u = true → ∀ x ∈ b, ∀ l ∈ s.batch, s.g.src l x = s.g.src s.lane0 x }
  | none =>
    match (((intSpec s i).orElse fun _ => fpSpec s i).orElse fun _ => laneSpec s i).orElse fun _ => compactSpec s i with
    | some v => some { av := v.av, refs := v.srcs ++ [vdst v.d v.n] }
    | none =>
      match predSpec s i, scalarSpec s i, atomOf i, lopOf i with
      | some (rs, d, _), _, _, _ => some { av := avVec, refs := rs ++ [pref d.toNat] }
      | _, some v, _, _ => some { av := v.av, refs := v.srcs ++ [sref v.d v.words.length] }
      | _, _, some (op, av, v, p, r, d), _ =>
        let k := if preWide s.cur.pre then 2 else 1
        some { av := av, refs := [vsrc r (addrRegs (s.poolIdx p)), vsrc v (if op = .cas then 2 * k else k)] ++
                                 (if preNoReturn s.cur.pre then [] else [vdst d k]) }
      | _, _, _, some (_, c, b, a) =>
        some { refs := [vsrc b] ++ (c.map fun c => vsrc c).toList ++ (if preNoReturn s.cur.pre || a.isNone then [] else [vdst (a.getD 0)]) }
      | _, _, _, _ => none

/-- The address registers of a tile access, read in the lanes that are sources of its rows (08 R152). -/
def rowLanes (s : State) (r : Reg) (n : Nat) : List (Nat × Nat) :=
  s.tileRows.flatMap fun x => (List.range n).map fun k => (s.g.phys x.2 r + k, x.2)

/-- What each encoded instruction asks; none for LIT and MOD, for a word that is no instruction, and where a field of the word is itself reserved on
the executing kind (15 R285; 18 R352). A quantization looks at its slot before its registers (05 R97). -/
def needs (s : State) : Instr → Option Needs
  | .rdlane d a b _ => some { av := avCore, refs := [{ cls := 0, field := a.toNat, low := true }, sref b, sref d]
                              lanes := [(s.g.phys s.lane0 a, (s.g.sreg b.toNat).toNat % s.g.width)] }
  | .qnt n k z v d _ => some { av := avVec, first := s.g.st < 63
                               refs := match s.checkSlot k.toNat takesQ with
                                 | .ok _ => [vsrc v (s.slotFmt k).elems, vsrc z, { cls := 1, field := n.toNat }, vdst d] | .error _ => [] }
  | .dqnt k z v d _ => some { av := avVec
                              refs := match s.checkSlot k.toNat takesQ with
                                | .ok _ => [vsrc v, vsrc z, vdst d (s.slotFmt k).elems] | .error _ => [] }
  | .wait _ _ _ _ _ | .br _ _ | .nop _ => some { av := avAll }
  | .brCond _ _ p _ => some { av := avAll, refs := [pref p.toNat] }
  | .setlx _ _ | .swin _ _ | .fence _ _ _ => some { av := avCore }
  | .skp _ _ p _ => some { av := avCore, refs := [pref p.toNat] }
  | .yield _ => some { av := avScalar }
  | .rdclk a _ => some { av := avAll, refs := [sref a 2] }
  | .tload g _ p r t _ | .tstore g _ p r t _ =>
    let n := tileAddrRegs (!g) (s.poolIdx p)
    some { refs := [vdst r n, tref t], lanes := rowLanes s r n }
  | .tmovTv b a _ => some { refs := [tref b, vdst a 8] }
  | .tmovVt b a _ => some { refs := [{ cls := 0, field := a.toNat, n := 8 }, tref b], lanes := rowLanes s a 8 }
  | .txp _ c b _ => some { refs := [tref b, tref c] }
  | .tclr b _ => some { refs := [tref b] }
  | .bclm _ a _ | .bclmt _ a _ | .brel _ a _ | .bstat _ a _ | .mstat a _ => some { av := avHomeSeq, refs := [sref a] }
  | .fslot _ _ a _ => some { av := avHomeSeq, refs := [sref a] }
  | .bfillt _ c b a _ => some { refs := [sref a, sref b, tref c] }
  | .mma _ _ _ _ z _ | .mmas _ _ _ _ z _ | .mmaq _ _ _ _ z _ | .mmat _ _ _ z _ | .zclr z _ => some { av := avHomeSeq, refs := [zref z] }
  | .zrd c b a _ => some { refs := [sref c 2, zref b, vdst a (if s.g.width = 64 then 2 else 4)] }
  | .zst _ b a _ | .zld b a _ => some { av := avHomeSeq, refs := [sref a, zref b] }
  | .msave a _ | .mres a _ => some { av := avSeq, refs := [sref a 4] }
  | .qpsh b a _ => some { av := avHomeSeq, refs := [sref b, qref a] }
  | .qpop b a _ | .qcnt b a _ => some { av := avHomeSeq, refs := [qref b, sref a] }
  | .qtry c b a _ => some { av := avHomeSeq, refs := [qref b, sref a, pref c.toNat] }
  | .qpshv b a _ => some { refs := [vsrc b, qref a] }
  | .ldg z _ p r t _ => some { av := avVec, refs := [vsrc r (addrRegs (s.poolIdx p)), vdst t (sizeRegs z)] }
  | .stg z _ p r t _ => some { av := avVec, refs := [vsrc r (addrRegs (s.poolIdx p)), vsrc t (sizeRegs z)] }
  | .ldp z q p r t _ => some { av := avCore, refs := [vsrc r (addrRegs (s.poolIdx p)), vdst t (sizeRegs z), pref q.toNat] }
  | .ldl z _ r t _ => some { av := avHomeCellar, refs := [vsrc r, vdst t (sizeRegs z)] }
  | .stl z _ r t _ => some { av := avHomeCellar, refs := [vsrc r, vsrc t (sizeRegs z)] }
  | .ldlC16 r t => some { av := avHomeCellar, refs := [vsrc r, vdst t] }
  | .stlC16 r t => some { av := avHomeCellar, refs := [vsrc r, vsrc t] }
  | .ldo z _ r t _ => some { refs := [vsrc r, vdst t (sizeRegs z)] }
  | .sto z _ r t _ => some { refs := [vsrc r, vsrc t (sizeRegs z)] }
  | .watch c b a _ => some { refs := [vsrc b, vsrc c 2, pref a.toNat] }
  | .unwatch b _ => some { refs := [vsrc b] }
  | .waitw c b a _ => some { refs := [vsrc b, vsrc c, vdst a 4] }
  | .drainwc _ | .seal _ _ | .bwait _ _ | .bar _ _ | .arrv _ _ | .waitb _ _ | .barg _ | .rejoin _ | .emret _ | .setfpmImm _ _ => some {}
  | .mcst c b a _ => some { refs := [sref a, sref b 2, sref c 2] }
  | .flushr b a _ | .invr b a _ => some { refs := [sref a 2, sref b] }
  | .cpy c b a _ => some { refs := [vsrc a 5, sref b, sref c] }
  | .cpyt c b a _ => some { refs := [vsrc a 7, sref b, sref c 2] }
  | .cpym c b a _ => some { refs := [sref a 2, sref b, sref c] }
  | .sdrn c b a _ => some { refs := [sref a, sref b, sref c] }
  | .swinit b a _ | .swwait b a _ | .nwait b a _ => some { refs := [sref a, sref b] }
  | .call _ sl _ =>
    if s.g.kind ≠ .sequencer then some { av := avAll, refs := [{ cls := 0, field := 8 * sl.toNat, n := 3 }] }
    else if sl = 0 then some { av := avAll, refs := [sref 30 2] } else none
  | .ret _ => some { av := avAll, refs := [if s.g.kind = .sequencer then sref 30 2 else { cls := 0, field := 0, n := 3, read := true }] }
  | .jmpr a _ => some { av := avScalar, refs := [if s.g.kind = .sequencer then sref a 2 else vsrc a 2] }
  | .fork c b a _ => some { refs := [vsrc b 2, vsrc c, vdst c, pref a.toNat, { cls := 0, field := 0, n := 2 }] }
  | .fend _ | .gohome _ => some { av := { cellar := s.g.isGuest, guest := true } }
  | .launch o c b a _ => some { refs := [sref a 2] ++ (if o then [sref b 2, sref c] else []) }
  | .ncall a _ | .setfpm a _ => some { refs := [sref a] }
  | .nret _ => some { av := avCellar }
  | .mbxs _ b a _ => some { av := avCellar, refs := [sref a, vsrc b] }
  | .mbxw _ a _ => some { av := avCellar, refs := [vdst a] }
  | .skipz c b a _ => some { av := avCellar, refs := [vsrc b, vdst a, sref c 3] }
  | .go b a _ => some { av := avCore, refs := [vsrc b 2, pref a.toNat] }
  | .trap _ _ | .bkpt _ _ | .tret _ => some { av := avHomeSeq }
  | .sysr n a _ => some { av := sysAvail n.toNat true, refs := [sref a] }
  | .sysrV n a _ => some { av := sysAvail n.toNat true, refs := [vdst a] }
  | .sysw n a _ => if s.sysReadOnly n.toNat then none else some { av := sysAvail n.toNat false, refs := [sref a] }
  | .lmapWrite m a _ => some { av := sysAvail (0x30 + 2 * m.toNat) false, refs := [sref a] }
  | .fpflagsClear a _ => if s.sysReadOnly 2 then none else some { av := sysAvail 2 false, refs := [sref a] }
  | i => specNeeds s i

/-- The instruction's kind runs it here, and its registers lie within the allocation. -/
def InFiles (s : State) (n : Needs) : Prop :=
  RunsHere s n.av ∧ ∀ r ∈ n.refs, r.cls ≠ 5 → ∀ i ∈ s.refIdx r, i < s.allocOf r.cls

/-- A poisoned register is the one reported of those that a source reads, given as (physical index, lane): the lowest register, then the lowest lane
(02 R44). -/
def LowestPoison (s : State) (ps : List (Nat × Nat)) (p l : Nat) : Prop :=
  (p, l) ∈ ps ∧ (s.g.vlane l p).pois = true ∧ ∀ q k, (q, k) ∈ ps → (s.g.vlane k q).pois = true → p < q ∨ (p = q ∧ l ≤ k)

/-- The registers that the instruction reads, source by source. -/
def Needs.reads (s : State) (n : Needs) : List (List (Nat × Nat)) := n.lanes :: n.refs.map s.poisonOf

/-! ### Queues of packets (13 R256 to R259) -/

/-- A packet of a kind stands at the head of an open queue, whose header and slot stand in device memory. -/
structure PacketAt (s : State) (q k hpa spa : Nat) (t0 : Taken) : Prop where
  number : q < 256
  opened : s.queueOpen q = true
  head : s.headRead q = .packet t0
  accepted : (s.queue q).refuse = none
  hdr : ∃ p, p ≤ 2 ∧ t0.hdr = .dev hpa p
  slot : ∃ p, p ≤ 2 ∧ t0.slot = .dev spa p
  apart : hpa + 64 ≤ spa
  kind : fieldAt t0.bytes 0 1 = k
  canonical : MemoryCanonical s

/-- The packet is freed: its KIND is 0 and RIDX has advanced; no other byte differs. -/
structure PacketFreed (s t : State) (hpa spa : Nat) (t0 : Taken) : Prop where
  slot : t.homeByte spa = 0
  ridx : t.homeRead (hpa + 8) 8 = leBytes 8 (t0.idx + 1)
  others : ∀ x, x ≠ spa → (x < hpa + 8 ∨ hpa + 16 ≤ x) → t.homeByte x = s.homeByte x

/-- The packet is refused: ERRCNT rises, ERRCODE and ERRIDX say why and which, and it is freed; no other byte differs where the fault buffer of the
header's die is off. -/
structure PacketRefused (s t : State) (hpa spa : Nat) (t0 : Taken) (code cause : Nat) : Prop where
  slot : t.homeByte spa = 0
  ridx : t.homeRead (hpa + 8) 8 = leBytes 8 (t0.idx + 1)
  errcnt : t.homeRead (hpa + 0x10) 4 = leBytes 4 (s.homeField (hpa + 0x10) 4 + 1)
  errcode : t.homeRead (hpa + 0x14) 2 = leBytes 1 code ++ leBytes 1 cause
  erridx : t.homeRead (hpa + 0x18) 8 = leBytes 8 t0.idx
  others : ∀ x, x ≠ spa → (x < hpa + 8 ∨ hpa + 0x20 ≤ x) → t.homeByte x = s.homeByte x

/-- A grid's teams are pending (13 R261, R263). -/
structure Pending (t : State) (n : Nat) (g : Grid) : Prop where
  unplaced : (t.grid n).unplaced = g.teams
  ready : (t.grid n).waiting = false
  teams : (t.grid n).teams = g.teams
  launch : (t.grid n).launch = g.launch
  slots : (t.grid n).slots = g.slots

/-! ### Fault buffers (17 R336) -/

/-- A die's fault buffer is on, has room for n records, and its ring can be reached. -/
structure FaultRoom (s : State) (die n : Nat) : Prop where
  on : (s.die die).fbbase.getLsbD 0 = true
  widx : (s.die die).widx < 65536
  ridx : (s.die die).ridx < 65536
  room : ((s.die die).widx + 65536 - (s.die die).ridx) % 65536 + n ≤ 4096
  reached : s.fbCut die = false
  canonical : s.mem.wf = true

/-- Address of the record at an index of a die's fault buffer. -/
def recordPa (s : State) (die i : Nat) : Nat := (s.die die).fbRing + 32 * (i % 4096)

/-- A record was written at WIDX, which advanced, and the die's vector is due. -/
structure Recorded (s t : State) (die : Nat) (bytes : List Byte) : Prop where
  bytes : t.homeRead (recordPa s die (s.die die).widx) 32 = bytes
  widx : (t.die die).widx = ((s.die die).widx + 1) % 65536
  vector : die ∈ t.msiDue

/-- A trap of class D or V holds the group at the instruction, with a record of KIND 0x02 for the driver; its registers and fibres are as they were
(17 R331, R336). -/
structure HeldAt (s t : State) (tr : Trap) : Prop where
  hold : (t.grp s.cur.gid).hold = some (.trap tr s.cur false)
  fibres : ∀ l, (t.grp s.cur.gid).fib l = s.g.fib l
  regs : (t.grp s.cur.gid).v = s.g.v ∧ (t.grp s.cur.gid).sregs = s.g.sregs ∧ (t.grp s.cur.gid).tiles = s.g.tiles
  recorded : Recorded s t s.g.die (record [(1, 2), (1, tr.code), (1, s.g.ctx % 64), (1, 0), (4, s.g.who), (8, s.cur.pc.toNat), (8, tr.addr), (8, tr.detail)])
  ended : t.cur = {}

/-! ### Privileged commands (13 R258; 16 R328) -/

/-- The state once a packet has been taken from its queue and freed. -/
def takenFrom (s : State) (q : Nat) (t0 : Taken) : State :=
  (s.setQ q fun k => { k with hdr := some t0.hdr }).freePacket q t0

/-- A command of a kind stands at the head of a privileged queue, with a status word that can be written, a context's number, and no unused byte that
is not 0. -/
structure CommandAt (s : State) (q k : Nat) (unused : List (Nat × Nat)) (t0 : Taken) : Prop where
  packet : ∃ hpa spa, PacketAt s q k hpa spa t0
  priv : (s.queue q).allows k = true
  status : fieldAt t0.bytes 8 8 % 8 = 0 ∧ fieldAt t0.bytes 8 8 < 2 ^ 40
  context : fieldAt t0.bytes 1 1 < 64
  unused : firstNonzero t0.bytes ((2, 6) :: unused ++ [(0x3C, 4)]) = none

/-- A command that is not complete holds its queue (16 R328). -/
def holding (w : State) (q k : Nat) (t0 : Taken) : State :=
  w.setQ q fun x => { x with cmd := some { kind := k, ctx := fieldAt t0.bytes 1 1, status := fieldAt t0.bytes 8 8, bytes := t0.bytes } }

/-- A command of a kind is under way on a queue. -/
def UnderWay (s : State) (q k : Nat) (c : PrivCmd) : Prop := q < 256 ∧ (s.queue q).cmd = some c ∧ c.kind = k

/-- The privileged commands: queue, KIND and the operand bytes that each leaves unused (16 R328). -/
def commandOf : Instr → Option (Nat × Nat × List (Nat × Nat))
  | .ctxcreate q => some (q, 128, [(0x18, 32)])
  | .ctxdestroy q => some (q, 129, [(0x10, 40)])
  | .freeze q => some (q, 130, [(0x10, 40)])
  | .thaw q => some (q, 131, [(0x10, 40)])
  | .tlbinv q => some (q, 132, [(0x20, 24)])
  | .qcreate q => some (q, 133, [(0x21, 23)])
  | .qdestroy q => some (q, 134, [(0x12, 38)])
  | .hwrite q => some (q, 135, [(0x11, 1), (0x14, 4), (0x20, 24)])
  | .loftwin q => some (q, 136, [(0x11, 7), (0x28, 16)])
  | .keyset q => some (q, 137, [(0x12, 6), (0x28, 16)])
  | .wayconv q => some (q, 138, [(0x12, 38)])
  | .preempt q => some (q, 139, [(0x10, 40)])
  | .cabort q => some (q, 140, [(0x10, 40)])
  | .replay q => some (q, 141, [(0x15, 35)])
  | .scrub q => some (q, 142, [(0x28, 16)])
  | .resync q => some (q, 143, [(0x18, 32)])
  | .routeset q => some (q, 144, [(0x18, 32)])
  | _ => none

/-! ### The host's accesses (19 R358 to R360) -/

/-- The host's access waits behind nothing: the CXL link is up, and no earlier access that waits must go first (19 R357; 17 R344; log 133). -/
def HostFree (s : State) (a : HostAcc) : Prop := s.down.contains .cxl = false ∧ ∀ w ∈ s.hostWaits, w.meets a = false

/-- The module is ready, and nothing holds an access of BAR0 back (19 R362). -/
def Answers (s : State) : Prop := s.booted = true ∧ HostFree s (.regRead 8 8)

/-- The writes of BAR0: offset and value (19 Table 19.1). -/
def registerOf : Instr → Option (Nat × Dword)
  | .nodeidWrite v => some (0x10, v)
  | .q0ringWrite v => some (0x40, v)
  | .q0ctlWrite v => some (0x48, v)
  | .wcageWrite v => some (0x20, v)
  | .ftmoWrite v => some (0x28, v)
  | .fbbaseWrite die v => if die < 8 then some (0x100 + 16 * die, v) else none
  | .fbstatWrite die v => if die < 8 then some (0x108 + 16 * die, v) else none
  | .pwrcapWrite ⟨false, v⟩ => some (0x200, v)
  | .pwrcapWrite ⟨true, _⟩ => none
  | .hmaskChWrite stack v => if stack < 16 then some (0x400 + 8 * stack, v) else none
  | .hmaskPcWrite stack v => if stack < 16 then some (0x480 + 8 * stack, v) else none
  | .registerWrite off v => some (off, v)
  | _ => none

/-- The fold registers of a stack hold bit numbers that the registers admit (09 Tables 9.5, 9.6). -/
def FoldLegal (ch pc : Word) : Prop :=
  (ch.getLsbD 31 = true → 13 ≤ ch.toNat % 64 ∧ ch.toNat % 64 ≤ 31) ∧ (pc.getLsbD 31 = true → 13 ≤ pc.toNat % 64 ∧ pc.toNat % 64 ≤ 35)

/-- Fold registers of a stack have changed: every byte of the stack's cells stands where the new fold puts it, every other byte stays (09 R175,
R176). -/
def Refolded (s t : State) (k : Nat) (ch pc : Word) : Prop :=
  (t.stack k).hmaskCh = ch ∧ (t.stack k).hmaskPc = pc ∧
  ∀ a, (a / 2 ^ 36 ≠ k → mread t.mem a = mread s.mem a) ∧
    (a / 2 ^ 36 = k → mread t.mem (fold ch pc a) = mread s.mem (fold (s.stack k).hmaskCh (s.stack k).hmaskPc a))

/-- A value of a fold register is in effect, or it is held pending and nothing has moved (09 R177). -/
def FoldWritten (s t : State) (k : Nat) (ch pc : Word) (held : Stack) : Prop :=
  Refolded s t k ch pc ∨ ((t.stack k) = held ∧ t.mem = s.mem)


/-! ### Limits (10 R197; 12 R249; 19 R364) -/

/-- WCAGE, FTMO, PWRCAP and the clock are within their limits. -/
structure LimitsKept (s : State) : Prop where
  wcage : 64 ≤ s.wcage ∧ s.wcage ≤ 64000
  ftmo : 10 ≤ s.ftmo ∧ s.ftmo ≤ 1000000
  pwrcap : 2000 ≤ s.pwrcap.toNat ∧ s.pwrcap.toNat ≤ 8000
  clock : 1000 ≤ s.clock ∧ s.clock ≤ 4000 ∧ s.clock % 125 = 0

end Sys2Proof
end

