-- ==== Sys2Proof/WellFormed.lean ====
section
/-! DEFINITION. Well-formed instructions: an encoded row holds operand values that its encoding admits (03 R52 to R60), and a step of
the module names units that exist (01 R12 to R20). -/
namespace Sys2Proof
open Sys2Proof.Machine

/-- A configuration unit that exists (09 R177). -/
def cfgUnitOk : CfgUnit → Bool
  | .hmaskCh s => s < 16
  | .hmaskPc s => s < 16
  | .fbbase d => d < 8

/-- A link that exists (01 R23; 17 R344): 32 ports, 28 die pairs, one host link. -/
def linkOk : Link → Bool
  | .port p => p < 32
  | .ucie n => n < 64
  | .cxl => true

/-- A packet whose fields fit the header (12 R243). -/
def packetOk (p : Packet) : Bool :=
  p.kind < 256 && p.flags < 256 && p.src < 2 ^ 32 && p.ckey < 2 ^ 16 && p.tag < 2 ^ 16 && p.op < 256 && p.port < 32

/-- The instruction is well formed. -/
def Instr.wf : Instr → Bool
  | .iadd _ _ _ _ _ => true
  | .isub _ _ _ _ _ => true
  | .imul _ _ _ _ _ => true
  | .imin _ _ _ _ _ => true
  | .imax _ _ _ _ _ => true
  | .iabsd _ _ _ _ => true
  | .iabs _ _ _ => true
  | .and _ _ _ _ => true
  | .or _ _ _ _ => true
  | .xor _ _ _ _ => true
  | .andn _ _ _ _ => true
  | .orn _ _ _ _ => true
  | .xnor _ _ _ _ => true
  | .not _ _ _ => true
  | .shl _ _ _ _ => true
  | .shr _ _ _ _ => true
  | .sar _ _ _ _ => true
  | .rol _ _ _ _ => true
  | .ror _ _ _ _ => true
  | .shlI64 _ _ _ _ => true
  | .shrI64 _ _ _ _ => true
  | .sarI64 _ _ _ _ => true
  | .popc _ _ _ => true
  | .clz _ _ _ => true
  | .ctz _ _ _ => true
  | .brev _ _ _ => true
  | .bfx _ _ _ _ _ => true
  | .bfi _ _ _ _ => true
  | .prmt _ _ _ _ => true
  | .icmp _ _ _ _ _ => true
  | .sel _ _ _ _ _ => true
  | .imad _ _ _ _ _ _ => true
  | .idot4 _ _ _ _ _ _ => true
  | .idot2 _ _ _ _ _ => true
  | .lea _ _ _ _ _ => true
  | .lea64 _ _ _ _ _ => true
  | .iaddi _ _ _ _ => true
  | .andi _ _ _ _ => true
  | .shi _ _ _ _ _ => true
  | .movi _ _ _ => true
  | .fadd _ _ _ _ _ => true
  | .fsub _ _ _ _ _ => true
  | .fmul _ _ _ _ _ => true
  | .fmin _ _ _ _ _ => true
  | .fmax _ _ _ _ _ => true
  | .fcmp _ _ _ _ _ => true
  | .fabs _ _ _ => true
  | .fneg _ _ _ => true
  | .fclass _ _ _ => true
  | .frndn _ _ _ => true
  | .frndz _ _ _ => true
  | .frndd _ _ _ => true
  | .fcopys _ _ _ _ => true
  | .fscale _ _ _ _ => true
  | .frcp _ _ _ => true
  | .frsq _ _ _ => true
  | .fsqrt _ _ _ => true
  | .fexp2 _ _ _ => true
  | .flog2 _ _ _ => true
  | .fsin _ _ _ => true
  | .fcos _ _ _ => true
  | .ftanh _ _ _ => true
  | .hdot2 _ _ _ _ _ _ => true
  | .hdot4 _ _ _ _ _ _ => true
  | .fma _ _ _ _ _ _ => true
  | .fms _ _ _ _ _ => true
  | .fnma _ _ _ _ _ => true
  | .fmaMixed _ _ _ _ _ _ => true
  | .rdlane _ _ _ _ => true
  | .smin _ _ _ _ _ => true
  | .smax _ _ _ _ _ => true
  | .ssel _ _ _ _ => true
  | .spopc _ _ _ => true
  | .sclz _ _ _ => true
  | .wait _ _ _ _ _ => true
  | .cvt r src dst _ _ _ => cvtLegal r src dst
  | .qnt _ _ _ _ _ _ => true
  | .dqnt _ _ _ _ _ => true
  | .pack _ _ _ _ _ => true
  | .unpk _ _ _ _ _ => true
  | .fscl _ _ _ _ _ => true
  | .xchRot _ _ _ _ => true
  | .xchXor _ _ _ _ => true
  | .xchBcast _ _ _ _ => true
  | .xchMirror _ _ _ => true
  | .xchIdx _ _ _ _ => true
  | .xchShup _ _ _ _ => true
  | .xchShdn _ _ _ _ => true
  | .voteAny _ _ _ => true
  | .voteAll _ _ _ => true
  | .voteBallot _ _ _ => true
  | .voteMatch _ _ _ => true
  | .votePopc _ _ _ => true
  | .redl _ _ _ _ => true
  | .scanl _ _ _ _ _ => true
  | .setlx _ _ => true
  | .sadd _ _ _ _ => true
  | .ssub _ _ _ _ => true
  | .smul _ _ _ _ => true
  | .sand _ _ _ _ => true
  | .sor _ _ _ _ => true
  | .sxor _ _ _ _ => true
  | .sshl _ _ _ _ => true
  | .sshr _ _ _ _ => true
  | .smovi _ _ _ => true
  | .saddi _ _ _ _ => true
  | .tload g _ p _ _ _ => g || p == 0
  | .tstore g _ p _ _ _ => g || p == 0
  | .tmovTv _ _ _ => true
  | .tmovVt _ _ _ => true
  | .txp _ _ _ _ => true
  | .tclr _ _ => true
  | .bclm _ _ _ => true
  | .bclmt _ _ _ => true
  | .brel _ _ _ => true
  | .bfillt _ _ _ _ _ => true
  | .bstat n _ _ => n.toNat < 5
  | .mma _ _ _ _ _ _ => true
  | .mmas _ _ _ _ _ _ => true
  | .mmaq _ _ _ _ _ _ => true
  | .mmat _ _ _ _ _ => true
  | .zrd _ _ _ _ => true
  | .zst _ _ _ _ => true
  | .zclr _ _ => true
  | .zld _ _ _ => true
  | .msave _ _ => true
  | .mres _ _ => true
  | .mstat _ _ => true
  | .qpsh _ _ _ => true
  | .qpop _ _ _ => true
  | .qtry _ _ _ _ => true
  | .qpshv _ _ _ => true
  | .qcnt _ _ _ => true
  | .fslot _ _ _ _ => true
  | .ldg _ _ _ _ _ _ => true
  | .stg z _ _ _ _ _ => storeSize z
  | .ldp _ _ _ _ _ _ => true
  | .ldl _ _ _ _ _ => true
  | .stl z _ _ _ _ => storeSize z
  | .ldo _ _ _ _ _ => true
  | .sto z _ _ _ _ => storeSize z
  | .lopAddF32 _ _ _ _ => true
  | .lopAddI32 _ _ _ _ => true
  | .lopMaxabsF32 _ _ _ _ => true
  | .lopMinF32 _ _ _ _ => true
  | .lopXchr _ _ _ _ => true
  | .lopXadd _ _ _ _ => true
  | .lopXrd _ _ _ => true
  | .lopFill _ _ _ => true
  | .atomAdd _ _ _ _ _ => true
  | .atomMinI _ _ _ _ _ => true
  | .atomMaxI _ _ _ _ _ => true
  | .atomMinN _ _ _ _ _ => true
  | .atomMaxN _ _ _ _ _ => true
  | .atomAnd _ _ _ _ _ => true
  | .atomOr _ _ _ _ _ => true
  | .atomXor _ _ _ _ _ => true
  | .atomxXchg _ _ _ _ _ => true
  | .atomxCas _ _ _ _ _ => true
  | .atomxFaddF32 _ _ _ _ _ => true
  | .atomxFmaxF32 _ _ _ _ _ => true
  | .atomxFaddBf16x2 _ _ _ _ _ => true
  | .atomxIncw _ _ _ _ _ => true
  | .atomxDecw _ _ _ _ _ => true
  | .atomxFmaxabsF32 _ _ _ _ _ => true
  | .fence _ a _ => a != .plain
  | .watch _ _ _ _ => true
  | .unwatch _ _ => true
  | .waitw _ _ _ _ => true
  | .drainwc _ => true
  | .mcst _ _ _ _ => true
  | .flushr _ _ _ => true
  | .invr _ _ _ => true
  | .cpy _ _ _ _ => true
  | .cpyt _ _ _ _ => true
  | .cpym _ _ _ _ => true
  | .sdrn _ _ _ _ => true
  | .seal _ _ => true
  | .bwait _ _ => true
  | .swinit _ _ _ => true
  | .swwait _ _ _ => true
  | .br _ _ => true
  | .brCond _ _ _ _ => true
  | .call _ _ _ => true
  | .nop _ => true
  | .yield _ => true
  | .ret _ => true
  | .jmpr _ _ => true
  | .skp _ _ _ _ => true
  | .swin _ _ => true
  | .fork _ _ _ _ => true
  | .fend _ => true
  | .bar _ _ => true
  | .arrv _ _ => true
  | .waitb _ _ => true
  | .barg _ => true
  | .launch o c b _ _ => o || (c == 0 && b == 0)
  | .ncall _ _ => true
  | .nwait _ _ _ => true
  | .nret _ => true
  | .mbxs _ _ _ _ => true
  | .mbxw _ _ _ => true
  | .skipz _ _ _ _ => true
  | .go _ _ _ => true
  | .gohome _ => true
  | .rejoin _ => true
  | .trap _ _ => true
  | .tret _ => true
  | .emret _ => true
  | .sysr n _ _ => sysrS n.toNat
  | .sysrV n _ _ => sysrVOk n.toNat
  | .sysw n _ _ => syswOk n.toNat && !syswOwn n.toNat
  | .lmapWrite _ _ _ => true
  | .fpflagsClear _ _ => true
  | .setfpm _ _ => true
  | .setfpmImm _ _ => true
  | .bkpt _ _ => true
  | .rdclk _ _ => true
  | .lit _ => true
  | .mod _ => true
  | .iaddC16 _ _ _ => true
  | .isubC16 _ _ _ => true
  | .imulC16 _ _ _ => true
  | .andC16 _ _ _ => true
  | .orC16 _ _ _ => true
  | .xorC16 _ _ _ => true
  | .shlC16 _ _ _ => true
  | .shrC16 _ _ _ => true
  | .movC16 _ _ _ => true
  | .moviC16 _ _ => true
  | .iaddiC16 _ _ => true
  | .faddC16 _ _ _ => true
  | .fmaxC16 _ _ _ => true
  | .fmulC16 _ _ _ => true
  | .ldlC16 _ _ => true
  | .stlC16 _ _ => true
  | .issueSlotArbitration core slot => core < 1024 && slot < 4
  | .asynchronousReturn _ _ lane => lane < 64
  | .storePerformed _ => true
  | .l1Eviction core _ => core < 1024
  | .wcAgeDrain core _ => core < 1024
  | .syncWordArrival _ => true
  | .queueEntryTakeable _ q => q < 8
  | .heldTrapTaken _ => true
  | .faultRecordDeferred die => die < 8
  | .pushApply _ => true
  | .unwatchComplete _ _ => true
  | .matrixOpAccept cluster => cluster < 128
  | .matrixSumUnit cluster => cluster < 128
  | .sequencerStopTrap _ => true
  | .matrixPoisonTrap _ => true
  | .binZeroing cluster => cluster < 128
  | .copyPacket q => q < 256
  | .launchPacket q => q < 256
  | .eventPacket q => q < 256
  | .queueHoldRetry q => q < 256
  | .copyLineWrite engine => engine < 32
  | .shelfPark cluster => cluster < 128
  | .launchDependenceMet _ => true
  | .teamPlacement core => core < 1024
  | .teamRetirement _ => true
  | .endNoticeArrival _ => true
  | .swapOut _ => true
  | .swapIn core => core < 1024
  | .preEmption _ => true
  | .copyCancel engine => engine < 32
  | .aggregateClose _ => true
  | .cellarCallStart stack => stack < 16
  | .cellarCallComplete _ => true
  | .crateArrival _ _ => true
  | .returnCrateArrival _ => true
  | .migrationRefusal _ _ => true
  | .read p => packetOk p
  | .write p => packetOk p
  | .atomic p => packetOk p
  | .reduce p => packetOk p
  | .mcast p => packetOk p
  | .sub p => packetOk p
  | .unsub p => packetOk p
  | .push p => packetOk p
  | .pushend p => packetOk p
  | .crate p => packetOk p
  | .resp p => packetOk p
  | .mack p => packetOk p
  | .ftmoTimeout _ => true
  | .remoteRetry _ => true
  | .pushResend _ => true
  | .flitReceive port _ => port < 32
  | .linkDown l => linkOk l
  | .keySwitch port _ => port < 32
  | .nonceExhausted port _ => port < 32
  | .walkMovingRecheck _ => true
  | .ctxcreate q => q < 256
  | .ctxdestroy q => q < 256
  | .freeze q => q < 256
  | .thaw q => q < 256
  | .tlbinv q => q < 256
  | .tlbinvComplete q => q < 256
  | .qcreate q => q < 256
  | .qdestroy q => q < 256
  | .hwrite q => q < 256
  | .loftwin q => q < 256
  | .keyset q => q < 256
  | .wayconv q => q < 256
  | .wayconvApply stack => stack < 16
  | .preempt q => q < 256
  | .cabort q => q < 256
  | .replay q => q < 256
  | .scrub q => q < 256
  | .resync q => q < 256
  | .routeset q => q < 256
  | .routesetComplete q => q < 256
  | .coreRetirement core => core < 1024
  | .matrixResourceRetirement cluster => cluster < 128
  | .cellarCoreRetirement cellar => cellar < 512
  | .rowSparing stack _ _ => stack < 16
  | .moduleReset _ => true
  | .cxlMemRead hpa n => hpa + n ≤ 2 ^ 64
  | .cxlMemWrite hpa data => hpa + data.length ≤ 2 ^ 64
  | .nodeidWrite _ => true
  | .q0ringWrite _ => true
  | .q0ctlWrite _ => true
  | .wcageWrite _ => true
  | .ftmoWrite _ => true
  | .fbbaseWrite die _ => die < 8
  | .fbstatWrite die _ => die < 8
  | .pwrcapWrite _ => true
  | .hmaskChWrite stack _ => stack < 16
  | .hmaskPcWrite stack _ => stack < 16
  | .configPendingApply u => cfgUnitOk u
  | .hstatRead => true
  | .registerWrite off _ => off < 65536
  | .msiXMessage vec => vec < 9
  | .getVersion => true
  | .getCapabilities => true
  | .negotiateAlgorithms _ => true
  | .getDigests => true
  | .getCertificate _ _ => true
  | .challenge _ => true
  | .getMeasurements _ _ => true
  | .pldmMonitor => true
  | .powerStepDown => true
  | .powerStepUp => true
  | .thermalStop => true
  | .thermalResume => true
  | .unassignedEncoding _ => true
  | .reservedPacketKind q => q < 256
  | .reservedFraricKind _ => true
  | .linkRetrained r => linkOk r.link && decide (r.width < 32 ∧ r.rate < 16)
  | .linkLaneSpared l => linkOk l
  | .fusedMinimumRaise _ => true

/-- The instruction is well formed, as a proposition. -/
abbrev Instr.WellFormed (i : Instr) : Prop := i.wf = true

end Sys2Proof
end

