-- ==== Sys2Proof/Certificates/Slice0/Obligations.lean ====
section
/-! DEFINITION. The statements for the provers. Each says what its docstring's rules say of the machine; a clause that rests on a choice of the
model names its log entry. -/
open Sys2Proof Sys2Proof.Machine

/-! ### Registers -/

/-- The integer, bit and address instructions write what 06 R104 to R114 give, for every form, and nothing else. -/
def Obligations.IntegerResults : Prop :=
  ∀ (s : State) (i : Instr) (v : VecSpec), intSpec s i = some v → v.cond → Housed s → Ready s v.av (v.srcs ++ [vdst v.d v.n]) →
    ∃ t, exec i s = .next t ∧ VecDone s t v.d v.val

/-- The floating-point, conversion and packing instructions write what 06 R117 to R127 give, with their flags, and nothing else. Of what they give, these
are the model's choices: the precision at which a transcendental function is evaluated before its one rounding (log 8), FMIN and FMAX of a tiny operand
under FTZ (log 9), the sign of FNMA and FMS under FMA_UNFUSED (log 12), and which NaN a dot product names first (log 98). -/
def Obligations.FloatResults : Prop :=
  ∀ (s : State) (i : Instr) (v : VecSpec), fpSpec s i = some v → v.cond → Housed s → Ready s v.av (v.srcs ++ [vdst v.d v.n]) →
    ∃ t, exec i s = .next t ∧ VecDone s t v.d v.val

/-- The lane instructions write what 06 R129 to R132 give, the 16-bit forms on V registers what their 32-bit form writes (03 R51), and nothing
else. -/
def Obligations.LaneAndCompactResults : Prop :=
  ∀ (s : State) (i : Instr) (v : VecSpec), laneSpec s i = some v ∨ compactSpec s i = some v → v.cond → Housed s →
    Ready s v.av (v.srcs ++ [vdst v.d v.n]) → ∃ t, exec i s = .next t ∧ VecDone s t v.d v.val

/-- The instructions that write a P register write what 06 R110, R119 and R130 give, and nothing else. -/
def Obligations.PredicateResults : Prop :=
  ∀ (s : State) (i : Instr) (rs : List Ref) (d : PReg) (f : Nat → Bool × Nat), predSpec s i = some (rs, d, f) →
    Ready s avVec (rs ++ [pref d.toNat]) → ∃ t, exec i s = .next t ∧ PredDone s t d.toNat f

/-- The instructions that write S registers from registers write what 06 R115, R116 and R130 give, and nothing else. -/
def Obligations.ScalarResults : Prop :=
  ∀ (s : State) (i : Instr) (v : ScalarSpec), scalarSpec s i = some v → v.cond → Ready s v.av (v.srcs ++ [sref v.d v.words.length]) →
    ∃ t, exec i s = .next t ∧ ScalarDone s t v.d v.words

/-! ### Modes and system registers -/

/-- SETLX, SETFPM, SYSW and the clearing of FPFLAGS complete: they write the one register they name, the batch stands at the next instruction, and
nothing else differs (06 R128; 18 R352, R354). SETLX's immediate is unsigned (03 Table 3.4). -/
def Obligations.ModeWrites : Prop :=
  ∀ (s : State) (e : Bool),
    let done (i : Instr) (u : State) : Prop := ∃ t, exec i s = .next t ∧ MovedOn u t fun _ => s.cur.npc
    (∀ k : BitVec 11, RunsHere s avCore →
      done (.setlx k e) (s.modG fun g => { g with lx := w32 (preLit s.cur.pre * 2 ^ 11 + k.toNat) &&& 0x3FFFF })) ∧
    (∀ a, Ready s avHome [sref a] → (s.g.sreg a.toNat).toNat < 256 →
      done (.setfpm a e) (s.modG fun g => { g with fpmode := s.g.sreg a.toNat })) ∧
    (∀ k : Byte, RunsHere s avHome → done (.setfpmImm k e) (s.modG fun g => { g with fpmode := k.setWidth 32 })) ∧
    (∀ a, Ready s (sysAvail 2 false) [sref a] → (∀ r ∈ s.g.returns, r.kind ≠ .qnt) →
      done (.fpflagsClear a e) (s.modG fun g => { g with fpflags := s.g.fpflags &&& ~~~(s.g.sreg a.toNat) })) ∧
    (∀ a, Ready s (sysAvail 0 false) [sref a] →
      done (.sysw 0 a e) (s.modG fun g => { g with lx := s.g.sreg a.toNat &&& 0x3FFFF })) ∧
    (∀ a, Ready s (sysAvail 1 false) [sref a] →
      done (.sysw 1 a e) (s.modG fun g => { g with fpmode := s.g.sreg a.toNat &&& 0xFF })) ∧
    (∀ (m : Fin 4) a, Ready s (sysAvail (0x31 + 2 * m) false) [sref a] →
      done (.sysw (BitVec.ofNat 10 (0x31 + 2 * m)) a e)
        (s.modT fun t => { t with lmap := tmod {} t.lmap m fun w => { w with b := s.g.sreg a.toNat } })) ∧
    (∀ a, Ready s (sysAvail 0x80 false) [sref a] →
      done (.sysw 0x80 a e) (s.modG fun g =>
        { g with seq := { g.seq with stvec := g.seq.stvec.extractLsb' 32 32 ++ s.g.sreg a.toNat } })) ∧
    (∀ a, Ready s (sysAvail 0x81 false) [sref a] →
      done (.sysw 0x81 a e) (s.modG fun g =>
        { g with seq := { g.seq with stvec := s.g.sreg a.toNat ++ g.seq.stvec.extractLsb' 0 32 } })) ∧
    (∀ a, Ready s (sysAvail 0x82 false) [sref a] →
      done (.sysw 0x82 a e) (s.modG fun g =>
        { g with seq := { g.seq with stpc := g.seq.stpc.extractLsb' 32 32 ++ s.g.sreg a.toNat } })) ∧
    (∀ a, Ready s (sysAvail 0x83 false) [sref a] →
      done (.sysw 0x83 a e) (s.modG fun g =>
        { g with seq := { g.seq with stpc := s.g.sreg a.toNat ++ g.seq.stpc.extractLsb' 0 32 } }))

/-- SYSR writes a system register as the batch's lowest lane reads it to an S register, SYSR.V as each lane reads it to a V register; a read of
FPFLAGS has no QNT to wait for (18 R351, R353). What the system registers hold: LX, FPMODE, FPFLAGS, WB, LANE, the group's number, role and width, CTX,
LCORE, DIE, NODE, the larder windows, WCAGE, FTMO and the sequencer's trap registers (18 Table 18.1). -/
def Obligations.SystemReads : Prop :=
  (∀ (s : State) (n : BitVec 10) (a : Reg) (e : Bool), (n = 2 → ∀ r ∈ s.g.returns, r.kind ≠ .qnt) →
    (Ready s (sysAvail n.toNat true) [sref a] →
      ∃ t, exec (.sysr n a e) s = .next t ∧ ScalarDone s t a [s.sysReg n.toNat s.lane0]) ∧
    (Housed s → Ready s (sysAvail n.toNat true) [vdst a] →
      ∃ t, exec (.sysrV n a e) s = .next t ∧ VecDone s t a fun l => ([s.sysReg n.toNat l], 0))) ∧
  (∀ (s : State) (l : Nat),
      s.sysReg 0 l = s.g.lx ∧ s.sysReg 1 l = s.g.fpmode ∧ s.sysReg 2 l = s.g.fpflags ∧
      s.sysReg 3 l = w32 (8 * (s.g.fib l).wb8.toNat) ∧ (s.g.guest = none → s.sysReg 4 l = w32 l ∧ s.sysReg 5 l = 0) ∧
      (s.g.guest.isSome = true → s.sysReg 5 l = 1) ∧
      s.sysReg 0x13 l = w32 s.g.number ∧ s.sysReg 0x14 l = w32 s.g.role ∧ s.sysReg 0x15 l = w32 s.g.width ∧
      s.sysReg 0x20 l = w32 s.g.ctx ∧ (s.g.kind = .core → s.sysReg 0x21 l = w32 s.g.place ∧ s.sysReg 0x22 l = w32 (s.g.place / 128)) ∧
      (s.g.kind = .sequencer → s.sysReg 0x21 l = w32 (8 * s.g.place)) ∧
      s.sysReg 0x23 l = s.nodeid.setWidth 32 ∧
      (∀ m, m < 4 → s.sysReg (0x30 + 2 * m) l = (tget {} s.tm.lmap m).a ∧ s.sysReg (0x31 + 2 * m) l = (tget {} s.tm.lmap m).b) ∧
      s.sysReg 0x40 l = w32 s.wcage ∧ s.sysReg 0x41 l = w32 s.ftmo ∧
      s.sysReg 0x81 l ++ s.sysReg 0x80 l = s.g.seq.stvec ∧ s.sysReg 0x83 l ++ s.sysReg 0x82 l = s.g.seq.stpc ∧
      s.sysReg 0x85 l ++ s.sysReg 0x84 l = s.g.seq.stnext ∧ s.sysReg 0x86 l = s.g.seq.stcode ∧
      s.sysReg 0x88 l ++ s.sysReg 0x87 l = s.g.seq.stdetail ∧ s.sysReg 0x8A l ++ s.sysReg 0x89 l = s.g.seq.staddr ∧
      s.sysReg 0x8D l ++ s.sysReg 0x8C l ++ s.sysReg 0x8B l = s.g.seq.stparc)

/-! ### Control flow -/

/-- Branches: where each fibre of the batch stands afterwards, the link registers and windows they write, and nothing else (15 R284 to R289). SKP: the
fibres whose P register equals the sense stand past the n + 1 skipped instructions, prefixes with them; the others at the next one (15 R287). -/
def Obligations.BranchAndSkipTargets : Prop :=
  ∀ (s : State) (e : Bool),
    (∀ d : BitVec 18, RunsHere s avAll → Does (.br d e) s s fun _ => s.cur.pc + 2 * d.signExtend 64) ∧
    (∀ (d : BitVec 18) sn p, Ready s avAll [pref p.toNat] →
      Does (.brCond d sn p e) s s fun l => if s.g.pbit l p.toNat = sn then s.cur.pc + 2 * d.signExtend 64 else s.cur.npc) ∧
    (∀ (d : BitVec 19) sl, s.g.kind ≠ .sequencer → Ready s avAll [{ cls := 0, field := 8 * sl.toNat, n := 3 }] →
      Does (.call d sl e) s
        ((s.modG fun g => g.forLanes s.batch fun g l =>
            g.vsets l (s.g.wb l + 8 * sl.toNat) [s.cur.npc.truncate 32, (s.cur.npc >>> 32).truncate 32, w32 (s.g.wb l)]).eachWb
          fun l => (s.g.fib l).wb8 + sl.setWidth 8)
        fun _ => s.cur.pc + 2 * d.signExtend 64) ∧
    (∀ (d : BitVec 19), s.g.kind = .sequencer → Ready s avAll [sref 30 2] →
      Does (.call d 0 e) s (s.modG fun g => g.ssets 30 [s.cur.npc.truncate 32, (s.cur.npc >>> 32).truncate 32])
        fun _ => s.cur.pc + 2 * d.signExtend 64) ∧
    (s.g.kind ≠ .sequencer → Ready s avAll [{ cls := 0, field := 0, n := 3, read := true }] →
      (∀ l ∈ s.batch, (s.g.vval l (s.g.wb l)).getLsbD 0 = false) →
      Does (.ret e) s (s.eachWb fun l => BitVec.ofNat 8 ((s.g.vval l (s.g.wb l + 2)).toNat / 8 % 32)) fun l => s.g.vpair l (s.g.wb l)) ∧
    (s.g.kind = .sequencer → Ready s avAll [sref 30 2] → (s.g.sreg 30).getLsbD 0 = false → Does (.ret e) s s fun _ => s.g.spair 30) ∧
    (∀ a, s.g.kind ≠ .sequencer → Ready s avScalar [vsrc a 2] → (∀ l ∈ s.batch, (s.g.vval l (s.g.phys l a)).getLsbD 0 = false) →
      Does (.jmpr a e) s s fun l => s.g.vpair l (s.g.phys l a)) ∧
    (∀ a, s.g.kind = .sequencer → Ready s avScalar [sref a 2] → (s.g.sreg a.toNat).getLsbD 0 = false →
      Does (.jmpr a e) s s fun _ => s.g.spair a.toNat) ∧
    (∀ a, RunsHere s avCore → Goes (.swin a e) s (s.eachWb fun _ => a.setWidth 8)) ∧
    (∀ (u : State) (n : Fld3) (sn : Bool) (p : PReg), Ready s avCore [pref p.toNat] → s.passOver (n.toNat + 1) = .ok u →
      ∃ t, exec (.skp n sn p e) s = .next t ∧ t.cur = {} ∧
        (∀ l ∈ s.batch, ((t.grp s.cur.gid).fib l).pc = if s.g.pbit l p.toNat = sn then u.cur.npc else s.cur.npc) ∧
        (∀ l, ((t.grp s.cur.gid).fib l).preds = (s.g.fib l).preds) ∧ (t.grp s.cur.gid).v = s.g.v ∧ (t.grp s.cur.gid).sregs = s.g.sregs ∧
        OnlyGroup s t ∧ MemoryKept s t)

/-- NOP, YIELD, a WAIT whose counters are within its limits, and RDCLK: only RDCLK writes registers, the clock's count, which a cellar core samples at its
own 2 GHz cycle (log 61). A WAIT whose counters are beyond its limits stands where it is, as does every instruction of which a source or destination register
is pending. LIT and MOD join the sequence under way: their payload stands before the next word, and the batch does not move (02 R42; 03 R54; 15 R289,
R290). -/
def Obligations.HintsWaitsAndPrefixes : Prop :=
  ∀ (s : State) (e : Bool),
    (RunsHere s avAll → Goes (.nop e) s s) ∧
    (RunsHere s avScalar → s.g.kind ≠ .sequencer → Goes (.yield e) s s) ∧
    (RunsHere s avScalar → s.g.kind = .sequencer →
      Goes (.yield e) s (s.modG fun g => { g with seq := { g.seq with yieldTo := s.otherContexts s.cur.gid } })) ∧
    (∀ tl cp st ld, RunsHere s avAll → s.g.tl ≤ tl.toNat → s.g.cp ≤ cp.toNat → s.g.st ≤ st.toNat → s.g.ld ≤ ld.toNat →
      Goes (.wait tl cp st ld e) s s) ∧
    (∀ a, Ready s avAll [sref a 2] →
      let n := if s.g.kind = .cellar then s.now / 2 * 2 else s.now
      ∃ t, exec (.rdclk a e) s = .next t ∧ ScalarDone s t a [w32 n, w32 (n / 2 ^ 32)]) ∧
    (∀ tl cp st ld, RunsHere s avAll → (tl.toNat < s.g.tl ∨ cp.toNat < s.g.cp ∨ st.toNat < s.g.st ∨ ld.toNat < s.g.ld) →
      ∃ t, exec (.wait tl cp st ld e) s = .next t ∧ t.cur = {} ∧ MemoryKept s t ∧
        ∀ l ∈ s.batch, ((t.grp s.cur.gid).fib l).pc = (s.g.fib l).pc ∧
          ((t.grp s.cur.gid).fib l).wait = .counts ld.toNat st.toNat cp.toNat tl.toNat) ∧
    (∀ i n, needs s i = some n → InFiles s n → n.first → s.pendingRefs n.refs ≠ [] →
      ∃ t, exec i s = .next t ∧ BatchAt s t (fun l => (s.g.fib l).pc) (.scoreboard (s.pendingRefs n.refs)) ∧ MemoryKept s t ∧
        (t.grp s.cur.gid).tiles = s.g.tiles ∧ (∀ l i, (t.grp s.cur.gid).pbit l i = s.g.pbit l i) ∧ (t.grp s.cur.gid).returns = s.g.returns ∧
        (t.grp s.cur.gid).stores = s.g.stores) ∧
    (∀ p : BitVec 22,
      exec (.lit p) s = .next { s with cur := { s.cur with pre := { s.cur.pre with lit := some p }, mid := true, c16 := false } } ∧
      exec (.mod p) s = .next { s with cur := { s.cur with pre := { s.cur.pre with mod := some p, modFirst := s.cur.pre.lit.isNone }
                                                           mid := true, c16 := false } })

/-! ### Traps -/

/-- TRAP, BKPT and a word that is no instruction, prefixes and prefix sequences among them, take their trap in the user handler: code and DETAIL as given,
the record in the larder, each fibre at the trap vector (03 R65, Table 3.10; 17 R333; 18 R355). So does every trap of class U; one of class D, or whose
launch has no user handler, holds the group at the instruction and gives the driver a record of KIND 0x02; one of class F freezes the context (16 R324,
R326; 17 R331, R336). That FLAGS tells only of prefixes that were accepted is the model's choice (log 100). -/
def Obligations.Traps : Prop :=
  ∀ (s : State) (e : Bool),
    (HandlerFree s →
      (∀ n : BitVec 15, ∃ t, exec (.trap n e) s = .next t ∧ EntersHandler s t 0x11 n.toNat 0) ∧
      (∀ n : BitVec 15, ∃ t, exec (.bkpt n e) s = .next t ∧ EntersHandler s t 0x10 n.toNat 0) ∧
      (∃ t, exec (.unassignedEncoding .unassignedMajor) s = .next t ∧ EntersHandler s t 1 (1 + 256 * 2 + 65536 * 7) 0) ∧
      (∀ lo hi, ∃ t, exec (.unassignedEncoding (.unassignedMinor lo hi)) s = .next t ∧ EntersHandler s t 1 (2 + 256 * lo + 65536 * hi) 0) ∧
      (∀ lo hi w, let word := match w with | .instr => 0 | .lit => 1 | .mod => 2
        (∃ t, exec (.unassignedEncoding (.reservedField lo hi w)) s = .next t ∧ EntersHandler s t 1 (3 + 256 * lo + 65536 * hi + 2 ^ 24 * word) 0) ∧
        (∃ t, exec (.unassignedEncoding (.reservedCode lo hi w)) s = .next t ∧ EntersHandler s t 1 (4 + 256 * lo + 65536 * hi + 2 ^ 24 * word) 0)) ∧
      (∀ k, (∃ t, exec (.unassignedEncoding (.prefixKind k)) s = .next t ∧ EntersHandler s t 2 (1 + 256 * k) 0) ∧
        (∃ t, exec (.unassignedEncoding (.prefixE k)) s = .next t ∧ EntersHandler s t 2 (2 + 256 * k) 0) ∧
        (∃ t, exec (.unassignedEncoding (.prefixRepeated k)) s = .next t ∧ EntersHandler s t 2 (3 + 256 * k) 0) ∧
        (∃ t, exec (.unassignedEncoding (.prefixBeforeC16 k)) s = .next t ∧ EntersHandler s t 2 (4 + 256 * k) 0) ∧
        (∃ t, exec (.unassignedEncoding (.prefixRefused k)) s = .next t ∧ EntersHandler s t 2 (5 + 256 * k) 0)) ∧
      (∀ tr : Trap, userClass tr.code = true → tr.freezes = false → EntersHandler s (s.halt (.trap tr)) tr.code tr.detail tr.addr)) ∧
    (∀ tr : Trap, s.g.kind = .core → s.g.guest = none → s.g.call = none → s.g.handler = 0 → FaultRoom s s.g.die 1 → (s.die s.g.die).waiting = [] →
      (tr.freezes = false → (userClass tr.code = false ∨ (s.grid s.tm.grid).trapvec = 0) → HeldAt s (s.halt (.trap tr)) tr) ∧
      (tr.freezes = true →
        let t := s.halt (.trap tr)
        let event := if tr.code = 0xA then 1 else if tr.code = 0x14 then 2 else 3
        Recorded s t s.g.die (record [(1, 0xF0), (1, event), (1, s.g.ctx % 64), (1, 0), (4, s.g.who % 2 ^ 19), (8, s.cur.pc.toNat),
          (8, tr.handle.getD tr.addr), (8, tr.detail)]) ∧
        ((s.ctx s.g.ctx).phase = .active → (t.ctx s.g.ctx).phase = .frozen ∧ (t.ctx s.g.ctx).freeze = event) ∧
        (∀ l, (t.grp s.cur.gid).fib l = s.g.fib l) ∧ (t.grp s.cur.gid).hold = s.g.hold ∧ (t.grp s.cur.gid).v = s.g.v ∧
        (t.grp s.cur.gid).sregs = s.g.sregs)) ∧
    (∀ n : BitVec 15,
      s.g.kind = .core → s.g.guest = none → s.g.call = none → s.g.handler = 0 → (s.grid s.tm.grid).trapvec = 0 → s.mem.wf = true →
      FaultRoom s s.g.die 1 → (s.die s.g.die).waiting = [] →
      ∃ t, exec (.trap n e) s = .next t ∧
        (t.grp s.cur.gid).hold = some (.trap { code := 0x11, detail := n.toNat } s.cur false) ∧
        (∀ l, (t.grp s.cur.gid).fib l = s.g.fib l) ∧ (t.grp s.cur.gid).v = s.g.v ∧ (t.grp s.cur.gid).sregs = s.g.sregs ∧
        t.homeRead (bitsOf (s.die s.g.die).fbbase.toNat 39 17 * 2 ^ 17 + 32 * ((s.die s.g.die).widx % 4096)) 32 =
          record [(1, 2), (1, 0x11), (1, s.g.ctx % 64), (1, 0), (4, s.g.who), (8, s.cur.pc.toNat), (8, 0), (8, n.toNat)] ∧
        (t.die s.g.die).widx = ((s.die s.g.die).widx + 1) % 65536 ∧ s.g.die ∈ t.msiDue)

/-- An instruction that the kind of its group does not run takes UNAVAIL with the executing kind, and none of its effect happens; a guest fibre that may
not execute it goes home (03 R63; 15 R308). A register beyond its class's allocation takes REGIDX: class in bits 3:0, allocation from bit 16, index
from bit 32 (02 R33); of several the model takes any one (log 2). A poisoned source takes POISON with the lane and the physical index: of the first
source that is poisoned the lowest register, then the lowest lane (02 R44); the order of the sources is the model's where no format letters them
(log 113). -/
def Obligations.UnavailableAndRegisterTraps : Prop :=
  ∀ (s : State) (i : Instr) (n : Needs), needs s i = some n →
    (s.g.guest = none → n.av.runs s.g.kind = false → TakesTrap i s 3 (kindCode s.g.kind) 0) ∧
    (s.g.guest.isSome = true → (n.av.runs s.g.kind = false ∨ n.av.guest = false) → exec i s = .next (s.halt .home)) ∧
    (RunsHere s n.av → (∃ r ∈ n.refs, r.cls ≠ 5 ∧ ∃ x ∈ s.refIdx r, s.allocOf r.cls ≤ x) →
      ∃ r ∈ n.refs, r.cls ≠ 5 ∧ ∃ x ∈ s.refIdx r, s.allocOf r.cls ≤ x ∧
        TakesTrap i s 4 (r.cls + 2 ^ 16 * s.allocOf r.cls + 2 ^ 32 * (x % 4096)) 0) ∧
    (InFiles s n → n.first → s.pendingRefs n.refs = [] → ∀ pre ps post p l, n.reads s = pre ++ ps :: post →
      (∀ x ∈ pre, ∀ e ∈ x, (s.g.vlane e.2 e.1).pois = false) → LowestPoison s ps p l →
      exec i s = .next (s.halt (.trap { code := 0xB, detail := l + 2 ^ 32 * p, file := (s.g.vlane l p).own })))

/-- TRET and EMRET leave the handler: each fibre of the batch takes the PC, or NEXTPC, of the record and its WBLANE byte; the handler ends for
them; a return from outside the handler takes ILLEGAL cause 6 (17 R334; 18 R356). -/
def Obligations.HandlerReturns : Prop :=
  ∀ (s : State) (e : Bool), s.g.kind = .core → s.g.guest = none → Drained s → Unmapped s → s.tm.lbad (s.recordAt s.cur.gid) 128 = false →
    let rcd := mreads s.tm.larder (s.recordAt s.cur.gid) 128
    let back (t : State) (off : Nat) : Prop :=
      (∀ l, ((t.grp s.cur.gid).fib l).pc = if l ∈ s.batch then BitVec.ofNat 64 (fieldAt rcd off 8) else (s.g.fib l).pc) ∧
      (∀ l, ((t.grp s.cur.gid).fib l).wb8 = if l ∈ s.batch then BitVec.ofNat 8 (fieldAt rcd (0x40 + l) 1) else (s.g.fib l).wb8) ∧
      (t.grp s.cur.gid).handler = s.g.handler &&& (2 ^ 64 - 1 - (s.g.handler &&& s.cur.mask)) ∧
      (t.grp s.cur.gid).v = s.g.v ∧ (t.grp s.cur.gid).sregs = s.g.sregs ∧ MemoryKept s t
    (s.g.handler &&& s.cur.mask = s.cur.mask → fieldAt rcd 0 8 % 2 = 0 → ∃ t, exec (.tret e) s = .next t ∧ back t 0) ∧
    (s.g.handler &&& s.cur.mask = s.cur.mask → fieldAt rcd 8 8 % 2 = 0 → ∃ t, exec (.emret e) s = .next t ∧ back t 8) ∧
    (HandlerFree s → s.cur.mask ≠ 0 → ∃ t, exec (.tret e) s = .next t ∧ EntersHandler s t 2 6 0) ∧
    (HandlerFree s → s.cur.mask ≠ 0 → ∃ t, exec (.emret e) s = .next t ∧ EntersHandler s t 2 6 0)

/-- A sequencer context's trap takes its trap registers and goes to STVEC; TRET goes back to STPC (07 Table 7.1; 17 R333; 18 R356). -/
def Obligations.SequencerTraps : Prop :=
  ∀ (s : State) (n : BitVec 15) (e : Bool), s.g.kind = .sequencer → s.g.guest = none → s.g.call = none → s.g.handler = 0 → s.batch = [0] →
    (s.g.seq.inHandler = false → s.g.seq.stvec ≠ 0 →
      ∃ t, exec (.trap n e) s = .next t ∧ ((t.grp s.cur.gid).fib 0).pc = s.g.seq.stvec ∧ (t.grp s.cur.gid).seq.inHandler = true ∧
        (t.grp s.cur.gid).seq.stpc = s.cur.pc ∧ (t.grp s.cur.gid).seq.stnext = s.cur.npc ∧
        (t.grp s.cur.gid).seq.stdetail = n.setWidth 64 ∧ (t.grp s.cur.gid).seq.staddr = 0 ∧ (t.grp s.cur.gid).seq.stvec = s.g.seq.stvec ∧
        ((t.grp s.cur.gid).seq.stcode.toNat % 256 = 0x11) ∧ (t.grp s.cur.gid).sregs = s.g.sregs ∧ MemoryKept s t) ∧
    (s.g.seq.inHandler = true → s.g.seq.stpc.getLsbD 0 = false →
      Does (.tret e) s (s.modG fun g => { g with seq := { g.seq with inHandler := false } }) fun _ => s.g.seq.stpc)

/-! ### Loads, stores and atomics -/

/-- A load begins (02 R42, R43; 09 R163, R168; 10 R184, R186; 11 R206, R208 to R212): LDG and LDP at the places that their addresses' translations give,
LDL in the team's larder or the call's scratch, LDO in the context's loft window. Nothing of memory changes, and the registers are written when the
lanes return; what cannot be read yet, or is asked of another module, is under way. That a load whose places can be reached has its bytes as it issues
is the model's choice (log 30). -/
def Obligations.LoadsBegin : Prop :=
  ∀ (s : State) (z : Size) (d r : Reg) (e : Bool), s.g.ld < 63 → s.g.queuesOps = false → MemoryCanonical s →
    (∀ i p as xs, Ready s avVec [vsrc r (addrRegs (s.poolIdx p)), vdst d (sizeRegs z)] →
      s.formAddrs r (s.poolIdx p) (s.immM i * sizeBytes z) (sizeBytes z) false = .ok as → s.locateAll as (sizeBytes z) .read = .ok xs →
      s.touching xs = [] → (preOrder s.cur.pre = .plain → s.raceScope s.cur.gid = none) → L1Room s s.cur.gid (2 * xs.length) →
      ∃ t, exec (.ldg z i p r d e) s = .next t ∧ LoadBegun s t z d none xs []) ∧
    (∀ q p as xs zero, Ready s avCore [vsrc r (addrRegs (s.poolIdx p)), vdst d (sizeRegs z), pref q.toNat] →
      s.formAddrs r (s.poolIdx p) 0 (sizeBytes z) false = .ok as → s.locateProbe (sizeBytes z) as = .ok (xs, zero) →
      s.touching xs = [] → (preOrder s.cur.pre = .plain → s.raceScope s.cur.gid = none) → L1Room s s.cur.gid (2 * xs.length) →
      (∀ l ∈ zero, l ∈ s.batch) →
      ∃ t, exec (.ldp z q p r d e) s = .next t ∧ LoadBegun s t z d (some q) xs zero) ∧
    (∀ i xs, Ready s avHomeCellar [vsrc r, vdst d (sizeRegs z)] → (s.g.kind = .core → Unmapped s) →
      s.larderLanes r (s.immML i * sizeBytes z) (sizeBytes z) = .ok xs →
      ∃ t, exec (.ldl z i r d e) s = .next t ∧ LoadBegun s t z d none xs []) ∧
    (∀ xs, Ready s avHomeCellar [vsrc r, vdst d] → (s.g.kind = .core → Unmapped s) → s.larderLanes r 0 4 = .ok xs →
      ∃ t, exec (.ldlC16 r d) s = .next t ∧ LoadBegun s t .b32 d none xs []) ∧
    (∀ i xs, Ready s avHome [vsrc r, vdst d (sizeRegs z)] → s.loftLanes r (s.immML i * sizeBytes z) (sizeBytes z) = .ok xs →
      ∃ t, exec (.ldo z i r d e) s = .next t ∧ LoadBegun s t z d none xs [])

/-- A store begins (10 R180, R185, R186; 11 R208 to R212): it stands at the end of its group's queue, and no memory has changed. -/
def Obligations.StoresBegin : Prop :=
  ∀ (s : State) (z : Size) (d r : Reg) (e : Bool), s.g.st < 63 →
    (∀ i p as xs, Ready s avVec [vsrc r (addrRegs (s.poolIdx p)), vsrc d (sizeRegs z)] →
      s.formAddrs r (s.poolIdx p) (s.immM i * sizeBytes z) (sizeBytes z) true = .ok as → s.locateAll as (sizeBytes z) .write = .ok xs →
      s.touching xs = [] → (preOrder s.cur.pre = .plain → s.raceScope s.cur.gid = none) →
      ∃ t, exec (.stg z i p r d e) s = .next t ∧ StoreBegun s t (stgUnits s z d xs)) ∧
    (∀ i xs, Ready s avHomeCellar [vsrc r, vsrc d (sizeRegs z)] → (s.g.kind = .core → ∀ line, s.tm.window line = none) →
      s.larderLanes r (s.immML i * sizeBytes z) (sizeBytes z) = .ok xs →
      ∃ t, exec (.stl z i r d e) s = .next t ∧ StoreBegun s t (xs.map fun x => (x.tgt, x.va, s.g.storeBytes z x.lane d))) ∧
    (∀ xs, Ready s avHomeCellar [vsrc r, vsrc d] → (s.g.kind = .core → ∀ line, s.tm.window line = none) → s.larderLanes r 0 4 = .ok xs →
      ∃ t, exec (.stlC16 r d) s = .next t ∧ StoreBegun s t (xs.map fun x => (x.tgt, x.va, s.g.storeBytes .b32 x.lane d))) ∧
    (∀ i xs, Ready s avHome [vsrc r, vsrc d (sizeRegs z)] → s.loftLanes r (s.immML i * sizeBytes z) (sizeBytes z) = .ok xs →
      ∃ t, exec (.sto z i r d e) s = .next t ∧ StoreBegun s t (xs.map fun x => (x.tgt, x.va, s.g.storeBytes z x.lane d)))

/-- An atomic begins: one operation a lane enters the queue with its operands, CAS's second one included; a returning form holds its destination
and counts in LD, a no-return form counts in ST (11 R217 to R220). -/
def Obligations.AtomicsBegin : Prop :=
  ∀ (s : State) (i : Instr) (op : AtomOp) (av : Avail) (v r d : Reg) (p : BitVec 6) (as : List (Nat × Nat)) (xs : List LaneAcc),
    atomOf i = some (op, av, v, p, r, d) →
    let k := if preWide s.cur.pre then 2 else 1
    let nr := preNoReturn s.cur.pre
    Ready s av ([vsrc r (addrRegs (s.poolIdx p)), vsrc v (if op = .cas then 2 * k else k)] ++ (if nr then [] else [vdst d k])) →
    s.g.ctr (if nr then .st else .ld) < 63 → NoAcquire s →
    s.formAddrs r (s.poolIdx p) 0 (4 * k) true = .ok as → s.locateAll as (4 * k) .write = .ok xs → s.touching xs = [] →
    (∀ x ∈ xs, x.tgt.isRemote = false) →
    ∃ t, exec i s = .next t ∧
      OpsBegun s t d k nr (xs.map fun x => (x, .atom op (preWide s.cur.pre) (s.g.atomArg x.lane v 0 (preWide s.cur.pre))
        (if op = .cas then s.g.atomArg x.lane v k (preWide s.cur.pre) else 0)))

/-- A bank operation begins at the loft offsets that V[b] names (11 R213 to R216). -/
def Obligations.BankOperationsBegin : Prop :=
  ∀ (s : State) (i : Instr) (op : LopOp) (c a : Option Reg) (b : Reg) (xs : List LaneAcc), lopOf i = some (op, c, b, a) →
    let nr := preNoReturn s.cur.pre || a.isNone
    Ready s avHome ([vsrc b] ++ (c.map fun c => vsrc c).toList ++ (if nr then [] else [vdst (a.getD 0)])) →
    s.g.ctr (if nr then .st else .ld) < 63 → NoAcquire s → s.loftLanes b 0 (lopBytes op) = .ok xs →
    ∃ t, exec i s = .next t ∧
      OpsBegun s t (a.getD 0) 1 nr (xs.map fun x => (x, .lop op ((c.map fun c => s.g.vval x.lane (s.g.phys x.lane c)).getD 0)))

/-- An access whose address fails a check takes its trap with the cause, the lowest failing lane and its address or offset, and nothing is performed (09
R163, R164, R168, R171, R174; 11 R205 to R207; 14 R274): LDL and STL at the larder or a call's scratch and LDO and STO at the loft, in every size, for a
misaligned offset and one beyond the space, and STL into a read-only window; LDG, STG and LDP for a pool record that is not there or is read-only, a
misaligned address, bytes beyond the record, and a translation that is refused; one that finds no page makes the group replayable, but for LDP. -/
def Obligations.AddressChecksTrap : Prop :=
  ∀ (s : State) (i : Instr),
    (∀ f, offsetForm s i = some f → Ready s f.av f.refs → s.g.ctr f.ctr < 63 → (s.g.kind = .cellar ↔ s.g.call.isSome = true) →
      let n := sizeBytes f.size
      let off (l : Nat) : Int := ((s.g.vval l (s.g.phys l f.reg)).toNat : Int) + f.disp
      let within (l : Nat) : Prop := 0 ≤ off l ∧ off l + n ≤ f.limit
      (∀ l, FirstLane s (fun l => off l % n ≠ 0) l → TakesTrap i s 6 (l + 256 * 2) (off l % 2 ^ 64).toNat) ∧
      (∀ l, (∀ k ∈ s.batch, off k % n = 0) → FirstLane s (fun l => ¬ within l) l →
        TakesTrap i s f.beyond.1 (l + 256 * f.beyond.2) (off l % 2 ^ 64).toNat) ∧
      (∀ z k r d e l, i = .stl z k r d e → s.g.kind ≠ .cellar → (∀ k ∈ s.batch, off k % n = 0 ∧ within k) →
        FirstLane s (fun l => ∃ w, s.tm.window ((off l).toNat / 256) = some w ∧ w.2.wb = false) l →
        TakesTrap i s 9 (l + 256 * 7) (off l).toNat)) ∧
    (∀ f, globalForm s i = some f → Ready s f.av f.refs → s.g.ctr f.ctr < 63 →
      let n := sizeBytes f.size
      let v (l : Nat) := (s.g.vval l (s.g.phys l f.reg)).toNat
      (f.pool = 0 → ∀ l, FirstLane s (fun l => ((s.g.vpair l (s.g.phys l f.reg)).toNat + f.disp) % 2 ^ 64 % n ≠ 0) l →
        TakesTrap i s 6 (l + 256 * 2) (((s.g.vpair l (s.g.phys l f.reg)).toNat + f.disp) % 2 ^ 64)) ∧
      (f.pool ≠ 0 → s.g.call = none → s.foreign = false → s.launch.fld 0xB8 4 ≤ f.pool → TakesTrap i s 5 (s.lane0 + 256) 0) ∧
      (∀ p, f.pool ≠ 0 → s.batch ≠ [] → (∀ a, s.poolRec f.pool a = .ok p) →
        let a (l : Nat) := (p.base + v l + f.disp) % 2 ^ 64
        let off (l : Nat) := v l + f.disp + n
        (p.ro = true → f.write = true → TakesTrap i s 5 (s.lane0 + 256) (a s.lane0)) ∧
        (¬ (p.ro = true ∧ f.write = true) → ∀ l, FirstLane s (fun l => a l % n ≠ 0) l → TakesTrap i s 6 (l + 256 * 2) (a l)) ∧
        (¬ (p.ro = true ∧ f.write = true) → ∀ l, (∀ k ∈ s.batch, a k % n = 0) → FirstLane s (fun l => p.size < off l) l →
          TakesTrap i s 5 (l + 256 * 3) (a l)) ∧
        (p.input = true → f.write = true → p.ro = false → (∀ k ∈ s.batch, a k % n = 0 ∧ off k ≤ p.size) →
          TakesTrap i s 9 (s.lane0 + 256 * 7) (a s.lane0))) ∧
      (∀ pre l va post, s.formAddrs f.reg f.pool f.disp n f.write = .ok (pre ++ (l, va) :: post) → s.g.call = none → s.g.kind = .core →
        (∀ x ∈ pre, ∃ a, s.locate x.1 x.2 n (if f.write then .write else .read) = .ok a) → s.isLocal va = true →
        let found := s.xlateSince s.g.die s.g.ctx va (if f.write then .write else .read) true (s.stallStart s.cur.gid l va) s.g.tlbCore
        (∀ u, found = .prot u →
          exec i s = .next (s.halt (.trap { code := 9, detail := l + 256 * 7 + 65536 * b2n u, addr := va, freezes := u }))) ∧
        (∀ r k, found = .replay r k → f.replays = true → exec i s = .next (s.halt (.replay va r k)))))

/-- ASYNCHRONOUS_RETURN: a lane's value lands in its destination registers with its poison, and the last lane ends the return: its counter falls
and its registers are free (02 R42 to R44). -/
def Obligations.ReturnsLand : Prop :=
  ∀ (s : State) (gid ret lane phys : Nat) (r : Return) (x : LaneRet) (ws : List Word) (pois : Bool),
    thas s.groups gid = true → (s.grp gid).ret? ret = some r → r.kind ≠ .waitw → r.stall = false →
    (r.lanes.find? fun x => x.lane == lane) = some x → x.ready = true → x.ws = vWrites lane phys pois ws → phys + ws.length ≤ 256 →
    ((s.grp gid).fib lane).life ≠ .free →
    ∃ t, exec (.asynchronousReturn gid ret lane) s = .next t ∧
      (∀ l p, p < 256 → (t.grp gid).vlane l p =
        if l = lane ∧ phys ≤ p ∧ p < phys + ws.length then { val := ws.getD (p - phys) 0, pois := pois } else (s.grp gid).vlane l p) ∧
      (∀ k, k ≠ gid → t.grp k = s.grp k) ∧ MemoryKept s t ∧
      ((∀ y ∈ r.lanes, y.lane = lane) → r.left = 0 →
        (∀ q ∈ (t.grp gid).returns, q.id ≠ ret) ∧ ∀ c, (t.grp gid).ctr c = if r.ctr = some c then (s.grp gid).ctr c - 1 else (s.grp gid).ctr c)

/-- STORE_PERFORMED: the head of the queue leaves it and its bytes stand at their place: larder, scratch, loft, host memory, device memory at its
home, or, under policy 0, the core's L1; a cellar call's at its stack (01 R16); every other byte of it and of every other memory reads as before. A head whose place cannot be reached
yet stays (09 R163, R168, R172, R173; 10 R180). -/
def Obligations.StoresPerform : Prop :=
  ∀ (s : State) (gid : Nat) (o : StoreOp) (os : List StoreOp) (bs : List Byte),
    thas s.groups gid = true → (s.grp gid).stores = o :: os → o.act = .bytes bs → o.order = .plain → MemoryCanonical s → L1Room s gid 2 →
    bs.length ≤ 16 → (∀ r, (s.grp gid).ret? o.ret = some r → r.neg = []) →
    (s.placeOpen gid o = false → exec (.storePerformed gid) s = .next s) ∧
    (s.placeOpen gid o = true → ∃ t, exec (.storePerformed gid) s = .next t ∧ (t.grp gid).stores = os ∧
      ((∀ va, o.tgt ≠ .held va) → OtherMemoryKept s t (s.grp gid).tid o.tgt) ∧
      (∀ off, o.tgt = .larder off → ∀ a, mread (t.team (s.grp gid).tid).larder a =
        if off ≤ a ∧ a < off + bs.length then bs.getD (a - off) 0 else mread (s.team (s.grp gid).tid).larder a) ∧
      (∀ st off, o.tgt = .scratch st off → ∀ a, mread (t.stack st).scratch a =
        if off ≤ a ∧ a < off + bs.length then bs.getD (a - off) 0 else mread (s.stack st).scratch a) ∧
      (∀ d off, o.tgt = .loft d off → ∀ a, mread (t.die d).loft a =
        if off ≤ a ∧ a < off + bs.length then bs.getD (a - off) 0 else mread (s.die d).loft a) ∧
      (∀ off, o.tgt = .host off → ∀ a, mread t.hostMem a =
        if off ≤ a ∧ a < off + bs.length then bs.getD (a - off) 0 else mread s.hostMem a) ∧
      (∀ off, o.tgt = .dev off 3 → t.l2 = s.l2 ∧ ∀ a, mread t.mem a =
        if off ≤ a ∧ a < off + bs.length then bs.getD (a - off) 0 else mread s.mem a) ∧
      (∀ off pol, o.tgt = .dev off pol → pol ≠ 3 → ((s.grp gid).hasL1 = false ∨ 0 < pol) → ∀ a, t.homeByte a =
        if off ≤ a ∧ a < off + bs.length then bs.getD (a - off) 0 else s.homeByte a) ∧
      (∀ off, o.tgt = .dev off 0 → (s.grp gid).hasL1 = true →
        (∀ a, t.homeByte a = s.homeByte a) ∧
        ∀ a, t.l1Byte (s.grp gid).place a =
          if off ≤ a ∧ a < off + bs.length then bs.getD (a - off) 0 else s.l1Byte (s.grp gid).place a))

/-- STORE_PERFORMED of an atomic at device memory: the word at its home, or of a cellar call at its stack, takes the operation's result, the lane gets
the old value, and every other byte reads as after the core's line has been written back (01 R16; 09 R172; 11 R218 to R220). -/
def Obligations.AtomicsPerform : Prop :=
  ∀ (s : State) (gid pa pol v v2 : Nat) (o : StoreOp) (os : List StoreOp) (op : AtomOp) (wide : Bool),
    thas s.groups gid = true → (s.grp gid).stores = o :: os → o.act = .atom op wide v v2 → o.tgt = .dev pa pol → s.placeOpen gid o = true →
    o.order = .plain → MemoryCanonical s → (∀ r, (s.grp gid).ret? o.ret = some r → r.neg = []) →
    let n := if wide then 8 else 4
    let u := if (s.grp gid).hasL1 then s.l1Flush (s.grp gid).place (pa / 256) else s
    let byte (x : State) (a : Nat) : Byte := if pol = 3 then mread x.mem a else x.homeByte a
    let word (x : State) : Nat := leNat ((List.range n).map fun i => byte x (pa + i))
    u.homePoison pa n = false →
    ∃ t, exec (.storePerformed gid) s = .next t ∧ (t.grp gid).stores = os ∧
      (∀ w, atomNew op (8 * n) (word u) v v2 = some w → word t = w % 2 ^ (8 * n)) ∧
      (atomNew op (8 * n) (word u) v v2 = none → word t = word u) ∧
      (∀ a, (a < pa ∨ pa + n ≤ a) → byte t a = byte u a) ∧
      (o.dst < 256 → ∀ r, (s.grp gid).ret? o.ret = some r → ∀ x ∈ r.lanes, x.lane = o.lane →
        ∃ q, (t.grp gid).ret? o.ret = some q ∧ ∃ y ∈ q.lanes, y.lane = o.lane ∧ y.ready = true ∧
          y.ws = atomWrites o.lane o.dst n (word u) false)

/-- L1_EVICTION of a line whose write-back is not held: no byte of it stays in the core's L1, the dirty ones stand at their home, and every other byte
reads as before; WC_AGE_DRAIN: an entry that has aged past its interval leaves as one WRITE of its line (09 R172; 10 R196, R197). -/
def Obligations.BuffersDrain : Prop :=
  ∀ (s : State) (core line : Nat), core < 1024 →
    (((s.core core).l1.map (·.1)).Nodup → MemoryCanonical s →
      (∀ a b, (a, b) ∈ (s.core core).l1 → a / 256 = line → b.dirty = true → s.l1Fate core false a b = .goes) →
      ∃ t, exec (.l1Eviction core line) s = .next t ∧
        (∀ a, a / 256 = line → thas (t.core core).l1 a = false) ∧
        (∀ a b, (a, b) ∈ (s.core core).l1 → a / 256 = line → b.dirty = true → t.homeByte a = b.val) ∧
        (∀ a, (∀ b, (a, b) ∈ (s.core core).l1 → a / 256 = line → b.dirty = false) → t.homeByte a = s.homeByte a) ∧
        (∀ a, a / 256 ≠ line → t.l1Byte core a = s.l1Byte core a)) ∧
    (∀ w, (s.core core).wc = [w] → w.line = line → w.opened + 4 * w.age < s.now →
      ∃ t r, exec (.wcAgeDrain core line) s = .next t ∧ (t.core core).wc = [] ∧ t.reqs = s.reqs ++ [r] ∧ r.pkt.kind = 2 ∧
        r.pkt.va = BitVec.ofNat 64 (256 * line) ∧ r.pkt.payload = writePayload w.cells ∧ MemoryKept s t)

/-! ### Tiles, bins, queues and the array -/

/-- The moves and transposition of tiles: TMOV.TV gives each lane its tile row as eight registers, TMOV.VT the reverse, TXP transposes each block,
TCLR zeroes (08 R153). -/
def Obligations.TileMoves : Prop :=
  ∀ (s : State) (e : Bool), Housed s →
    (∀ b a, Ready s avHome [tref b, vdst a 8] →
      ∃ t, exec (.tmovTv b a e) s = .next t ∧
        VecDone s t a fun l => ((List.range 8).map fun w => w32 (fieldAt (s.g.trow b.toNat (l % 32)) (4 * w) 4), 0)) ∧
    (∀ b a, Ready s avHome [{ cls := 0, field := a.toNat, n := 8 }, tref b] →
      (∀ r ∈ s.tileRows, ∀ w, w < 8 → (s.g.vlane r.2 (s.g.phys r.2 a + w)).pois = false) →
      ∃ t, exec (.tmovVt b a e) s = .next t ∧ OnlyGroup s t ∧ MemoryKept s t ∧ (t.grp s.cur.gid).v = s.g.v ∧
        (∀ k r, r < 32 → (t.grp s.cur.gid).trow k r = match s.rowLane r with
          | some l => if k = b.toNat then (List.range 8).flatMap fun w => leBytes 4 (s.g.vval l (s.g.phys l a + w)).toNat else s.g.trow k r
          | none => s.g.trow k r)) ∧
    (∀ k c b, Ready s avHome [tref b, tref c] →
      ∃ t, exec (.txp k c b e) s = .next t ∧ OnlyGroup s t ∧ MemoryKept s t ∧ (t.grp s.cur.gid).v = s.g.v ∧
        (∀ x, x < 1024 → ((t.grp s.cur.gid).tile c.toNat).getD x 0 =
          let n := txpBytes k
          let m := 32 / n
          (s.g.tile b.toNat).getD (32 * (x / 32 / m * m + x % 32 / n) + n * (x / 32 % m) + x % n) 0) ∧
        ∀ j r, j ≠ c.toNat → r < 32 → (t.grp s.cur.gid).trow j r = s.g.trow j r) ∧
    (∀ b, Ready s avHome [tref b] →
      ∃ t, exec (.tclr b e) s = .next t ∧ OnlyGroup s t ∧ MemoryKept s t ∧ (t.grp s.cur.gid).v = s.g.v ∧
        ∀ j r, r < 32 → (t.grp s.cur.gid).trow j r = if j = b.toNat then List.replicate 32 0 else s.g.trow j r)

/-- TLOAD and TSTORE begin, of the larder and of global memory: a row of 32 bytes for each row that has a source lane; TSTORE's rows enter the store
queue as two 16-byte halves; both count in TL (08 R152). -/
def Obligations.TileTransfersBegin : Prop :=
  ∀ (s : State) (i : Reg) (p : BitVec 6) (r : Reg) (t : Fld3) (e : Bool) (xs : List LaneAcc), s.g.tl < 63 → s.g.queuesOps = false →
    let ready (lar : Bool) : Prop := Ready s avHome [vdst r (tileAddrRegs lar (s.poolIdx p)), tref t] ∧
      ∀ x ∈ rowLanes s r (tileAddrRegs lar (s.poolIdx p)), (s.g.vlane x.2 x.1).pois = false
    (ready true → (∀ line, s.tm.window line = none) → s.rowAccs true (s.poolIdx p) (s.immM i * 32) r false = .ok xs → s.tm.larderPoison = [] →
      ∃ u q, exec (.tload false i p r t e) s = .next u ∧ Begun s u .tl q [] ∧ q.regs = [{ cls := 2, idx := t.toNat }] ∧
        q.lanes.map (fun y => (y.lane, y.ready)) = s.tileRows.map (fun w => (w.1, true)) ∧
        ∀ w ∈ s.tileRows, ∃ y ∈ q.lanes, y.lane = w.1 ∧
          y.ws = [.tile t.toNat w.1 (overlay s.g.stores (rowAcc xs w.2).tgt.spot (mreads s.tm.larder (rowAcc xs w.2).va 32))]) ∧
    (ready true → (∀ line, s.tm.window line = none) → s.rowAccs true (s.poolIdx p) (s.immM i * 32) r true = .ok xs →
      ∃ u q os, exec (.tstore false i p r t e) s = .next u ∧ Begun s u .tl q os ∧ q.left = os.length ∧
        os.map (fun o => (o.tgt, o.va, o.act)) = (s.tileStores t xs).map fun w => (w.1, w.2.1, Action.bytes w.2.2)) ∧
    (ready false → s.raceScope s.cur.gid = none →
      (s.rowAccs false (s.poolIdx p) (s.immM i * 32) r false = .ok xs → MemoryCanonical s → L1Room s s.cur.gid (2 * s.tileRows.length) →
        (∀ x ∈ xs, x.tgt.isRemote = false ∧ s.reaches s.cur.gid x.tgt false = true ∧ (s.readAt s.cur.gid x.tgt 32 x.va).2.1 = false) →
        ∃ u q, exec (.tload true i p r t e) s = .next u ∧ Begun s u .tl q [] ∧ q.regs = [{ cls := 2, idx := t.toNat }] ∧ q.stall = false ∧
          q.lanes.map (fun y => (y.lane, y.ready)) = s.tileRows.map (fun w => (w.1, true)) ∧
          ∀ w ∈ s.tileRows, ∃ y ∈ q.lanes, y.lane = w.1 ∧
            y.ws = [.tile t.toNat w.1 (s.readAt s.cur.gid (rowAcc xs w.2).tgt 32 (rowAcc xs w.2).va).1]) ∧
      (s.rowAccs false (s.poolIdx p) (s.immM i * 32) r true = .ok xs →
        ∃ u q os, exec (.tstore true i p r t e) s = .next u ∧ Begun s u .tl q os ∧ q.left = os.length ∧
          os.map (fun o => (o.tgt, o.va, o.act)) = (s.tileStores t xs).map fun w => (w.1, w.2.1, Action.bytes w.2.2)))

/-- The bin instructions: BCLM and BCLMT claim the lowest free run and give its first bin, BCLMT all ones where there is none; BREL unclaims at
issue and leaves the zeroing to the array; BSTAT reads the range and the claims (08 R154, R155). -/
def Obligations.BinInstructions : Prop :=
  ∀ (s : State) (k : Fld3) (a b : Reg) (e : Bool),
    (∀ n, Ready s avHomeSeq [sref a] → k.toNat + 1 ≤ s.tm.binQuota → s.tm.freeRun (k.toNat + 1) = some n →
      Goes (.bclm k a e) s ((s.modT fun t => { t with claimed := t.claimed ++ (List.range (k.toNat + 1)).map (n + ·) }).writeS a [w32 n]) ∧
      Goes (.bclmt k a e) s ((s.modT fun t => { t with claimed := t.claimed ++ (List.range (k.toNat + 1)).map (n + ·) }).writeS a [w32 n])) ∧
    (Ready s avHomeSeq [sref a] → k.toNat + 1 ≤ s.tm.binQuota → s.tm.freeRun (k.toNat + 1) = none →
      ∃ t, exec (.bclmt k a e) s = .next t ∧ ScalarDone s t a [0xFFFFFFFF]) ∧
    (Ready s avHomeSeq [sref b] → s.g.tl < 63 → s.checkHeld = .ok () →
      (∀ n, n < k.toNat + 1 → s.tm.owns ((s.g.sreg b.toNat).toNat + n) = true) →
      Goes (.brel k b e) s
        (let n := (s.g.sreg b.toNat).toNat
         let keep := s.tm.claimed.filter fun x => !decide (n ≤ x ∧ x < n + (k.toNat + 1))
         (s.modT fun t => { t with claimed := keep }).issueOp (.release n (k.toNat + 1)))) ∧
    (∀ n : Fld3, Ready s avHomeSeq [sref a] →
      ∃ t, exec (.bstat n a e) s = .next t ∧ ScalarDone s t a
        [if n = 0 then w32 (s.tm.binBase + 256 * s.tm.binQuota + 65536 * s.tm.claimed.length)
         else w32 (maskOf ((List.range 32).filter fun j => s.tm.owns (s.tm.binBase + 32 * (n.toNat - 1) + j)))])

/-- The matrix operations are issued with their slot, bins and accumulator once their slot is legal, their bins are the team's, and, for MMAS of a
group, no metadata is illegal (07 R149; 08 R158). -/
def Obligations.MatrixOperationsIssue : Prop :=
  ∀ (s : State) (k : Fld3) (b a : BitVec 7) (zd : Fld3) (e : Bool), Ready s avHomeSeq [zref zd] → s.g.tl < 63 → s.checkHeld = .ok () →
    s.checkBins (mmaBins (mshape (s.slotBytes k.toNat)) a.toNat b.toNat) = .ok () →
    let ok (minor : Nat) : Prop := s.checkSlot k.toNat (minorTakes minor) = .ok () ∧
      s.checkMmas (mshape (s.slotBytes k.toNat)) ⟨minor, k.toNat, a.toNat, b.toNat, zd.toNat⟩ = .ok ()
    let done (i : Instr) (minor : Nat) : Prop := ∃ t, exec i s = .next t ∧ ArrayIssued s t (.mma minor k.toNat a.toNat b.toNat zd.toNat)
    (ok 0 → done (.mma false k b a zd e) 0) ∧ (ok 1 → done (.mma true k b a zd e) 1) ∧
    (ok 2 → done (.mmas false k b a zd e) 2) ∧ (ok 3 → done (.mmas true k b a zd e) 3) ∧
    (ok 4 → done (.mmaq false k b a zd e) 4) ∧ (ok 5 → done (.mmaq true k b a zd e) 5) ∧ (ok 6 → done (.mmat k b a zd e) 6)

/-- BFILLT, ZST, ZLD and ZCLR are issued to the array; BFILLT carries its tile's bytes in the layout it names (08 R155, R160). -/
def Obligations.ArrayTransfersIssue : Prop :=
  ∀ (s : State) (b : Fld3) (a o : Reg) (e : Bool), s.g.tl < 63 → s.checkHeld = .ok () →
    let bin := (s.g.sreg a.toNat).toNat
    let off := (s.g.sreg o.toNat).toNat
    (Ready s avHome [sref a, sref o, tref b] → s.tm.owns bin = true → off % 32 = 0 →
      (off + 1024 ≤ 32768 → ∃ t, exec (.bfillt false b o a e) s = .next t ∧ ArrayIssued s t (.fill bin [(off, s.g.tile b.toNat)])) ∧
      (off + 7968 ≤ 32768 → ∃ t, exec (.bfillt true b o a e) s = .next t ∧
        ArrayIssued s t (.fill bin ((List.range 32).map fun r => (off + 256 * r, ((s.g.tile b.toNat).drop (32 * r)).take 32))))) ∧
    (Ready s avHomeSeq [sref a, zref b] →
      (s.tm.owns bin = true → s.tm.owns (bin + 1) = true →
        (∃ t, exec (.zst .raw b a e) s = .next t ∧ ArrayIssued s t (.zst 0 b.toNat bin)) ∧
        (zldBad (s.cluster s.g.cluster) bin = none → ∃ t, exec (.zld b a e) s = .next t ∧ ArrayIssued s t (.zld b.toNat bin))) ∧
      (s.tm.owns bin = true → ∃ t, exec (.zst .bf16 b a e) s = .next t ∧ ArrayIssued s t (.zst 1 b.toNat bin)) ∧
      (s.tm.owns bin = true → ∃ t, exec (.zst .f16 b a e) s = .next t ∧ ArrayIssued s t (.zst 2 b.toNat bin))) ∧
    (Ready s avHomeSeq [zref b] → ∃ t, exec (.zclr b e) s = .next t ∧ ArrayIssued s t (.zclr b.toNat))

/-- ZRD returns a row of the last completed sum unit and the unit count; MSTAT and MSAVE read the agent's operations, MSAVE a stopped one (08 R160,
R161).
MRES re-enters the stopped operation at the step its registers name, in front of the operations held behind it, and the context is stopped no more
(08 R161; 22 R376). Which operations stand held behind a stop, and that those issued in it go first, is the model's choice (log 119). -/
def Obligations.AccumulatorReadsAndResumes : Prop :=
  ∀ (s : State) (e : Bool),
    (∀ c b a,
      let n := if s.g.width = 64 then 2 else 4
      let i := (s.g.sreg c.toNat).toNat % 128
      Ready s avHome [sref c 2, zref b, vdst a n] → s.g.tl < 63 →
      ∃ t r, exec (.zrd c b a e) s = .next t ∧ Begun s t .tl r [] ∧ r.regs = s.destRegs a n ++ [{ cls := 1, idx := c.toNat + 1 }] ∧
        ∀ l ∈ s.batch, ∃ y ∈ r.lanes, y.lane = l ∧ y.ready = true ∧
          (∀ q, q < n → RegWrite.v l (s.g.phys l a + q)
            { val := (s.tm.zdone b.toNat i).getD (n * l + q) 0, pois := s.tm.zbad b.toNat i (n * l + q) } ∈ y.ws) ∧
          (l = s.lane0 → RegWrite.s (c.toNat + 1) (tget 0 s.tm.zSteps b.toNat) ∈ y.ws)) ∧
    (∀ a, Ready s avHomeSeq [sref a] →
      ∃ t, exec (.mstat a e) s = .next t ∧ ScalarDone s t a
        [w32 (b2n s.g.seq.stopped.isSome + 2 * b2n (!(s.agentOps s.cur.gid).isEmpty) + 256 * min 255 (s.agentOps s.cur.gid).length)]) ∧
    (∀ a, Ready s avSeq [sref a 4] → s.g.seq.stopped = none → ∃ t, exec (.msave a e) s = .next t ∧ ScalarDone s t a [0, 0, 0, 0]) ∧
    (∀ a o k, Ready s avSeq [sref a 4] → s.g.seq.stopped = some o → o.kind.mma? = some k →
      ∃ t, exec (.msave a e) s = .next t ∧ ScalarDone s t a
        [w32 (2 ^ 31 + 2 ^ 21 * k.zd + 2 ^ 16 * o.dep + 256 * o.col + o.row), w32 o.pc.toNat, w32 (o.pc.toNat / 2 ^ 32),
         w32 (min 255 (s.heldOps s.cur.gid).length)]) ∧
    (∀ (a : Reg) (q : MatOp) (o : MmaOp) (dep row col : Nat) (mop : Dword), Ready s avSeq [sref a 4] →
      s.g.seq.stopped = some q → s.mresOp a = .ok (o, dep, row, col, mop) →
      let c := s.cluster s.g.cluster
      let held := c.ops.filter fun x => x.gid == s.cur.gid && s.heldBack c x
      ∃ t op, exec (.mres a e) s = .next t ∧ (t.grp s.cur.gid).seq.stopped = none ∧
        op.kind = .mma o.minor o.slot o.a o.b o.zd ∧ op.dep = dep ∧ op.row = row ∧ op.col = col ∧ op.pc = mop ∧ op.pinned = true ∧ op.ret = q.ret ∧
        (t.cluster s.g.cluster).ops = c.ops.filter (fun x => !held.contains x) ++
          op :: held.map (fun x => { x with pinned := x.pinned || x.tile?.isSome }) ∧
        (t.grp s.cur.gid).sregs = s.g.sregs ∧ MemoryKept s t) ∧
    (∀ (a : Reg) (o : MmaOp) (dep row col : Nat) (mop : Dword), Ready s avSeq [sref a 4] →
      s.g.seq.stopped = none → s.g.tl < 63 → s.checkHeld = .ok () → s.mresOp a = .ok (o, dep, row, col, mop) →
      ∃ t op, exec (.mres a e) s = .next t ∧ (t.cluster s.g.cluster).ops = (s.cluster s.g.cluster).ops ++ [op] ∧
        op.kind = .mma o.minor o.slot o.a o.b o.zd ∧ op.dep = dep ∧ op.row = row ∧ op.col = col ∧ op.pc = mop ∧ op.gid = s.cur.gid ∧
        (t.grp s.cur.gid).tl = s.g.tl + 1 ∧ (t.grp s.cur.gid).sregs = s.g.sregs ∧ MemoryKept s t)

/-- The queue registers: QPSH and QPSHV append their values, lanes in order, held by the agent's operations at the array, once the group's earlier stores are performed (10 R183); QPOP takes the oldest
takeable entry, QTRY says whether there was one; QCNT counts the takeable entries; FSLOT reads a word of a format slot (02 R36; 07 R137; 08 R156,
R157). -/
def Obligations.QueueInstructions : Prop :=
  ∀ (s : State) (e : Bool),
    (∀ b a, Ready s avHomeSeq [sref b, qref a] → Drained s → (s.tm.queue a.toNat).length < 32 →
      Goes (.qpsh b a e) s ((s.raceTick s.cur.gid s.batch.length).modT fun t => t.setQueue a.toNat (t.queue a.toNat ++
        [{ val := s.g.sreg b.toNat, by_ := s.cur.gid, held := s.pushHeld.1, exempt := s.pushHeld.2 }]))) ∧
    (∀ b a, Ready s avHome [vsrc b, qref a] → Drained s → s.batch.length ≤ 32 → (s.tm.queue a.toNat).length + s.batch.length ≤ 32 →
      Goes (.qpshv b a e) s ((s.raceTick s.cur.gid s.batch.length).modT fun t => t.setQueue a.toNat (t.queue a.toNat ++ s.batch.map fun l =>
        { val := s.g.vval l (s.g.phys l b), by_ := s.cur.gid, held := s.pushHeld.1, exempt := s.pushHeld.2 }))) ∧
    (∀ b a n rest x, s.g.kind = .core → Ready s avHomeSeq [qref b, sref a] → s.g.ld < 63 → takeable (s.tm.queue b.toNat) = n :: rest →
      (s.tm.queue b.toNat)[n]? = some x →
      ∃ t r, exec (.qpop b a e) s = .next t ∧ (t.team s.g.tid).queue b.toNat = (s.tm.queue b.toNat).eraseIdx n ∧
        (t.grp s.cur.gid).returns = s.g.returns ++ [r] ∧ r.ctr = some .ld ∧ r.regs = [{ cls := 1, idx := a.toNat }] ∧
        r.lanes.map (fun y => (y.ready, y.ws)) = [(true, [.s a.toNat x.val])] ∧ (t.grp s.cur.gid).ld = s.g.ld + 1 ∧ MemoryKept s t) ∧
    (∀ b a n rest x, s.g.kind = .sequencer → Ready s avHomeSeq [qref b, sref a] → s.g.ld < 63 → takeable (s.tm.queue b.toNat) = n :: rest →
      (s.tm.queue b.toNat)[n]? = some x →
      ∃ t, exec (.qpop b a e) s = .next t ∧ (t.team s.g.tid).queue b.toNat = (s.tm.queue b.toNat).eraseIdx n ∧
        (∀ k, (t.grp s.cur.gid).sreg k = if k = a.toNat then x.val else s.g.sreg k) ∧ MemoryKept s t) ∧
    (∀ c b a n rest x, s.g.kind = .core → Ready s avHomeSeq [qref b, sref a, pref c.toNat] → s.g.ld < 63 →
      takeable (s.tm.queue b.toNat) = n :: rest → (s.tm.queue b.toNat)[n]? = some x →
      ∃ t, exec (.qtry c b a e) s = .next t ∧ (t.team s.g.tid).queue b.toNat = (s.tm.queue b.toNat).eraseIdx n ∧
        (∀ l ∈ s.batch, (t.grp s.cur.gid).pbit l c.toNat = true) ∧ (t.grp s.cur.gid).ld = s.g.ld + 1 ∧ MemoryKept s t) ∧
    (∀ c b a, Ready s avHomeSeq [qref b, sref a, pref c.toNat] → s.g.ld < 63 → takeable (s.tm.queue b.toNat) = [] →
      ∃ t, exec (.qtry c b a e) s = .next t ∧ PredDone s t c.toNat fun _ => (false, 0)) ∧
    (∀ b a, Ready s avHomeSeq [qref b, sref a] →
      ∃ t, exec (.qcnt b a e) s = .next t ∧ ScalarDone s t a [w32 (takeable (s.tm.queue b.toNat)).length]) ∧
    (∀ k w a, Ready s avHomeSeq [sref a] → s.checkSlot k.toNat (fun _ => true) = .ok () →
      ∃ t, exec (.fslot k w a e) s = .next t ∧ ScalarDone s t a [w32 (fieldAt (s.slotBytes k.toNat) (4 * w.toNat) 4)])

/-- QNT whose elements all have codes packs them and gathers their flags; one whose outlier list has no room saturates the outliers and raises
OUTFULL; one of a core whose list has room issues, its add to the list's index standing in its store queue and one store counted in ST; DQNT gives each
element's value (05 R98 to R101; 06 R125; 20 R369). The sign of the code of an exact zero quotient is the model's choice (log 114), as is that of a zero
from q − z (log 26). -/
def Obligations.QuantResults : Prop :=
  ∀ (s : State) (k : Fld3) (z v d : Reg) (e : Bool), Housed s → s.batch ≠ [] → s.checkSlot k.toNat takesQ = .ok () →
    let f := s.slotFmt k
    let b := s.slotBytes k.toNat
    (∀ n : BitVec 4, s.g.st < 63 → Ready s avVec [vsrc v f.elems, vsrc z, { cls := 1, field := n.toNat }, vdst d] → s.qntGranted b = .ok () →
      let q := s.quantBatch f b (s.g.sreg n.toNat) z v
      (q.outs = [] → ∃ t, exec (.qnt n k z v d e) s = .next t ∧
        VecDone s t d fun l => ([packCodes f ((q.rows.find? fun r => r.1 == l).getD (0, 0, [])).2.2], q.flags)) ∧
      (q.outs ≠ [] → slotCap b = 0 → ∃ t, exec (.qnt n k z v d e) s = .next t ∧
        VecDone s t d fun l => ([packCodes f (((q.outs.foldl (fun rows o =>
          setCode rows o.1 o.2.1 (satCode f b s.md.daz (w32 ((rows.find? fun r => r.1 == o.1).getD (0, 0, [])).2.1) o.2.2.1)) q.rows).find?
            fun r => r.1 == l).getD (0, 0, [])).2.2], q.flags ||| 32)) ∧
      (∀ o os x, q.outs = o :: os → slotCap b ≠ 0 → s.g.kind = .core → s.locate o.1 (slotOindex b) 4 .write = .ok x → s.qntPlace b q.outs o.1 x = .ok () →
        ∃ t r w p, exec (.qnt n k z v d e) s = .next t ∧ (t.grp s.cur.gid).returns = s.g.returns ++ [r, w] ∧ r.kind = .qnt ∧
          r.regs = s.destRegs d 1 ∧ r.qnt = some { slot := b, rows := q.rows, outs := q.outs, flags := q.flags } ∧
          w.ctr = some .st ∧ w.left = 1 ∧ (t.grp s.cur.gid).st = s.g.st + 1 ∧ (t.grp s.cur.gid).stores = s.g.stores ++ [p] ∧ p.ret = r.id ∧
          p.tgt = x.tgt ∧ p.act = .index q.outs.length ∧ (t.grp s.cur.gid).v = s.g.v ∧ (t.grp s.cur.gid).fpflags = s.g.fpflags ∧ MemoryKept s t)) ∧
    (Ready s avVec ([vsrc v, vsrc z] ++ [vdst d f.elems]) →
      ∃ t, exec (.dqnt k z v d e) s = .next t ∧
        VecDone s t d fun l =>
          let rs := (List.range f.elems).map fun j =>
            dequantOne f b s.md (s.g.vval l (s.g.phys l z)) (codeAt f (s.g.vval l (s.g.phys l v)) j)
          (rs.map fun r => w32 r.1, rs.foldl (fun m r => m ||| r.2) 0))

/-! ### The array's own steps -/

/-- The array takes operations and performs them by sum units: MATRIX_OP_ACCEPT begins the next operation, MATRIX_SUM_UNIT adds one unit's terms to
each element and counts it, BIN_ZEROING zeroes released bins, QUEUE_ENTRY_TAKEABLE frees entries of completed operations, and a stop's trap is
taken at the next boundary (07 R133, R137, R145 to R147, R150; 08 R155, R159). The order in which the array serves its agents (log 25), a sum unit's
dropped terms and the signs of its zeros (logs 24 and 26), the event that frees held entries (log 92), and which fibres of a diverged group take POISON
(log 120) are the model's choices. -/
def Obligations.ArrayEvents : Prop :=
  ∀ (s : State) (cl gid : Nat), cl < 128 →
    (∀ o minor slot a b zd, (s.cluster cl).running = none → s.nextOp cl = some o → o.kind = .mma minor slot a b zd → minorZ minor = false →
      ∃ t, exec (.matrixOpAccept cl) s = .next t ∧
        OnlyCluster s t cl { s.cluster cl with ops := (s.cluster cl).ops.filter fun q => q.id != o.id, lastServed := o.gid, running := some o }) ∧
    (∀ o k, (s.cluster cl).running = some o → o.kind.mma? = some k →
      let tid := (s.grp o.gid).tid
      let slot := sliceAt (s.grid (s.team tid).grid).slots (64 * k.slot) 64
      let m := mshape slot
      let c := s.cluster cl
      (s.team tid).zStops k o.dep o.row o.col = [] →
      c.stopsAt m k o.dep o.row o.col ((s.grp o.gid).kind == .sequencer) = [] → o.dep + 1 < m.units →
      ∃ t, exec (.matrixSumUnit cl) s = .next t ∧ (t.cluster cl) = { c with running := some { o with dep := o.dep + 1, row := 0, col := 0 } } ∧
        tget 0 (t.team tid).zSteps k.zd = tget 0 (s.team tid).zSteps k.zd + 1 ∧
        (∀ i j, i < 128 → j < 128 → ((t.team tid).zrow k.zd i).getD j 0 =
          let old := ((s.team tid).zrow k.zd i).getD j 0
          if 128 * o.row + o.col ≤ 128 * i + j then
            c.unitStep slot m k.minor k.a k.b i j o.dep (c.rowTerms m k.minor k.a i o.dep) (if minorZ k.minor && o.dep = 0 then 0 else old)
          else old) ∧
        (∀ z i, z ≠ k.zd → i < 128 → (t.team tid).zrow z i = (s.team tid).zrow z i) ∧ t.groups = s.groups ∧ MemoryKept s t) ∧
    (∀ o f k, (s.cluster cl).running = none → s.nextOp cl = some o → o.kind = .release f k → (s.cluster cl).bins.wf = true →
      ∃ t, exec (.binZeroing cl) s = .next t ∧
        (∀ a, mread (t.cluster cl).bins a = if 32768 * f ≤ a ∧ a < 32768 * (f + k) then 0 else mread (s.cluster cl).bins a) ∧
        (t.cluster cl).ops = (s.cluster cl).ops.filter (fun q => q.id != o.id) ∧ t.grp o.gid = (s.grp o.gid).oneDone o.ret ∧
        (∀ j, j ≠ o.gid → t.grp j = s.grp j) ∧ t.teams = s.teams) ∧
    (∀ tid q, thas s.teams tid = true → (∀ x ∈ s.groups, x.2.tid = tid → s.agentOps x.1 = []) → (s.team tid).savedRun = none →
      (s.team tid).savedOps = [] →
      ∃ t, exec (.queueEntryTakeable tid q) s = .next t ∧ (t.team tid).queue q = ((s.team tid).queue q).map (fun x => { x with held := [] }) ∧
        (∀ k, k ≠ q → (t.team tid).queue k = (s.team tid).queue k) ∧ t.groups = s.groups ∧ MemoryKept s t) ∧
    (∀ detail addr, (s.grp gid).kind = .sequencer → (s.grp gid).guest = none → (s.grp gid).call = none → (s.grp gid).seq.inHandler = false →
      (s.grp gid).handler = 0 → (s.grp gid).seq.stvec ≠ 0 → s.cur.gid ≠ gid → s.stopped gid = false → (s.team (s.grp gid).tid).phase = .resident →
      (s.grp gid).liveLanes = [0] →
      (s.grp gid).seq.due = some (tMMETA, detail, addr) →
      ∃ t, exec (.sequencerStopTrap gid) s = .next t ∧ (t.grp gid).seq.due = none ∧ (t.grp gid).seq.inHandler = true ∧
        ((t.grp gid).fib 0).pc = (s.grp gid).seq.stvec ∧ (t.grp gid).seq.stpc = ((s.grp gid).fib 0).pc ∧
        (t.grp gid).seq.stdetail = BitVec.ofNat 64 detail ∧ (t.grp gid).seq.staddr = BitVec.ofNat 64 addr ∧
        (t.grp gid).seq.stcode.toNat % 256 = 0xC ∧ (t.grp gid).seq.stopped = (s.grp gid).seq.stopped ∧ MemoryKept s t) ∧
    (∀ detail addr, (s.grp gid).kind = .core → (s.grp gid).guest = none → (s.grp gid).call = none → (s.grp gid).handler = 0 →
      s.cur.gid ≠ gid → s.stopped gid = false → (s.team (s.grp gid).tid).phase = .resident → (s.nextBatch gid).1 ≠ 0 → (s.grp gid).poisonDue = some (detail, addr) →
      ∃ t i, exec (.matrixPoisonTrap gid) s = .next t ∧ (t.grp gid).poisonDue = none ∧
        (t.grp gid).hold = some (.trap { code := 0xB, detail := detail, addr := addr } i false) ∧ i.mask = (s.nextBatch gid).1 ∧
        i.pc = (s.nextBatch gid).2 ∧ (∀ l, (t.grp gid).fib l = (s.grp gid).fib l) ∧ (t.grp gid).v = (s.grp gid).v)

/-! ### Order -/

/-- FENCE completes once the group's earlier stores are performed: a release beyond the core writes every dirty byte of the L1 home, and at
SYSTEM scope drains the write-combining buffer and waits for the core's writes to other modules; an acquire leaves no clean byte in the L1; while one is left to do the batch waits at the
fence; within the core nothing is left to do (10 R181 to R184; 11 R222). That a release waits for every answer its core awaits is the model's choice
(log 45). -/
def Obligations.FencesComplete : Prop :=
  ∀ (s : State) (k : Scope) (a : MOrder) (e : Bool), RunsHere s avCore →
    let n := s.batch.length
    let u := if a.rel then s.releaseCore s.g.place k else s
    let w := if a.acq then u.l1Acquire s.g.place else u
    let left := a.rel && u.l1Dirty s.g.place fun _ _ => true
    let asked := a.rel && k == .system && u.coreWaits s.g.place
    (k.beyond = false → Goes (.fence k a e) s (s.raceTick s.cur.gid n)) ∧
    (k.beyond = true → Drained s → left = false → asked = false →
      ∃ t, exec (.fence k a e) s = .next t ∧ MovedOn (w.raceTick s.cur.gid n) t (fun _ => s.cur.npc) ∧
        (a.rel = true → ∀ b ∈ (t.core s.g.place).l1, b.2.dirty = false) ∧ (a.acq = true → ∀ b ∈ (t.core s.g.place).l1, b.2.dirty = true)) ∧
    (k.beyond = true → Drained s → (left = true ∨ asked = true) → thas s.groups s.cur.gid = true →
      ∃ t, exec (.fence k a e) s = .next t ∧ BatchAt s t (fun l => (s.g.fib l).pc) (.fence k))

/-- DRAINWC, FLUSHR and INVR once the group's earlier stores are performed: an entry of the write-combining buffer leaves as one WRITE counted in ST;
FLUSHR writes back every masked byte of the L1 lines that the range meets and INVR drops those lines too, and neither changes anything else; what waits
to be written back holds the operation in the group's queue; one line's masked bytes stand at their home after, and no other byte changes. SYSW of
LMAPn.A maps a window that has passed its checks at the address its pool entry gives (09 R164, R166, R172; 11 R227, R230). Which L1 lines belong to a
range (log 44), and that a window keeps the address its pool entry gave as it was mapped (log 54), are the model's choices. -/
def Obligations.DrainsComplete : Prop :=
  ∀ (s : State) (e : Bool), Drained s →
    let fresh := ∀ r ∈ s.g.returns, r.id ≠ s.nextId
    let bump (u : State) : State := { u with nextId := u.nextId + 1 }
    let core := s.g.place
    (RunsHere s avHome → s.g.st < 63 → fresh → (s.core core).wc = [] → Goes (.drainwc e) s (bump s)) ∧
    (∀ w, RunsHere s avHome → s.g.st < 63 → fresh → (s.core core).wc = [w] →
      ∃ t r q, exec (.drainwc e) s = .next t ∧ (t.core core).wc = [] ∧ t.reqs = s.reqs ++ [q] ∧ q.use = .drain r.id ∧ q.pkt.kind = 2 ∧
        q.pkt.va = BitVec.ofNat 64 (256 * w.line) ∧ q.pkt.payload = writePayload w.cells ∧ (t.grp s.cur.gid).returns = s.g.returns ++ [r] ∧
        r.left = 1 ∧ r.ctr = some .st ∧ (t.grp s.cur.gid).st = s.g.st + 1 ∧ MemoryKept s t) ∧
    (∀ b a, Ready s avHome [sref a 2, sref b] →
      let base := (s.g.spair a.toNat).toNat
      let len := (s.g.sreg b.toNat).toNat
      let lines := (s.core core).l1Lines.filter (s.rangeLine core s.g.ctx base len)
      let mine := fun (p : Nat) (_ : L1Byte) => lines.contains (p / 256)
      let u := s.l1Back core mine
      (len = 0 → Goes (.flushr b a e) s s ∧ Goes (.invr b a e) s s) ∧
      (len ≠ 0 → s.g.st < 63 → fresh → (∀ m, (tget {} s.tm.lmap m).dirty = []) → (s.core core).wc = [] →
        (u.l1Dirty core mine = false →
          Goes (.flushr b a e) s (bump u) ∧ Goes (.invr b a e) s (bump (u.l1Drop core mine)) ∧ (∀ x ∈ (u.core core).l1, mine x.1 x.2 = true → x.2.dirty = false) ∧
          ∀ x ∈ ((u.l1Drop core mine).core core).l1, mine x.1 x.2 = false) ∧
        (u.l1Dirty core mine = true → ∀ inv, ∃ t o, exec (if inv then .invr b a e else .flushr b a e) s = .next t ∧
          (t.grp s.cur.gid).stores = [o] ∧ o.act = .flushr base len inv ∧ (t.grp s.cur.gid).st = s.g.st + 1 ∧ t.cur = {}))) ∧
    (∀ line p, MemoryCanonical s → ((s.core core).l1.map (·.1)).Nodup →
      (∀ x ∈ (s.core core).l1, x.1 / 256 = line → x.2.dirty = true → p x.1 x.2 = true → s.l1Fate core false x.1 x.2 = .goes) →
      ∀ q, (s.l1BackLine core p line).homeByte q =
        match (s.core core).l1.find? fun x => x.1 == q && x.1 / 256 == line && x.2.dirty && p x.1 x.2 with
        | some x => x.2.val
        | none => s.homeByte q) ∧
    (∀ (m : BitVec 2) a base, Ready s (sysAvail (0x30 + 2 * m.toNat) false) [sref a] → (tget {} s.tm.lmap m.toNat).dirty = [] →
      let w : LWindow := { a := s.g.sreg a.toNat &&& 0x803FFFFF, b := (tget {} s.tm.lmap m.toNat).b }
      (if w.len = 0 then base = 0 else (s.modT fun t => t.unmap m.toNat).checkWindow m.toNat w = .ok base) →
      Goes (.lmapWrite m a e) s (s.modT fun t => { t with lmap := tput t.lmap m.toNat { w with base := base } }))

/-- WATCH, UNWATCH and WAITW, and what completes them: a subscribed slot starts with the word's value and no overrun; PUSH_APPLY writes a newer
value, its count and the writes it passed over; a removal ends once its last push is applied (10 R190 to R193; 11 R223 to R226). -/
def Obligations.Watches : Prop :=
  ∀ (s : State) (b c : Reg) (e : Bool), s.g.ld < 63 →
    let slot (l : Nat) := (s.g.vval l (s.g.phys l b)).toNat
    let xs := s.batch.map fun l => (l, slot l)
    (∀ a as, Ready s avHome [vsrc b, vsrc c 2, pref a.toNat] → Drained s → (∀ l ∈ s.batch, slot l % 16 = 0) →
      (∀ l ∈ s.batch, (s.g.vpair l (s.g.phys l c)).toNat % 8 = 0) → s.checkSlots xs true = .ok () → s.checkFreeSlots xs = .ok () →
      s.locateAll (s.batch.map fun l => (l, (s.g.vpair l (s.g.phys l c)).toNat)) 8 .read = .ok as → (∀ r ∈ s.g.returns, r.id ≠ s.nextId) →
      (∃ t r, exec (.watch c b a e) s = .next t ∧ (t.grp s.cur.gid).returns = s.g.returns ++ [r] ∧ r.ctr = some .ld ∧
        r.regs = [{ cls := 5, idx := a.toNat }] ∧ r.lanes.map (·.lane) = s.batch ∧ (t.grp s.cur.gid).ld = s.g.ld + 1) ∧
      (∀ l x pa pol, s.batch = [l] → as = [x] → x.tgt = .dev pa pol → s.cutTo s.g.die x.tgt = false → pteBit x.pte 10 = false → s.pegRoom pa = true → s.coreSubs s.g.place < 512 →
        s.tm.larder.wf = true →
        ∃ t r y, exec (.watch c b a e) s = .next t ∧ (t.grp s.cur.gid).returns = s.g.returns ++ [r] ∧ r.lanes = [y] ∧ y.ready = true ∧
          y.ws = [.p l a.toNat true] ∧ mreads (t.team s.g.tid).larder (slot l) 16 = s.homeRead pa 8 ++ List.replicate 8 0 ∧
          t.pegs = s.pegs ++ [{ pa := pa, tid := s.g.tid, slot := slot l, ctx := s.g.ctx }] ∧
          (∃ u, (t.team s.g.tid).sub? (slot l) = some u ∧ u.seen = true ∧ u.live = true ∧ u.remote = false))) ∧
    (Ready s avHome [vsrc b] → (∀ l ∈ s.batch, slot l % 16 = 0) → s.checkSlots xs true = .ok () → (∀ r ∈ s.g.returns, r.id ≠ s.nextId) →
      s.batch ≠ [] →
      ((∀ l ∈ s.batch, s.tm.sub? (slot l) = none) → Goes (.unwatch b e) s { s with nextId := s.nextId + 1 }) ∧
      (∀ l u, s.batch = [l] → s.tm.sub? (slot l) = some u → u.live = true → u.remote = false → u.ending = [] →
        ∃ t r, exec (.unwatch b e) s = .next t ∧ (t.grp s.cur.gid).returns = s.g.returns ++ [r] ∧ r.left = 1 ∧ r.ctr = some .ld ∧
          t.pegs = s.pegs.filter (fun p => !(!p.remote && p.tid == s.g.tid && p.slot == slot l)) ∧
          (∃ w, (t.team s.g.tid).sub? (slot l) = some w ∧ w.ending = [(s.cur.gid, r.id)]))) ∧
    (∀ a, Ready s avHome [vsrc b, vsrc c, vdst a 4] → Unmapped s → (∀ l ∈ s.batch, slot l % 16 = 0) → s.checkSlots xs false = .ok () →
      ∃ t r, exec (.waitw c b a e) s = .next t ∧ Begun s t .ld r [] ∧ r.kind = .waitw ∧ r.regs = s.destRegs a 4 ∧
        r.lanes.map (fun y => (y.lane, y.slot, y.lastSeq, y.ready)) = s.batch.map fun l => (l, slot l, (s.g.vval l (s.g.phys l c)).toNat, false)) ∧
    (∀ i p u, s.pushes[i]? = some p → p.remote = false → s.pushCut p = false → thas s.teams p.tid = true → (s.team p.tid).phase = .resident →
      (s.team p.tid).sub? p.slot = some u → (s.team p.tid).larder.wf = true →
      let t0 := s.team p.tid
      let ovr := leNat (t0.lread (p.slot + 12) 4)
      let d := (p.q + 2 ^ 32 - leNat (t0.lread (p.slot + 8) 4)) % 2 ^ 32
      ∃ t, exec (.pushApply i) s = .next t ∧ t.pushes = s.pushes.eraseIdx i ∧
        ((t.team p.tid).lread p.slot 16 = if d = 0 ∨ 2 ^ 31 ≤ d then t0.lread p.slot 16
          else leBytes 8 p.val ++ leBytes 4 p.q ++ leBytes 4 (ovr + d + 2 ^ 32 - b2n u.seen)) ∧
        (∀ a, (a < p.slot ∨ p.slot + 16 ≤ a) → mread (t.team p.tid).larder a = mread t0.larder a) ∧
        (∀ k, k ≠ p.tid → t.team k = s.team k) ∧ t.groups = s.groups) ∧
    (∀ gid ret, (s.teams.map (·.1)).Nodup → (∀ x ∈ s.teams, (x.2.subs.map (·.slot)).Nodup) →
      ∃ t, exec (.unwatchComplete gid ret) s = .next t ∧ t.pegs = s.pegs ∧ MemoryKept s t ∧
        ∀ tid, (t.team tid).subs = (s.team tid).subs.filter fun u => !(u.ending.contains (gid, ret) && s.subOver tid u))

/-! ### The fabric -/

/-- MCST with no key or node counts every member as unreachable; with a live port it sends one MCAST, counted in ST until its MACK (11 R228, R229;
12 R241, R250, R251; 21 R370). -/
def Obligations.MulticastSends : Prop :=
  ∀ (s : State) (c b a : Reg) (e : Bool) (rcd : List Byte), Ready s avHome [sref a, sref b 2, sref c 2] → Drained s → Unmapped s → s.g.st < 63 →
    preOrder s.cur.pre = .plain → s.routeHeld = false → (∀ r ∈ s.g.returns, r.id ≠ s.nextId) → s.tm.larder.wf = true →
    let h := (s.g.sreg a.toNat).toNat
    let va := (s.g.spair b.toNat).toNat
    let src := (s.g.sreg c.toNat).toNat
    let ack := (s.g.sreg (c.toNat + 1)).toNat
    h < 65536 → s.groupRecord s.g.ctx h = some rcd → va % 256 = 0 → src % 256 = 0 → ack % 32 = 0 → src + 256 ≤ s.tm.larderSize →
    ack + 32 ≤ s.tm.larderSize → s.tm.lbad src 256 = false →
    let ms := groupMembers rcd
    (s.nodeid = 0x7FFFF ∨ (s.ctx s.g.ctx).skey = 0 →
      ∃ t, exec (.mcst c b a e) s = .next t ∧ (t.team s.g.tid).lread ack 32 = ackBytes (ms.map fun m => (m, 7)) ∧
        (∀ x, (x < ack ∨ ack + 32 ≤ x) → mread (t.team s.g.tid).larder x = mread s.tm.larder x) ∧ (t.grp s.cur.gid).st = s.g.st ∧
        (t.grp s.cur.gid).returns = s.g.returns ∧ t.wire = s.wire ∧ t.reqs = s.reqs) ∧
    (∀ port, s.nodeid ≠ 0x7FFFF → (s.ctx s.g.ctx).skey ≠ 0 → s.mcastPort s.g.die h = some port → ms.contains s.nodeid.toNat = false →
      PortSends s port (mcastPayload (s.tm.lread src 256) rcd).length →
      ∃ t p q r, exec (.mcst c b a e) s = .next t ∧ t.wire = s.wire ++ [p] ∧ p.kind = 5 ∧ p.va.toNat = va ∧ p.aux.toNat = h ∧ p.port = port ∧
        p.ckey = (s.ctx s.g.ctx).skey ∧ p.payload = mcastPayload (s.tm.lread src 256) rcd ∧ t.reqs = s.reqs ++ [q] ∧ q.tag = p.tag ∧
        q.use = .mcst r.id ack ms none ∧ (t.grp s.cur.gid).returns = s.g.returns ++ [r] ∧ r.ctr = some .st ∧
        (t.grp s.cur.gid).st = s.g.st + 1 ∧ MemoryKept s t)

/-- Requests of another module that this one translates and permits are performed at their home and answered: READ with the bytes, WRITE and MCAST
with their bytes in place, ATOMIC and REDUCE with the words' new values, SUB with a registration; UNSUB ends one (12 R247, R251 to R253, R255). The layout
of the operands, the width in AUX and the codes of OP are the model's choice (log 14). -/
def Obligations.RequestsServed : Prop :=
  ∀ (s : State) (p : Packet) (c pa pol pte : Nat), Arrives s p →
    (let off := p.va.toNat % 256
     let n := min p.aux.toNat (256 - off)
     s.servePlace { p with kind := 1 } off n (spanOf off n) .read s.now = .ok (c, .dev pa pol, pte) → s.homePoison pa n = false → PortSends s p.port n →
     ∃ t, exec (.read p) s = .next t ∧ t.wire = s.wire ++ [answerOf s p 0 0 (s.homeRead pa n)] ∧ MemoryKept s t ∧ t.groups = s.groups) ∧
    (let ws := maskedBytes p.payload
     let lo := ((ws.map (·.1)).head?).getD 0
     let n := ((ws.map (·.1)).getLast?).getD 0 + 1 - lo
     s.servePlace { p with kind := 2 } lo n (ws.map (·.1)) .write s.now = .ok (c, .dev pa pol, pte) → lo ≤ pa → pol ≤ 2 → MemoryCanonical s → PortSends s p.port 0 →
     partPoison s.poison (ws.map fun w => (pa + w.1 - lo, w.2)) = false →
     ∃ t, exec (.write p) s = .next t ∧ Sent s t (answerOf s p 0 0 []) ∧
       (∀ i, i < 256 → bitOf (leNat (p.payload.take 32)) i = true → t.homeByte (pa + i - lo) = (p.payload.drop (32 + i)).headD 0) ∧
       (∀ a, (∀ i, i < 256 → bitOf (leNat (p.payload.take 32)) i = true → a ≠ pa + i - lo) → t.homeByte a = s.homeByte a)) ∧
    (∀ op, let n := if p.aux = 8 then 8 else 4
     s.servePlace { p with kind := 3 } (p.va.toNat % 256) n (spanOf (p.va.toNat % 256) n) .write s.now = .ok (c, .dev pa pol, pte) → atomOfCode p.op = some op →
     s.homePoison pa n = false → pol ≤ 2 → MemoryCanonical s → PortSends s p.port n →
     ∃ t, exec (.atomic p) s = .next t ∧ Sent s t (answerOf s p 0 0 (if bitOf p.flags 1 then [] else leBytes n (s.homeField pa n))) ∧
       t.homeField pa n = ((atomNew op (8 * n) (s.homeField pa n) (fieldAt p.payload 0 n) (fieldAt p.payload n n)).getD (s.homeField pa n)) % 2 ^ (8 * n) ∧
       ∀ a, (a < pa ∨ pa + n ≤ a) → t.homeByte a = s.homeByte a) ∧
    (∀ op, let n := if p.aux = 8 then 8 else 4
     let at_ := pa / 256 * 256 + fieldAt p.payload 0 1
     s.servePlace { p with kind := 4 } (fieldAt p.payload 0 1) n (spanOf (fieldAt p.payload 0 1) n) .write s.now = .ok (c, .dev pa pol, pte) → atomOfCode p.op = some op →
     p.payload.length = 1 + 2 * n → s.homePoison at_ n = false → pol ≤ 2 → MemoryCanonical s → PortSends s p.port n →
     ∃ t, exec (.reduce p) s = .next t ∧ Sent s t (answerOf s p 0 0 (if bitOf p.flags 1 then [] else leBytes n (s.homeField at_ n))) ∧
       t.homeField at_ n =
         ((atomNew op (8 * n) (s.homeField at_ n) (fieldAt p.payload 1 n) (fieldAt p.payload (1 + n) n)).getD (s.homeField at_ n)) % 2 ^ (8 * n) ∧
       ∀ a, (a < at_ ∨ at_ + n ≤ a) → t.homeByte a = s.homeByte a) ∧
    (s.servePlace { p with kind := 5, payload := leBytes 32 (2 ^ 256 - 1) ++ p.payload.take 256 } 0 256 (List.range 256) .write s.now = .ok (c, .dev pa pol, pte) →
     256 ≤ p.payload.length → partPoison s.poison ((List.range 256).map fun i => (pa + i, p.payload.getD i 0)) = false → pol ≤ 2 →
     MemoryCanonical s → PortSends s p.port 0 →
     ∃ t, exec (.mcast p) s = .next t ∧ Sent s t (answerOf s p 0 0 []) ∧ (∀ i, i < 256 → t.homeByte (pa + i) = p.payload.getD i 0) ∧
       ∀ a, (a < pa ∨ pa + 256 ≤ a) → t.homeByte a = s.homeByte a) ∧
    (s.servePlace { p with kind := 6 } (p.va.toNat % 256) 8 (spanOf (p.va.toNat % 256) 8) .read s.now = .ok (c, .dev pa pol, pte) → pteBit pte 10 = false → s.pegRoom pa = true →
     PortSends s p.port 8 →
     ∃ t g, exec (.sub p) s = .next t ∧ t.wire = s.wire ++ [answerOf s p 0 1 (s.homeRead pa 8)] ∧ t.pegs = s.pegs ++ [g] ∧ g.pa = pa ∧ g.count = 0 ∧
       g.remote = true ∧ g.node = p.src % 2 ^ 19 ∧ g.va = p.va.toNat ∧ g.tag = p.aux.toNat % 65536 ∧ g.ctx = c ∧ MemoryKept s t) ∧
    (∀ tgt, s.servePlace { p with kind := 7 } (p.va.toNat % 256) 8 (spanOf (p.va.toNat % 256) 8) .read s.now = .ok (c, tgt, pte) → PortSends s p.port 0 →
     ∃ t, exec (.unsub p) s = .next t ∧ Sent s t (answerOf s p 0 0 []) ∧ MemoryKept s t ∧
       t.pegs = s.pegs.filter fun g => !(g.remote && g.ctx == c && g.node == p.src % 2 ^ 19 && g.va == p.va.toNat && g.tag == p.aux.toNat % 65536))

/-- What comes back, once the link from its gateway is up: PUSH writes its slot, PUSHEND says which write was the last before a removal, RESP ends its request and gives a load its bytes,
MACK writes the acknowledgement, CRATE brings fibres; a reserved kind leaves a record at the port's die and is answered RANGE; a request unanswered
for FTMO ends as unreachable, one refused as not there is sent again after 4 µs; a stalled request is tried again (10 R191; 12 R243, R249, R251 to
R254; 16 R315). The layouts of MACK and PUSH (log 14), the causes that stand against a crate as it arrives (log 68), what an unanswered drain and a retry end
as (log 78), what a MACK says of members that have not answered (log 128), and the record's fields for a reserved kind (log 132) are the model's choices. -/
def Obligations.AnswersArrive : Prop :=
  ∀ (s : State) (p : Packet) (c : Nat), Arrives s p →
    (∀ tid u, s.keyCtx p.ckey = some c → s.pushed c p = some (tid, u) → s.cut (dieOfCore (s.team tid).core) (dieOfPort p.port) = false → u.live = true →
      exec (.push p) s = .next (s.pushSlot tid u.slot (p.aux.toNat / 2 ^ 32) (fieldAt p.payload 0 8))) ∧
    (∀ tid u, s.keyCtx p.ckey = some c → s.pushed c p = some (tid, u) → s.cut (dieOfCore (s.team tid).core) (dieOfPort p.port) = false →
      ∃ t, exec (.pushend p) s = .next t ∧ (∀ w ∈ (t.team tid).subs, w.slot = u.slot → w.last = some (p.aux.toNat / 2 ^ 32)) ∧
        (∀ k, k ≠ tid → t.team k = s.team k) ∧ { t with teams := s.teams } = s) ∧
    (∀ r ret lane z q x, s.reqs = [r] → r.tag = p.tag → r.hold = .sent → r.gid ≠ 0 → thas s.groups r.gid = true → p.op = 0 → bitOf p.flags 2 = false →
      s.cut r.die (dieOfPort p.port) = false → r.use = .load ret [lane] z none → (s.grp r.gid).ret? ret = some q → preOrder q.issue.pre = .plain →
      q.neg = [] → q.lanes = [x] → x.lane = lane → (∀ o ∈ (s.grp r.gid).stores, o.ret ≠ ret) →
      ∃ t w y, exec (.resp p) s = .next t ∧ t.reqs = [] ∧ (t.grp r.gid).ret? ret = some w ∧ w.stall = false ∧ w.lanes = [y] ∧ y.lane = lane ∧ y.ready = true ∧
        y.ws = vWrites lane x.dst false (loadWords z (laid x.fwd (padTo (sizeBytes z) (sliceAt p.payload 0 (sizeBytes z))))) ∧ MemoryKept s t) ∧
    (∀ r ret ack ms, s.reqs = [r] → r.tag = p.tag → r.hold = .sent → r.use = .mcst ret ack ms none → (mackNeg p.payload).any (fun x => x.2 == 6) = false →
      s.cut r.die (dieOfPort p.port) = false →
      (ms.length ≤ fieldAt p.payload 0 4 + fieldAt p.payload 4 4 → (s.team (s.grp r.gid).tid).larder.wf = true →
        (∀ line, (s.team (s.grp r.gid).tid).window line = none) →
        ∃ t, exec (.mack p) s = .next t ∧ t.reqs = [] ∧ (t.team (s.grp r.gid).tid).lread ack 32 = mackBytes ms none p.payload ∧
          t.grp r.gid = (s.grp r.gid).oneDone ret) ∧
      (fieldAt p.payload 0 4 + fieldAt p.payload 4 4 < ms.length →
        exec (.mack p) s = .next { s with reqs := [{ r with got := p.payload }] })) ∧
    (∀ k, s.crateIn { p with kind := 10 } s.now = .ok k →
      exec (.crate p) s = .next { s with crates := s.crates ++ [k], nextId := s.nextId + 1 } ∧ k.bytes = p.payload ∧ s.keyCtx p.ckey = some k.ctx) ∧
    (∀ op, s.crateIn { p with kind := 10 } s.now = .error (some (op, false)) → PortSends s p.port 0 →
      ∃ t, exec (.crate p) s = .next t ∧ t.wire = s.wire ++ [answerOf s p op 0 []] ∧ t.crates = s.crates ∧ t.groups = s.groups ∧ MemoryKept s t) ∧
    ((s.die (p.port / 4)).fbFull = false → s.fbCut (p.port / 4) = false → MemoryCanonical s → p.tagged = true → PortSends s p.port 0 →
      ∃ t, exec (.reservedFraricKind p) s = .next t ∧ Sent s t (answerOf s p 6 0 []) ∧
        (t.die (p.port / 4)).widx = ((s.die (p.port / 4)).widx + 1) % 65536 ∧
        t.homeRead ((s.die (p.port / 4)).fbRing + 32 * ((s.die (p.port / 4)).widx % 4096)) 32 =
          faultBytes 5 6 ((s.keyCtx p.ckey).getD 0) false (gatewayWho (p.port / 4)) 0 p.va.toNat 0) ∧
    (∀ r ret, s.reqs = [r] → r.hold = .sent → r.sentAt + r.ftmo * usTicks ≤ s.now → r.use = .drain ret → ret ≠ 0 → r.gid ≠ 0 → thas s.groups r.gid = true →
      ∃ t, exec (.ftmoTimeout r.tag) s = .next t ∧ t.reqs = [] ∧ t.grp r.gid = (s.grp r.gid).oneDone ret) ∧
    (∀ r, s.reqs = [r] → r.hold = .retry → r.sentAt + 4 * usTicks ≤ s.now → s.routeHeld = false → (∀ d, s.cut r.die d = false) →
      ∃ t q, exec (.remoteRetry r.tag) s = .next t ∧ t.reqs = [q] ∧ q.hold = .sent ∧ q.tag = r.tag ∧ q.use = r.use ∧ q.sentAt = s.now ∧
        q.pkt.payload = r.pkt.payload) ∧
    (∀ q (since : Option Nat) pa pol pte, p.kind = 1 →
      (let off := p.va.toNat % 256
       let n := min p.aux.toNat (256 - off)
       let u := { s with inbox := q :: [(p, since)] }
       q.1.flow ≠ p.flow → s.servePlace p off n (spanOf off n) .read (since.getD s.now) = .ok (c, .dev pa pol, pte) → s.homePoison pa n = false → PortSends s p.port n →
       ∃ t, exec (.walkMovingRecheck 1) u = .next t ∧ t.inbox = [q] ∧ t.wire = s.wire ++ [answerOf s p 0 0 (s.homeRead pa n)] ∧ MemoryKept s t))

/-! ### Copies -/

/-- CPY and CPYT post one packet a lane: the ring's WIDX rises by their number, each packet stands in its slot, and the open batch awaits them; its SLOT
follows as a release, at MODULE scope or, for a source on another module, at SYSTEM scope, at once where nothing is left to release. CPYM reserves a shelf
slot, SDRN waits at the shelf, both counted in CP (10 R187 to R189; 11 R232, R233, R235, R237, R238; 13 R257). How SLOT is ordered after the packet's
other words, and its scope, are the model's choice (log 117). -/
def Obligations.CopiesIssue : Prop :=
  ∀ (s : State) (c b a : Reg) (e : Bool), Drained s → s.g.cp < 63 → Unmapped s →
    let w := (s.g.sreg b.toNat).toNat
    let q := w % 256
    let sync := (s.g.sreg c.toNat).toNat
    let u := s.raceTick s.cur.gid s.batch.length
    let released := (∀ x ∈ (s.core s.g.place).l1, x.2.dirty = false) ∧ (s.core s.g.place).wc = [] ∧ s.coreWaits s.g.place = false
    (Ready s avHome [vsrc a 5, sref b, sref c] → w < 2 ^ 18 → s.checkCopyQueue q = .ok () → s.syncOk sync = true →
      let ss := bitsOf w 9 8
      let ds := bitsOf w 11 10
      let sd := bitsOf w 14 12
      let dd := bitsOf w 17 15
      let src (l : Nat) : CopyEnd := { space := ss, off := s.g.lane64 l a 0, die := sd }
      let dst (l : Nat) : CopyEnd := { space := ds, off := s.g.lane64 l a 2, die := dd }
      let pkt (l : Nat) := s.copyPacket l 0 (ss + 4 * ds + 16 * sd) dd 0 (syncField sync) (src l).off (dst l).off (s.g.lane32 l a 4) []
      ss ≠ 3 → ds ≠ 3 → (ss = 2 ∨ sd = 0) → (ds = 2 ∨ dd = 0) →
      (∀ l ∈ s.batch, s.g.lane32 l a 4 ≠ 0 ∧ (src l).aligned = true ∧ (dst l).aligned = true ∧ s.checkEnd (src l) (s.g.lane32 l a 4) false = .ok () ∧
        s.checkEnd (dst l) (s.g.lane32 l a 4) true = .ok ()) →
      (∀ v, u.postCopies q (s.batch.map pkt) = .ok v → Goes (.cpy c b a e) s v) ∧
      (∀ l hpa hpol spa spol, s.batch = [l] → s.ringWrite (s.queue q).ring 64 = .ok (.dev hpa hpol) → hpa + 64 ≤ spa → hpol ≤ 2 → spol ≤ 2 →
        MemoryCanonical s → released → s.cut s.g.die (dieOfPa (spa + 0x38)) = false → s.recalls (spa + 0x38) 8 = false →
        let widx := s.homeField hpa 8
        (widx + 2 ^ 64 - s.homeField (hpa + 8) 8) % 2 ^ 64 + 1 ≤ (s.queue q).entries →
        s.ringWrite ((s.queue q).ring + (s.queue q).slotOff widx) 64 = .ok (.dev spa spol) →
        ∃ t, exec (.cpy c b a e) s = .next t ∧ t.homeRead hpa 8 = leBytes 8 (widx + 1) ∧ t.homeRead spa 56 = padTo 56 (pkt l) ∧
          t.homeRead (spa + 0x38) 4 = leBytes 4 widx ∧ (t.grp s.cur.gid).copies = s.g.copies ++ [(q, widx, s.g.sealNext)] ∧
          ∀ x, (x < hpa ∨ hpa + 8 ≤ x) → (x < spa ∨ spa + 64 ≤ x) → t.homeByte x = s.homeByte x)) ∧
    (Ready s avHome [vsrc a 7, sref b, sref c 2] → w < 2 ^ 9 → sync < 65536 → s.checkCopyQueue q = .ok () →
      ∀ r v, s.shapeRecord s.g.ctx sync = some r →
      let store := bitOf w 8
      let sy := (s.g.sreg (c.toNat + 1)).toNat
      let lar (l : Nat) : CopyEnd := { space := 1, off := s.g.lane32 l a 6 }
      s.syncOk sy = true →
      (∀ l ∈ s.batch, s.g.lane64 l a 0 % 16 = 0 ∧ (lar l).aligned = true ∧ s.checkEnd (lar l) (shBytes r) (!store) = .ok ()) →
      u.postCopies q (s.batch.map fun l =>
        s.copyPacket l (if store then 2 else 1) (if store then 1 else 4) 0 sync (syncField sy) (if store then (lar l).off else s.g.lane64 l a 0)
          (if store then s.g.lane64 l a 0 else (lar l).off) 0 ((List.range 4).map fun k => s.g.lane32 l a (2 + k))) = .ok v →
      Goes (.cpyt c b a e) s v) ∧
    (Ready s avHome [sref a 2, sref b, sref c] → w < 2 ^ 25 →
      let lar := bitOf w 24
      let x : CopyEnd := { space := if lar then 1 else 0, off := (s.g.spair a.toNat).toNat }
      16 ≤ sync → sync ≤ 32768 → sync % 16 = 0 → x.off % 16 = 0 → s.checkEnd x sync false = .ok () → (s.cluster s.g.cluster).shelfUsed < 64 →
      (∀ p ∈ (s.cluster s.g.cluster).parks, p.ret ≠ s.nextId) →
      ∃ t r armed, exec (.cpym c b a e) s = .next t ∧ (t.grp s.cur.gid).returns = s.g.returns ++ [r] ∧ r.ctr = some .cp ∧ r.left = 1 ∧
        (t.grp s.cur.gid).cp = s.g.cp + 1 ∧ (t.grp s.cur.gid).copies = s.g.copies ++ [(256, r.id, s.g.sealNext)] ∧
        (t.cluster s.g.cluster).parks = (s.cluster s.g.cluster).parks ++
          [{ gid := s.cur.gid, ret := r.id, ctx := s.g.ctx, tid := s.g.tid, grid := s.tm.grid, tag := w % 65536, mask := bitsOf w 23 16, lar := lar,
             src := x.off, len := sync, armed := armed }] ∧ (released → armed = true) ∧
        (t.grp s.cur.gid).v = s.g.v ∧ (t.grp s.cur.gid).sregs = s.g.sregs) ∧
    (Ready s avHome [sref a, sref b, sref c] → w % 16 = 0 → s.syncOk sync = true →
      let tag := (s.g.sreg a.toNat).toNat % 65536
      s.checkEnd { space := 1, off := w } (s.drainLen tag) true = .ok () → (preOrder s.cur.pre).rel = false →
      ∃ t r, exec (.sdrn c b a e) s = .next t ∧ (t.grp s.cur.gid).returns = s.g.returns ++ [r] ∧ r.ctr = some .cp ∧ r.left = 1 ∧
        (t.grp s.cur.gid).cp = s.g.cp + 1 ∧ MemoryKept s t ∧ (t.cluster s.g.cluster).drains = (s.cluster s.g.cluster).drains ++
          [{ gid := s.cur.gid, ret := r.id, tag := tag, off := w, sync := sync }])

/-- SEAL closes the open batch; BWAIT with no more unfinished batches than its limit acquires the finished ones and forgets them; SWINIT sets a sync
word; SWWAIT whose generation is reached goes on, and one that is not waits (10 R188; 11 R239, R240). -/
def Obligations.BatchesAndSyncWords : Prop :=
  ∀ (s : State) (a b : Reg) (e : Bool),
    (∀ k, RunsHere s avHome → s.g.unfinished < 64 →
      Goes (.seal k e) s (s.modG fun g => { g with batches := g.batches ++ [(g.sealNext, k)], sealNext := g.sealNext + 1 })) ∧
    (RunsHere s avHome → s.g.unfinished ≤ a.toNat →
      ∃ t, exec (.bwait a e) s = .next t ∧ t.cur = {} ∧ (t.grp s.cur.gid).batches = s.g.batches.filter (fun x => !s.g.batchDone x.1) ∧
        (∀ l ∈ s.batch, ((t.grp s.cur.gid).fib l).pc = s.cur.npc) ∧
        ((∃ x ∈ s.g.batches, s.g.batchDone x.1 = true ∧ x.2.beyond = true) → ∀ x ∈ (t.core s.g.place).l1, x.2.dirty = true) ∧
        (t.grp s.cur.gid).v = s.g.v ∧ (t.grp s.cur.gid).sregs = s.g.sregs ∧ MemoryKept s t) ∧
    (Ready s avHome [sref a, sref b] →
      let off := (s.g.sreg a.toNat).toNat
      off % 16 = 0 → off + 16 ≤ s.tm.larderSize → Unmapped s →
      (Drained s → s.tm.larder.wf = true → (preOrder s.cur.pre).rel = false →
        ∃ t, exec (.swinit b a e) s = .next t ∧ t.cur = {} ∧ fieldAt ((t.team s.g.tid).lread off 16) 0 4 = (s.g.sreg b.toNat).toNat ∧
          fieldAt ((t.team s.g.tid).lread off 16) 4 4 = 0 ∧ fieldAt ((t.team s.g.tid).lread off 16) 12 4 = 0 ∧
          (∀ x, (x < off ∨ off + 16 ≤ x ∨ (off + 8 ≤ x ∧ x < off + 12)) → mread (t.team s.g.tid).larder x = mread s.tm.larder x) ∧
          (∀ k, k ≠ s.g.tid → t.team k = s.team k) ∧ (t.grp s.cur.gid).v = s.g.v ∧ (t.grp s.cur.gid).sregs = s.g.sregs) ∧
      (Drained s → genReached (leNat (s.tm.lread (off + 8) 4)) (s.g.sreg b.toNat).toNat = true →
        ∃ t, exec (.swwait b a e) s = .next t ∧ t.cur = {} ∧ (∀ l ∈ s.batch, ((t.grp s.cur.gid).fib l).pc = s.cur.npc) ∧ MemoryKept s t ∧
          (t.grp s.cur.gid).v = s.g.v ∧ (t.grp s.cur.gid).sregs = s.g.sregs) ∧
      (Drained s → genReached (leNat (s.tm.lread (off + 8) 4)) (s.g.sreg b.toNat).toNat = false →
        ∃ t, exec (.swwait b a e) s = .next t ∧ t.cur = {} ∧ MemoryKept s t ∧
          ∀ l ∈ s.batch, ((t.grp s.cur.gid).fib l).pc = (s.g.fib l).pc ∧
            ((t.grp s.cur.gid).fib l).wait = .swwait off (s.g.sreg b.toNat).toNat))

/-- The copy units' own steps: COPY_PACKET gives the packet to the lowest idle engine, COPY_LINE_WRITE writes the
bytes of one destination line as one event, SYNC_WORD_ARRIVAL counts landed
bytes, SHELF_PARK delivers to a waiting SDRN, COPY_CANCEL takes back a copy into a larder that is being saved (09 R167; 10 R187, R189; 11 R232, R234,
R238; 13 R269). Which engine takes a packet (log 125), and that a copy taken back is kept beside its team's image (log 62), are the model's choices. -/
def Obligations.CopyEvents : Prop :=
  ∀ (s : State) (q en cl tid : Nat),
    (∀ t0 k, q < 256 → s.queueOpen q = true → s.headRead q = .packet t0 → (s.queue q).refuse = none → fieldAt t0.bytes 0 1 = 1 →
      (s.queue q).allows 1 = true →
      s.copyOwner q t0.idx = none → copyReserved t0.bytes false = none → fieldAt t0.bytes 1 1 = 0 → fieldAt t0.bytes 2 1 % 4 ≠ 1 →
      fieldAt t0.bytes 2 1 / 4 % 4 ≠ 1 → s.copyPlaces (s.queue q).ctx (copyGlobals t0.bytes) = .none → s.idleEngine = some k →
      ∃ t j, exec (.copyPacket q) s = .next t ∧ (t.engine k).job = some j ∧ j.pkt = t0.bytes ∧ j.queue = q ∧ j.slot = t0.idx ∧ j.pos = 0 ∧
        j.ctx = (s.queue q).ctx ∧ (t.engine k).withdrawn = (s.engine k).withdrawn ∧ (∀ x, x ≠ k → t.engine x = s.engine x)) ∧
    (∀ j spa spol dpa dpol, en < 32 → (s.engine en).job = some j → j.stuck = false → (s.engine en).withdrawn = false →
      (s.ctx j.ctx).phase = .active → j.flying = 0 → j.op = 0 → j.pos < j.total → j.buf = {} → j.f 6 2 = 0xFFFF →
      let sa := j.srcEnd.off + j.pos
      let d := j.dstEnd.off + j.pos
      let n := min (256 - d % 256) (j.total - j.pos)
      sa < 2 ^ 64 → sa % 256 + n ≤ 256 → spa % 256 = sa % 256 → dpol ≤ 2 → MemoryCanonical s →
      s.engPlace (en / 4) j.ctx j.tid j.srcEnd sa false = .at (.dev spa spol) → s.cutTo (en / 4) (.dev spa spol) = false →
      (∀ x, s.homePoison x 64 = false) → s.engPlace (en / 4) j.ctx j.tid j.dstEnd d true = .at (.dev dpa dpol) → s.cutTo (en / 4) (.dev dpa dpol) = false →
      j.srcEnd.space = 0 →
      ∃ t, exec (.copyLineWrite en) s = .next t ∧ (∀ i, i < n → t.homeByte (dpa + i) = s.homeByte (spa + i)) ∧
        (∀ x, (x < dpa ∨ dpa + n ≤ x) → t.homeByte x = s.homeByte x) ∧
        (j.pos + n < j.total → ∃ k, (t.engine en).job = some k ∧ k.pos = j.pos + n) ∧
        (j.total ≤ j.pos + n → (t.engine en).job = none)) ∧
    (∀ j w n as, (s.team tid).arrivals = (j, w, n) :: as → (s.team tid).larder.wf = true → (∀ line, (s.team tid).window line = none) →
      let target := leNat ((s.team tid).lread w 4)
      let count := leNat ((s.team tid).lread (w + 4) 4) + n
      let gen := leNat ((s.team tid).lread (w + 8) 4)
      ∃ t, exec (.syncWordArrival tid) s = .next t ∧ (t.team tid).arrivals = as ∧
        (t.team tid).lread (w + 4) 8 =
          (if target ≠ 0 ∧ target ≤ count then leBytes 4 (count - target) ++ leBytes 4 (gen + 1) else leBytes 4 count ++ leBytes 4 gen) ∧
        (∀ x, (x < w + 4 ∨ w + 12 ≤ x) → mread (t.team tid).larder x = mread (s.team tid).larder x) ∧ t.groups = s.groups) ∧
    (∀ d ds k z, cl < 128 → (s.cluster cl).drains = d :: ds → s.drainSlot cl d = some (k, z) →
      tget { tag := 0, mask := 0, grid := 0, data := [] } (s.cluster cl).shelf k = z → (s.team (s.grp d.gid).tid).larder.wf = true →
      d.off + z.data.length ≤ (s.team (s.grp d.gid).tid).larderSize →
      ∃ t, exec (.shelfPark cl) s = .next t ∧ mreads (t.team (s.grp d.gid).tid).larder d.off z.data.length = z.data ∧
        (t.cluster cl).drains = (d :: ds).filter (fun x => x.ret != d.ret) ∧
        (z.mask &&& (255 - 2 ^ ((s.grp d.gid).place % 8)) = 0 → thas (t.cluster cl).shelf k = false) ∧
        t.grp d.gid = (s.grp d.gid).oneDone d.ret) ∧
    (∀ j at_ sw, en < 32 → (s.engine en).job = some j → (s.team j.tid).saving = some (at_, sw) → j.dstEnd.space = 1 →
      at_ + 200 * usTicks ≤ s.now → j.counted = 0 → s.saveFrozen j.tid = false →
      ∃ t, exec (.copyCancel en) s = .next t ∧ (t.engine en).job = none ∧
        (t.team j.tid).savedCopies = (s.team j.tid).savedCopies ++ [(j.pkt, j.batch, j.gid, j.queue, j.slot, j.shape)] ∧
        (t.team j.tid).larder = (s.team j.tid).larder ∧ (∀ x, x ≠ en → t.engine x = s.engine x) ∧ t.groups = s.groups)

/-! ### Fibres, barriers, launches and calls -/

/-- FORK starts a fibre in the lowest free lane slot, or says that there is none; FEND frees the slots of the batch; BAR, ARRV and WAITB: an arrival
is recorded, the last one completes the phase, and a fibre waits for a phase that is not complete; BARG the same over the grid (15 R291 to R294). -/
def Obligations.FibresAndBarriers : Prop :=
  ∀ (s : State) (e : Bool),
    (∀ (c b : Reg) (a : PReg) l, s.batch = [l] → (s.g.fib l).life = .live → Housed s →
      Ready s avHome [vsrc b 2, vsrc c, vdst c, pref a.toNat, { cls := 0, field := 0, n := 2 }] → (s.g.vpair l (s.g.phys l b)).getLsbD 0 = false →
      (∀ k, (List.range s.g.width).find? s.g.slotFree = some k →
        ∃ t, exec (.fork c b a e) s = .next t ∧ OnlyGroup s t ∧ MemoryKept s t ∧ t.cur = {} ∧ (t.grp s.cur.gid).sregs = s.g.sregs ∧
          (t.grp s.cur.gid).fib k = { life := .live, pc := s.g.vpair l (s.g.phys l b), wb8 := (s.g.fib l).wb8 } ∧
          (∀ p, p < 256 → (t.grp s.cur.gid).vlane k p =
            if p = s.g.wb l then { val := s.g.vval l (s.g.phys l c) } else if p = s.g.wb l + 1 then { val := w32 l } else {}) ∧
          (∀ p, p < 256 → (t.grp s.cur.gid).vlane l p = if p = s.g.phys l c then { val := w32 k } else s.g.vlane l p) ∧
          ((t.grp s.cur.gid).fib l).pc = s.cur.npc ∧
          (∀ i, i < 16 → (t.grp s.cur.gid).pbit l i = if i = a.toNat then true else s.g.pbit l i) ∧
          (∀ j, j ≠ k → j ≠ l → (t.grp s.cur.gid).fib j = s.g.fib j ∧ ∀ p, p < 256 → (t.grp s.cur.gid).vlane j p = s.g.vlane j p)) ∧
      ((List.range s.g.width).find? s.g.slotFree = none →
        ∃ t, exec (.fork c b a e) s = .next t ∧ OnlyGroup s t ∧ MemoryKept s t ∧ t.cur = {} ∧ ((t.grp s.cur.gid).fib l).pc = s.cur.npc ∧
          (t.grp s.cur.gid).sregs = s.g.sregs ∧ (∀ i, i < 16 → (t.grp s.cur.gid).pbit l i = if i = a.toNat then false else s.g.pbit l i) ∧
          (∀ j p, p < 256 → (t.grp s.cur.gid).vlane j p = if j = l ∧ p = s.g.phys l c then { val := 0xFFFFFFFF } else s.g.vlane j p) ∧
          (∀ j, j ≠ l → (t.grp s.cur.gid).fib j = s.g.fib j))) ∧
    (s.g.kind = .core → s.g.guest = none → thas s.groups s.cur.gid = true →
      ∃ t, exec (.fend e) s = .next t ∧ t.cur = {} ∧ MemoryKept s t ∧ (t.grp s.cur.gid).sregs = s.g.sregs ∧
        (∀ l, (t.grp s.cur.gid).fib l = if l ∈ s.batch then {} else s.g.fib l) ∧
        (∀ l p, p < 256 → (t.grp s.cur.gid).vlane l p = if l ∈ s.batch then {} else s.g.vlane l p) ∧ (∀ k, k ≠ s.cur.gid → t.grp k = s.grp k)) ∧
    (∀ n : Fld3, RunsHere s avHome → InTeam s → Drained s →
      let ph := tget 0 s.tm.barriers n.toNat
      let arrived (t : State) : Prop := ∀ l ∈ s.batch, tget 0 ((t.grp s.cur.gid).fib l).arrived n.toNat = ph + 1
      ((∀ l ∈ s.batch, (s.g.fib l).barring ≠ some n.toNat) →
        (AllArrive s n.toNat → ∃ t, exec (.bar n e) s = .next t ∧ BatchAt s t (fun _ => s.cur.npc) .none ∧ arrived t ∧ MemoryKept s t ∧
          tget 0 (t.team s.g.tid).barriers n.toNat = ph + 1) ∧
        (¬ AllArrive s n.toNat → ∃ t, exec (.bar n e) s = .next t ∧ BatchAt s t (fun l => (s.g.fib l).pc) (.barrier n.toNat) ∧ arrived t ∧ MemoryKept s t ∧
          tget 0 (t.team s.g.tid).barriers n.toNat = ph)) ∧
      ((∀ l ∈ s.batch, tget 0 (s.g.fib l).arrived n.toNat ≤ ph) →
        (∃ t, exec (.arrv n e) s = .next t ∧ BatchAt s t (fun _ => s.cur.npc) .none ∧ arrived t ∧ MemoryKept s t ∧
          (AllArrive s n.toNat → tget 0 (t.team s.g.tid).barriers n.toNat = ph + 1) ∧
          (¬ AllArrive s n.toNat → tget 0 (t.team s.g.tid).barriers n.toNat = ph)) ∧
        (∃ t, exec (.waitb n e) s = .next t ∧ BatchAt s t (fun _ => s.cur.npc) .none ∧ MemoryKept s t ∧ t.teams = s.teams)) ∧
      ((∀ l ∈ s.batch, ph < tget 0 (s.g.fib l).arrived n.toNat) →
        (∃ t, exec (.arrv n e) s = .next t ∧ BatchAt s t (fun l => (s.g.fib l).pc) (.rearrive n.toNat)) ∧
        (∃ t, exec (.waitb n e) s = .next t ∧ BatchAt s t (fun l => (s.g.fib l).pc) (.waitb n.toNat) ∧ MemoryKept s t ∧ t.teams = s.teams))) ∧
    (RunsHere s avHome → InTeam s → Drained s → thas s.teams s.g.tid = true → (s.teams.map (·.1)).Nodup → (∀ l ∈ s.batch, (s.g.fib l).bargAt = 0) →
      (s.l1BackAll s.g.place).l1Dirty s.g.place (fun _ _ => true) = false →
      let ph := s.gr.bargPhase
      let all := ∀ x ∈ s.teamFibres s.g.tid,
        (x.1 = s.cur.gid ∧ x.2 ∈ s.batch) ∨ (((s.grp x.1).fib x.2).life = .live ∧ ((s.grp x.1).fib x.2).bargAt = ph + 1)
      (all → s.gr.unplaced = 0 → s.gr.open_ = false → (∀ x ∈ s.teams, x.2.grid = s.tm.grid → x.1 ≠ s.g.tid → x.2.bargArrived = ph + 1) →
        ∃ t, exec (.barg e) s = .next t ∧ BatchAt s t (fun _ => s.cur.npc) .none ∧ (t.grid s.tm.grid).bargPhase = ph + 1 ∧
          (∀ l ∈ s.batch, ((t.grp s.cur.gid).fib l).bargAt = 0) ∧ (t.core s.g.place).l1 = []) ∧
      (¬ all → s.tm.bargArrived ≤ ph →
        ∃ t, exec (.barg e) s = .next t ∧ BatchAt s t (fun l => (s.g.fib l).pc) .barg ∧ (t.grid s.tm.grid).bargPhase = ph ∧
          (∀ l ∈ s.batch, ((t.grp s.cur.gid).fib l).bargAt = ph + 1) ∧ ∀ b ∈ (t.core s.g.place).l1, b.2.dirty = false))

/-- LAUNCH and a LAUNCH packet: an accepted grid's teams become pending once its dependence words are met, a refused one's status or error fields say
why; an aggregate gathers children and closes with the sum of their teams (13 R258 to R261, R270; 15 R295). That a dependence word once satisfied is looked
at no more (log 106), and what an aggregate's children share and when LAUNCH itself is checked (log 55), are the model's choices. -/
def Obligations.Launches : Prop :=
  ∀ (s : State) (e : Bool),
    (∀ (o : Bool) (c b a : Reg), Ready s avHome ([sref a 2] ++ (if o then [sref b 2, sref c] else [])) → s.g.ld < 63 → s.unplacedGrids s.g.ctx < 4096 →
      Drained s → (s.core s.g.place).wc = [] →
      let u := (s.raceTick s.cur.gid s.batch.length).l1BackAll s.g.place
      (u.l1Dirty s.g.place fun _ _ => true) = false → u.coreWaits s.g.place = false →
      let grid0 := if o then some ((s.g.spair b.toNat).toNat, (s.g.sreg c.toNat).toNat) else none
      let moved (t : State) : Prop := t.cur = {} ∧ (∀ l ∈ s.batch, ((t.grp s.cur.gid).fib l).pc = s.cur.npc) ∧ (t.grp s.cur.gid).sregs = s.g.sregs ∧
        (t.grp s.cur.gid).v = s.g.v ∧ (∀ x, t.homeByte x = u.homeByte x) ∧ ∀ w ∈ (t.core s.g.place).l1, w.2.dirty = false
      (∀ g, u.acceptLaunch s.g.ctx s.gr.cls (s.g.spair a.toNat).toNat grid0 = .grid g →
        (aggregable g.launch = false ∨ g.deps.all u.depMet = false ∨ u.aggCap g.ctx = 0 →
          ∃ t, exec (.launch o c b a e) s = .next t ∧ moved t ∧ StatusReturns s t a 0 ∧ (t.grid u.nextId).byDie = some s.g.die ∧
            (g.deps.all u.depMet = true → Pending t u.nextId g) ∧
            (g.deps.all u.depMet = false → (t.grid u.nextId).waiting = true ∧
              (t.grid u.nextId).deps = g.deps.filter (fun d => !u.depMet d) ∧ (t.grid u.nextId).launch = g.launch)) ∧
        (aggregable g.launch = true → g.deps.all u.depMet = true → u.aggCap g.ctx ≠ 0 →
          let child := (fieldAt g.launch 0x90 8, fieldAt g.launch 0x18 4, 0, 0, fieldAt g.launch 0x98 8)
          (u.openFor { g with byDie := some s.g.die } = none →
            ∃ t, exec (.launch o c b a e) s = .next t ∧ moved t ∧ StatusReturns s t a 0 ∧ (t.grid u.nextId).open_ = true ∧
              (t.grid u.nextId).openedAt = s.now ∧ (t.grid u.nextId).children = [child]) ∧
          (∀ n, u.openFor { g with byDie := some s.g.die } = some n → u.aggDue n = false →
            let sum := ((s.grid n).children.map (·.2.1)).foldl (· + ·) 0
            sum + fieldAt g.launch 0x18 4 < 2 ^ 31 →
            ∃ t, exec (.launch o c b a e) s = .next t ∧ moved t ∧ StatusReturns s t a 0 ∧
              (t.grid n).children = (s.grid n).children ++ [(child.1, child.2.1, sum, 0, child.2.2.2.2)]))) ∧
      (∀ k d, u.acceptLaunch s.g.ctx s.gr.cls (s.g.spair a.toNat).toNat grid0 = .refused k d →
        ∃ t, exec (.launch o c b a e) s = .next t ∧ moved t ∧ StatusReturns s t a (w32 (256 * k + d)) ∧ t.grids = u.grids)) ∧
    (∀ q hpa spa t0, PacketAt s q 2 hpa spa t0 →
      let k := s.queue q
      let noGrid (t : State) : Prop := t.grids.map (·.1) = s.grids.map (·.1)
      (k.allows 2 = false → (s.die (dieOfPa hpa)).fbEn = false →
        ∃ t, exec (.launchPacket q) s = .next t ∧ PacketRefused s t hpa spa t0 2 2 ∧ noGrid t) ∧
      (k.allows 2 = true → firstNonzero t0.bytes [(1, 7), (0x10, 40), (0x3C, 4)] = none →
        (∀ g, s.acceptLaunch k.ctx k.cls (fieldAt t0.bytes 8 8) none = .grid g →
          (g.deps.all s.depMet = true → ∃ t, exec (.launchPacket q) s = .next t ∧ PacketFreed s t hpa spa t0 ∧ Pending t s.nextId g ∧ t.groups = s.groups) ∧
          (g.deps.all s.depMet = false →
            ∃ t, exec (.launchPacket q) s = .next t ∧ (t.queue q).launch = s.nextId ∧ (t.grid s.nextId).waiting = true ∧
              (t.grid s.nextId).deps = g.deps.filter (fun d => !s.depMet d) ∧
              (t.grid s.nextId).queue = q ∧ MemoryKept s t)) ∧
        (∀ c d, s.acceptLaunch k.ctx k.cls (fieldAt t0.bytes 8 8) none = .refused c d → (s.die (dieOfPa hpa)).fbEn = false →
          ∃ t, exec (.launchPacket q) s = .next t ∧ PacketRefused s t hpa spa t0 c d ∧ noGrid t)) ∧
      (∀ o, k.allows 2 = true → firstNonzero t0.bytes [(1, 7), (0x10, 40), (0x3C, 4)] = some o → (s.die (dieOfPa hpa)).fbEn = false →
        ∃ t, exec (.launchPacket q) s = .next t ∧ PacketRefused s t hpa spa t0 1 o ∧ noGrid t) ∧
      (∀ c, (s.die (dieOfPa hpa)).fbEn = false →
        ∃ t, exec (.launchPacket q) (s.setQ q fun k => { k with refuse := some c }) = .next t ∧ PacketRefused s t hpa spa t0 6 c ∧ noGrid t ∧
          (t.queue q).refuse = none)) ∧
    (∀ n, thas s.grids n = true → (s.grid n).waiting = true → (∀ d ∈ (s.grid n).deps, d.2.1.isSome = true) →
      ((s.grid n).byDie.isSome = true ∨ (s.ctx (s.grid n).ctx).phase = .active) →
      ((s.grid n).deps.all s.depMet = true → (s.grid n).byDie.isSome = true →
        ∃ t, exec (.launchDependenceMet n) s = .next t ∧ Pending t n (s.grid n) ∧ t.groups = s.groups ∧ MemoryKept s t) ∧
      ((s.grid n).deps.all s.depMet = false →
        ∃ t, exec (.launchDependenceMet n) s = .next t ∧ (t.grid n).waiting = true ∧
          (t.grid n).deps = (s.grid n).deps.filter (fun d => !s.depMet d) ∧ t.groups = s.groups ∧
          MemoryKept s t)) ∧
    (∀ n, thas s.grids n = true → (s.grid n).open_ = true →
      let sum := ((s.grid n).children.map (·.2.1)).foldl (· + ·) 0
      (s.aggDue n = true → MemoryCanonical s →
        ∃ t, exec (.aggregateClose n) s = .next t ∧ (t.grid n).open_ = false ∧ (t.grid n).teams = sum ∧ (t.grid n).unplaced = sum ∧
          t.homeRead ((s.ctx (s.grid n).ctx).fld 0x28 8) (16 * (s.grid n).children.length) =
            (s.grid n).children.flatMap (fun c => leBytes 8 c.1 ++ leBytes 4 c.2.1 ++ leBytes 4 0) ∧ t.groups = s.groups) ∧
      (s.aggDue n = false → exec (.aggregateClose n) s = .next s))

/-- NCALL queues a checked call at its stack with its status cleared, NWAIT waits for the status; a call takes the lowest free cellar cores, on which
MBXS and MBXW pass messages, SKIPZ finds the next set bit of a stream, and NRET ends fibres; its completion writes the status and frees the cores
(10 R198; 14 R272, R273, R276 to R280, R282; 15 R296 to R299). That the caller's whole L1 is written back as a call is accepted (log 51), and that a call
keeps its cores until it completes (log 52), are the model's choices. -/
def Obligations.CellarCalls : Prop :=
  ∀ (s : State) (e : Bool),
    (∀ a c, Ready s avHome [sref a] → Drained s → Unmapped s → s.tm.larder.wf = true →
      let off := (s.g.sreg a.toNat).toNat
      let u := s.setT s.g.tid fun t => t.sees off 256
      let m := (u.l1BackAll s.g.place).nextId
      ((u.l1BackAll s.g.place).l1Dirty s.g.place fun _ _ => true) = false → off % 64 = 0 → off + 256 ≤ s.tm.larderSize → s.tm.lbad off 256 = false → u.callOf (s.tm.lread off 256) = .ok c → u.callsAt c.stack < 64 →
      ∃ t, exec (.ncall a e) s = .next t ∧ t.call m = c ∧ (t.stack c.stack).callQueue = (s.stack c.stack).callQueue ++ [m] ∧
        (t.team s.g.tid).lread c.statusOff 4 = leBytes 4 0 ∧
        (∀ x, (x < c.statusOff ∨ c.statusOff + 4 ≤ x) → mread (t.team s.g.tid).larder x = mread s.tm.larder x) ∧
        (∀ w ∈ (t.core s.g.place).l1, w.2.dirty = false) ∧ BatchAt s t (fun _ => s.cur.npc) .none) ∧
    (∀ b a, Ready s avHome [sref a, sref b] → Drained s → Unmapped s →
      let off := (s.g.sreg b.toNat).toNat
      let st := leNat (s.tm.lread off 4)
      off % 16 = 0 → off + 4 ≤ s.tm.larderSize → s.tm.lbad off 4 = false →
      (st ≠ 0 → ∃ t, exec (.nwait b a e) s = .next t ∧ t.cur = {} ∧ (∀ l ∈ s.batch, ((t.grp s.cur.gid).fib l).pc = s.cur.npc) ∧ SRegs s t a.toNat [w32 st] ∧
        (∀ w ∈ (t.core s.g.place).l1, w.2.dirty = true) ∧ MemoryKept s t) ∧
      (st = 0 → ∃ t, exec (.nwait b a e) s = .next t ∧ BatchAt s t (fun l => (s.g.fib l).pc) (.nwait off) ∧ MemoryKept s t)) ∧
    (RunsHere s avCellar → thas s.groups s.cur.gid = true →
      ∃ t, exec (.nret e) s = .next t ∧ t.cur = {} ∧ (∀ l, (t.grp s.cur.gid).fib l = if l ∈ s.batch then {} else s.g.fib l) ∧
        ((t.grp s.cur.gid).ended = true ↔ ∀ l, l < s.g.width → l ∉ s.batch → (s.g.fib l).life = .free) ∧ MemoryKept s t ∧
        ∀ k, k ≠ s.cur.gid → t.grp k = s.grp k) ∧
    (∀ (n : BitVec 2) b a, Ready s avCellar [sref a, vsrc b] → Drained s →
      let k := (s.g.sreg a.toNat).toNat
      let dst := (s.myCall.members.drop k).headD 0
      k < s.myCall.cores →
      ((s.cellar dst).wake.getLsbD n.toNat = false →
        ∃ t, exec (.mbxs n b a e) s = .next t ∧ BatchAt s t (fun _ => s.cur.npc) .none ∧ (t.cellar dst).wake.getLsbD n.toNat = true ∧
          tget [] (t.cellar dst).boxes n.toNat =
            (List.range 16).flatMap (fun l => leBytes 4 (if bitOf s.cur.mask l then s.g.vval l (s.g.phys l b) else 0).toNat) ∧
          (∀ j, j ≠ n.toNat → j < 4 → (t.cellar dst).wake.getLsbD j = (s.cellar dst).wake.getLsbD j ∧
            tget [] (t.cellar dst).boxes j = tget [] (s.cellar dst).boxes j) ∧ MemoryKept s t) ∧
      ((s.cellar dst).wake.getLsbD n.toNat = true →
        ∃ t, exec (.mbxs n b a e) s = .next t ∧ BatchAt s t (fun l => (s.g.fib l).pc) (.mbxFull dst n.toNat) ∧ t.cellars = s.cellars)) ∧
    (∀ (n : BitVec 2) a, Housed s → Ready s avCellar [vdst a] →
      let me := s.cellar s.g.place
      (me.wake.getLsbD n.toNat = true → (∀ l ∈ s.g.liveLanes, l ∉ s.batch → (s.g.fib l).wait ≠ .mbxEmpty s.g.place n.toNat) →
        ∃ t, exec (.mbxw n a e) s = .next t ∧ t.cur = {} ∧ (∀ l ∈ s.batch, ((t.grp s.cur.gid).fib l).pc = s.cur.npc) ∧
          ((∀ l ∈ s.batch, 8 * n.toNat + l / 2 ∉ me.boxPoison) → VRegs s t a (fun l => [w32 (fieldAt (tget [] me.boxes n.toNat) (4 * l) 4)])) ∧
          (∀ l ∈ s.batch, (t.grp s.cur.gid).vlane l (s.g.phys l a) =
            { val := w32 (fieldAt (tget [] me.boxes n.toNat) (4 * l) 4), pois := me.boxPoison.contains (8 * n.toNat + l / 2) }) ∧
          (t.cellar s.g.place).wake.getLsbD n.toNat = false ∧
          (∀ j, j ≠ n.toNat → j < 4 → (t.cellar s.g.place).wake.getLsbD j = me.wake.getLsbD j) ∧ (t.grp s.cur.gid).sregs = s.g.sregs ∧ MemoryKept s t) ∧
      (me.wake.getLsbD n.toNat = false →
        ∃ t, exec (.mbxw n a e) s = .next t ∧ BatchAt s t (fun l => (s.g.fib l).pc) (.mbxEmpty s.g.place n.toNat) ∧ t.cellars = s.cellars)) ∧
    (∀ c b a l v p, Ready s avCellar [vsrc b, vdst a, sref c 3] → Drained s → s.g.ld < 63 → s.batch = [l] →
      let stream := (s.g.spair c.toNat).toNat
      let len := (s.g.sreg (c.toNat + 2)).toNat
      let i := (s.g.vval l (s.g.phys l b)).toNat
      let word (k : Nat) := leNat (s.readAt s.cur.gid (.dev (s.myCall.devOf ((stream + 4 * k) % 2 ^ 64)) 3) 4).1
      stream % 4 = 0 → s.skipScan stream len (len - i / 32 + 1) i = .ok (v, p) →
      (∃ t r y, exec (.skipz c b a e) s = .next t ∧ Begun s t .ld r [] ∧ r.regs = s.destRegs a 1 ∧ r.lanes = [y] ∧ y.lane = l ∧ y.ready = true ∧
        y.ws = vWrites l (s.g.phys l a) p [w32 v]) ∧
      (∀ j, i ≤ j → j < v → j < 32 * len → bitOf (word (j / 32)) (j % 32) = false) ∧
      (v ≠ 0xFFFFFFFF → i ≤ v ∧ v < 32 * len ∧ bitOf (word (v / 32)) (v % 32) = true)) ∧
    (∀ st n ns, st < 16 → (s.stack st).callQueue = n :: ns →
      let c := s.call n
      let cores := (s.freeCellars st).take c.cores
      (cores.length = c.cores →
        ∃ t, exec (.cellarCallStart st) s = .next t ∧ (t.stack st).callQueue = ns ∧ (t.call n).started = true ∧ (t.call n).members = cores ∧
          ∀ k core, cores[k]? = some core →
            let g := t.grp (t.cellar core).gid
            g.kind = .cellar ∧ g.width = 16 ∧ g.ctx = c.ctx ∧ g.call = some (n, k) ∧ g.fpmode = w32 (fieldAt c.msg 8 4) ∧
            (∀ l, l < 16 → (g.fib l).life = .live ∧ (g.fib l).pc = 0 ∧ g.vval l 0 = w32 k ∧ g.vval l 1 = w32 l ∧ g.vval l 2 = w32 c.cores ∧
              g.vval l 3 = w32 core) ∧
            (∀ j, j < 8 → g.sreg j = w32 (fieldAt c.msg (0x20 + 4 * j) 4)) ∧ (t.cellar core).wake = 0 ∧ (t.cellar core).store = s.loadStore c ∧
            (t.cellar core).storePoison = s.loadBad c) ∧
      (cores.length < c.cores → exec (.cellarCallStart st) s = .next s)) ∧
    (∀ n, thas s.calls n = true → s.callOver (s.call n) = true → (s.call n).started = true → (s.call n).aborted = false →
      thas s.teams (s.call n).tid = true → (s.team (s.call n).tid).phase = .resident → (s.team (s.call n).tid).larder.wf = true →
      (∀ line, (s.team (s.call n).tid).window line = none) →
      let c := s.call n
      ∃ t, exec (.cellarCallComplete n) s = .next t ∧ thas t.calls n = false ∧ (∀ m ∈ c.members, (t.cellar m).gid = 0 ∧ (t.cellar m).wake = 0) ∧
        (∀ g ∈ s.callGroups c, thas t.groups g = false) ∧
        (c.first = none → (t.team c.tid).lread c.statusOff 16 = leBytes 4 1 ++ List.replicate 12 0) ∧
        (∀ code k rcd, c.first = some (code, k, rcd) →
          (t.team c.tid).lread c.statusOff 6 = leBytes 4 2 ++ leBytes 1 code ++ leBytes 1 k ∧
          (t.team c.tid).lread (c.statusOff + 16) 128 = padTo 128 rcd) ∧
        (∀ x, (x < c.statusOff ∨ c.statusOff + 144 ≤ x ∨ (c.first = none ∧ c.statusOff + 16 ≤ x)) →
          mread (t.team c.tid).larder x = mread (s.team c.tid).larder x) ∧
        (thas s.groups c.gid = true → c.gid ∉ s.callGroups c → (s.team (s.grp c.gid).tid).phase = .resident →
          (t.grp c.gid).fpflags =
            (s.grp c.gid).fpflags ||| w32 ((s.callGroups c).foldl (fun w g => w ||| (s.grp g).fpflags.toNat) 0 % 64)))

/-! ### Migration -/

/-- GO, GOHOME and REJOIN, and the crates they send: fibres that leave are away with their registers kept, those at their destination or refused go
on with the P register telling which; a crate's fibres stand at their destination with the registers carried; a return brings them home, an end
notice frees their slots (02 R35; 10 R194; 12 R254; 15 R300 to R307). Which causes of refusal are told before departure and which at arrival (log 68), what a
crate of another module's launch lacks (logs 89 and 108), FPFLAGS of an end notice and across hops (log 116), and that a fibre waiting to depart is away
for REJOIN (log 127), are the model's choices. -/
def Obligations.Migrations : Prop :=
  ∀ (s : State) (e : Bool),
    (∀ (b : Reg) (a : PReg), Ready s avCore [vsrc b 2, pref a.toNat] → s.batch ≠ [] →
      let va (l : Nat) := (s.g.vpair l (s.g.phys l b)).toNat
      let v := s.l1BackAll s.g.place
      (∀ l ∈ s.batch, va l % 8 = 0) →
      ((∀ l ∈ s.batch, (∃ d, s.goDest l (va l) = .ok (some d) ∧ s.g.standsAt d = true) ∧ (s.g.fib l).refused = none) →
        ∃ t, exec (.go b a e) s = .next t ∧ t.cur = {} ∧ (∀ l ∈ s.batch, ((t.grp s.cur.gid).fib l).pc = s.cur.npc) ∧ PRegs s t a.toNat (fun _ => true) ∧
          (t.grp s.cur.gid).v = s.g.v ∧ (t.grp s.cur.gid).sregs = s.g.sregs ∧ t.crates = s.crates ∧ MemoryKept s t) ∧
      (∀ d, s.g.guest = none → s.g.kind = .core → d.node = none → d.toCellar = false → s.g.standsAt d = false → s.batch.length ≤ 32 →
        (∀ l ∈ s.batch, s.goDest l (va l) = .ok (some d) ∧ (s.g.fib l).refused = none) → (s.kernEntry s.g.ctx (s.khandle s.cur.gid)).isSome = true →
        Drained s → (s.core s.g.place).wc = [] → v.coreWaits s.g.place = false → (v.l1Dirty s.g.place fun _ _ => true) = false →
        (∀ r ∈ s.g.returns, ∀ x ∈ r.lanes, x.lane ∉ s.batch) →
        ∃ t c, exec (.go b a e) s = .next t ∧ t.cur = {} ∧ t.crates = s.crates ++ [c] ∧ c.die = d.unit ∧ c.toCellar = false ∧ c.ret = false ∧
          c.endNotice = false ∧ c.sent = false ∧ c.fromGid = s.cur.gid ∧ c.lanes = maskOf s.batch ∧ c.ctx = s.g.ctx ∧ c.sentAt = s.now ∧
          (crateHead c.bytes).pc = s.cur.npc.toNat ∧ (crateHead c.bytes).hops = 1 ∧
          (∀ l ∈ s.batch, ((t.grp s.cur.gid).fib l).life = .away) ∧ (t.grp s.cur.gid).v = s.g.v ∧ (t.grp s.cur.gid).sregs = s.g.sregs ∧
          ∀ w ∈ (t.core s.g.place).l1, w.2.dirty = false) ∧
      ((∀ l ∈ s.batch, ∃ d, s.goDest l (va l) = .ok (some d) ∧ s.g.standsAt d = false) → (∀ l ∈ s.batch, (s.g.fib l).refused.isSome = true) →
        (bitOf (s.launchFlags s.cur.gid) 1 = false → Released s →
          ∃ t, exec (.go b a e) s = .next t ∧ t.cur = {} ∧ (∀ l ∈ s.batch, ((t.grp s.cur.gid).fib l).pc = s.cur.npc) ∧ PRegs s t a.toNat (fun _ => false) ∧
            (t.grp s.cur.gid).v = s.g.v ∧ (t.grp s.cur.gid).sregs = s.g.sregs ∧ t.crates = s.crates ∧ MemoryKept s t) ∧
        (∀ l c w, bitOf (s.launchFlags s.cur.gid) 1 = true → HandlerFree s → s.batch = [l] → (s.g.fib l).refused = some (c, w) →
          ∃ t, exec (.go b a e) s = .next t ∧ EntersHandler s t 0xD (c + 256 * l) w))) ∧
    (s.g.guest = none → RunsHere s avCore → Goes (.gohome e) s s) ∧
    (∀ i, s.g.guest = some i → i.homeGid ≠ 0 → i.homeNode < 2 ^ 19 → i.homeCore < 1024 → s.g.kind = .core ∨ s.g.kind = .cellar →
      Released s →
      (∀ r ∈ s.g.returns, ∀ x ∈ r.lanes, x.lane ∉ s.batch) →
      ∃ t c, exec (.gohome e) s = .next t ∧ t.crates = s.crates ++ [c] ∧ c.ret = true ∧ c.endNotice = false ∧ c.fromGid = s.cur.gid ∧
        (crateHead c.bytes).pc = s.cur.npc.toNat ∧ (crateHead c.bytes).homeCore = i.homeCore % 1024 ∧ (crateHead c.bytes).homeSlot = i.homeSlot % 64 ∧
        c.lanes = maskOf (s.batch.map s.g.homeLane) ∧ ∀ l ∈ s.batch, ((t.grp s.cur.gid).fib l).life = .free) ∧
    (RunsHere s avHome →
      (s.g.rejoinWaits = false → ∃ t, exec (.rejoin e) s = .next t ∧ t.cur = {} ∧ (∀ l ∈ s.batch, ((t.grp s.cur.gid).fib l).pc = s.cur.npc) ∧
        (∀ w ∈ (t.core s.g.place).l1, w.2.dirty = true) ∧ (t.grp s.cur.gid).v = s.g.v ∧ (t.grp s.cur.gid).sregs = s.g.sregs ∧ MemoryKept s t) ∧
      (s.g.rejoinWaits = true → ∃ t, exec (.rejoin e) s = .next t ∧ BatchAt s t (fun l => (s.g.fib l).pc) .rejoin ∧ MemoryKept s t)) ∧
    (∀ id place c, s.crates.find? (fun x => x.id == id) = some c → s.crateCut c = false →
      (c.outbound = true → c.fromGid ≠ s.nextId → s.arrivalCause c = none → s.placeTakes c place = true → c.req = none → (s.grp c.fromGid).guest = none →
        let h := crateHead c.bytes
        let body := crateBody (s.crateVmask c h) c.bytes
        let fs := body.2
        let lane (k : Nat) (f : CrateFibre) := if c.toCellar then k else f.lane
        (fs.map (·.lane)).Nodup →
        ∃ t gid, exec (.crateArrival id place) s = .next t ∧ t.crates = s.crates.filter (fun x => x.id != c.id) ∧
          (c.toCellar = false → (∃ k, k < 8 ∧ tget 0 (s.core place).guests k = 0 ∧ tget 0 (t.core place).guests k = gid) ∧
            ∀ w ∈ (t.core place).l1, w.2.dirty = true) ∧
          (c.toCellar = true → (t.cellar place).guests = [gid]) ∧
          (t.grp gid).isGuest = true ∧ (t.grp gid).place = place ∧ (t.grp gid).ctx = c.ctx ∧
          (t.grp gid).kind = (if c.toCellar then .cellar else .core) ∧ (t.grp gid).lx = w32 (h.lx % 2 ^ 18) ∧ (t.grp gid).fpmode = w32 h.fpmode ∧
          (∀ i w, (i, w) ∈ body.1 → (t.grp gid).sreg i = w) ∧
          (∀ k f, fs[k]? = some f →
            ((t.grp gid).fib (lane k f)).life = .live ∧ ((t.grp gid).fib (lane k f)).pc = BitVec.ofNat 64 h.pc ∧
            ((t.grp gid).fib (lane k f)).wb8 = BitVec.ofNat 8 f.wb8 ∧ ((t.grp gid).fib (lane k f)).preds = BitVec.ofNat 16 f.preds ∧
            ∀ v ∈ f.vs, (t.grp gid).vlane (lane k f) v.1 = v.2) ∧ MemoryKept s t) ∧
      (∀ k, c.outbound = true → ((∃ place, place < 1024 ∧ s.placeTakes c place = true) ∧ s.arrivalCause c = some k) ∨
          ((∀ place, place < 1024 → s.placeTakes c place = false) ∧ k = 1 ∧ c.sentAt + 2 * usTicks ≤ s.now) →
        (c.req = none → thas s.groups c.fromGid = true →
          ∃ t, exec (.migrationRefusal id k) s = .next t ∧ t.crates = s.crates.filter (fun x => x.id != c.id) ∧ MemoryKept s t ∧
            (∀ l, (t.grp c.fromGid).fib l = if l ∈ (s.grp c.fromGid).lanes c.lanes then
              { (s.grp c.fromGid).fib l with life := .live, wait := .none, refused := some (k, (crateHead c.bytes).addr), fellBack := false } else (s.grp c.fromGid).fib l) ∧
            ∀ g, g ≠ c.fromGid → t.grp g = s.grp g) ∧
        (∀ p, c.req = some p → PortSends s p.port 0 →
          ∃ t, exec (.migrationRefusal id k) s = .next t ∧ t.crates = s.crates.filter (fun x => x.id != c.id) ∧ t.wire = s.wire ++ [answerOf s p k 0 []] ∧
            t.groups = s.groups)) ∧
      (∀ gid, c.ret = true → c.endNotice = false → c.sent = false → c.req = none → s.crateTo c = some gid →
        let h := crateHead c.bytes
        let fs := (crateBody (s.vmaskOf gid) c.bytes).2
        (fs.map (·.lane)).Nodup → (∀ f ∈ fs, ((s.grp gid).fib f.lane).life = .away) →
        ∃ t, exec (.returnCrateArrival id) s = .next t ∧ t.crates = s.crates.filter (fun x => x.id != c.id) ∧
          (t.grp gid).fpflags = (s.grp gid).fpflags ||| w32 (h.fpfl % 64) ∧
          (∀ f ∈ fs, ((t.grp gid).fib f.lane).life = .live ∧ ((t.grp gid).fib f.lane).pc = BitVec.ofNat 64 h.pc ∧
            ((t.grp gid).fib f.lane).wb8 = BitVec.ofNat 8 f.wb8 ∧ ((t.grp gid).fib f.lane).preds = BitVec.ofNat 16 f.preds ∧
            ∀ v ∈ f.vs, (t.grp gid).vlane f.lane v.1 = v.2) ∧
          (∀ l, (∀ f ∈ fs, f.lane ≠ l) → (t.grp gid).fib l = (s.grp gid).fib l) ∧ (t.grp gid).sregs = (s.grp gid).sregs ∧
          (∀ w ∈ (t.core (s.grp gid).place).l1, w.2.dirty = true) ∧ MemoryKept s t) ∧
      (∀ gid, c.endNotice = true → c.sent = false → c.req = none → s.crateTo c = some gid →
        let lanes := bitsSet 64 (fieldAt c.bytes 0x28 8)
        ∃ t, exec (.endNoticeArrival id) s = .next t ∧ t.crates = s.crates.filter (fun x => x.id != c.id) ∧
          (∀ l, (t.grp gid).fib l = if l ∈ lanes then {} else (s.grp gid).fib l) ∧
          (∀ l p, p < 256 → (t.grp gid).vlane l p = if l ∈ lanes then {} else (s.grp gid).vlane l p) ∧
          (t.grp gid).handler = (s.grp gid).handler &&& (2 ^ 64 - 1 - ((s.grp gid).handler &&& maskOf lanes)) ∧ MemoryKept s t))

/-! ### Teams -/

/-- The next non-resident team is placed on a core that it fits: its groups in team order with every fibre at its role's entry, all registers zero,
its sequencer context at its own entry; an idle team retires and is counted, a grid's last one adding 1 to DONE (02 R29; 07 R136; 13 R261 to R263;
15 R292). A victim's save begins and, with nothing left to resolve, its image is written and it leaves; it comes back from the image (13 R267 to
R269; 17 R340, R341). What a retirement flushes and drops (log 58), what of a team is kept beside its image (log 62), and which teams are victims and when
(log 63), are the model's choices. -/
def Obligations.TeamsComeAndGo : Prop :=
  ∀ (s : State) (core tid : Nat),
    (∀ c, core < 1024 → s.nextFor core s.candidates = some c →
      (c.tid = 0 →
        let g := s.grid c.grid
        let b := g.launch
        let n := s.nextId
        ∃ t, exec (.teamPlacement core) s = .next t ∧ (t.grid c.grid).unplaced = g.unplaced - 1 ∧
          (t.team n).phase = .resident ∧ (t.team n).core = core ∧ (t.team n).grid = c.grid ∧ (t.team n).ctx = g.ctx ∧ (t.team n).cls = g.cls ∧
          (t.team n).index = g.teams - g.unplaced ∧ (t.team n).larderSize = fieldAt b 0x28 4 ∧ (∀ a, mread (t.team n).larder a = 0) ∧
          (∀ k r, (roleList b)[k]? = some r →
            ∃ gid, (t.team n).groups[k]? = some gid ∧ (t.grp gid).kind = .core ∧ (t.grp gid).tid = n ∧ (t.grp gid).place = core ∧
              (t.grp gid).role = r ∧ (t.grp gid).number = k ∧ (t.grp gid).width = fieldAt b 0x20 1 ∧ (t.grp gid).fpmode = w32 (fieldAt b 0x30 4) ∧
              (t.grp gid).vAlloc = (roleOf b r).vregs ∧ (t.grp gid).sAlloc = (roleOf b r).sregs ∧ (t.grp gid).tAlloc = (roleOf b r).tiles ∧
              (∀ l, l < fieldAt b 0x20 1 → (t.grp gid).fib l = { life := .live, pc := BitVec.ofNat 64 (fieldAt b 0 8 + (roleOf b r).entry) }) ∧
              (∀ l p, (t.grp gid).vlane l p = {}) ∧ (∀ i, (t.grp gid).sreg i = 0) ∧ ∀ x y, (t.grp gid).trow x y = List.replicate 32 0) ∧
          (fieldAt b 8 8 ≠ 0 → (t.grp (t.team n).seqGid).kind = .sequencer ∧ (t.grp (t.team n).seqGid).tid = n ∧
            (t.grp (t.team n).seqGid).place = core / 8 ∧ ((t.grp (t.team n).seqGid).fib 0).pc = BitVec.ofNat 64 (fieldAt b 8 8) ∧
            ∀ i, (t.grp (t.team n).seqGid).sreg i = 0) ∧ (∀ a, t.homeByte a = s.homeByte a) ∧ ∀ w ∈ (t.core core).l1, w.2.dirty = true) ∧
      (c.tid ≠ 0 → s.imgSpoiled c.tid (s.layout c.tid) = false → s.swapCut core (s.team c.tid).ctx = false →
        let y := s.layout c.tid
        ∃ t, exec (.swapIn core) s = .next t ∧ (t.team c.tid).phase = .resident ∧ (t.team c.tid).core = core ∧ (t.team c.tid).image = 0 ∧
          (∀ a, a < (s.team c.tid).larderSize → mread (t.team c.tid).larder a = s.homeByte ((s.team c.tid).image + y.lar + a)) ∧
          (∀ g ∈ (s.team c.tid).groups, g ≠ (s.team c.tid).seqGid → (t.grp g).place = core) ∧ (∀ x, t.homeByte x = s.homeByte x) ∧
          ∀ w ∈ (t.core core).l1, w.2.dirty = true)) ∧
    (core < 1024 → s.nextFor core s.candidates = none → exec (.teamPlacement core) s = .next s ∧ exec (.swapIn core) s = .next s) ∧
    (thas s.teams tid = true →
      let tm := s.team tid
      let u := (s.l1BackAll tm.core).endSubs tid
      (s.teamIdle tid = false → exec (.teamRetirement tid) s = .next s) ∧
      (s.teamIdle tid = true → tm.subs = [] → (s.core tm.core).wc = [] → (s.grid tm.grid).children = [] →
        u.coreWaits tm.core = false → (u.l1Dirty tm.core fun _ _ => true) = false →
        let gone (t : State) : Prop := thas t.teams tid = false ∧ (∀ g ∈ tm.groups, g ≠ 0 → thas t.groups g = false) ∧
          (tm.seqGid ≠ 0 → thas t.groups tm.seqGid = false) ∧ (∀ w ∈ (t.core tm.core).l1, w.2.dirty = false) ∧
          ∀ a, 32768 * tm.binBase ≤ a → a < 32768 * (tm.binBase + tm.binQuota) → mread (t.cluster (tm.core / 8)).bins a = 0
        ((s.grid tm.grid).retired + 1 < (s.grid tm.grid).teams →
          ∃ t, exec (.teamRetirement tid) s = .next t ∧ gone t ∧ (t.grid tm.grid).retired = (s.grid tm.grid).retired + 1 ∧
            ∀ a, t.homeByte a = u.homeByte a) ∧
        (∀ va pa pol e, (s.grid tm.grid).retired + 1 = (s.grid tm.grid).teams →
          va = (s.grid tm.grid).fld 0x98 8 → va ≠ 0 → u.isLocal va = true → pol ≤ 2 →
          u.xlate 0 tm.ctx va .write false = .ok (.dev pa pol) e → u.homePoison pa 4 = false → u.recalls pa 4 = false → u.cut 0 (dieOfPa pa) = false →
          MemoryCanonical u →
          ∃ t, exec (.teamRetirement tid) s = .next t ∧ gone t ∧ thas t.grids tm.grid = false ∧
            t.homeField pa 4 = (u.homeField pa 4 + 1) % 2 ^ 32 ∧ ∀ a, (a < pa ∨ pa + 4 ≤ a) → t.homeByte a = u.homeByte a))) ∧
    (thas s.teams tid = true → (∀ x ∈ s.groups, x.2.guest = none) → ((s.core (s.team tid).core).slots.map (·.1)).Nodup →
      let tm := s.team tid
      let sw (k : Bool) : Instr := if k then .swapOut tid else .preEmption tid
      (∀ k, tm.saving = none → (if k then s.swapVictim else s.preemptVictim) = some tid → (s.beginSave tid k).saveWaits tid = true →
        ∃ t, exec (sw k) s = .next t ∧ (t.team tid).saving = some (s.now, k) ∧ (t.team tid).larder = tm.larder ∧
          ∀ x ∈ (t.core tm.core).slots, x.2.gid ≠ 0 → x.2.gid ∉ tm.groups) ∧
      (∀ k, tm.saving = none → (if k then s.swapVictim else s.preemptVictim) ≠ some tid → exec (sw k) s = .next s) ∧
      (∀ k at_, tm.saving = some (at_, k) → s.saveFrozen tid = true → exec (sw k) s = .next s) ∧
      (∀ k at_ u, tm.saving = some (at_, k) → s.saveFrozen tid = false → s.saveWaits tid = false → s.swapCut tm.core tm.ctx = false →
        (s.countArrivals tid).saveFlush tid = (true, u) → thas u.teams tid = true →
        let v := u.gather tid
        let size := ceilTo 65536 (v.layout tid).size
        (∀ o, (u.ctx (u.team tid).ctx).swapRun size = some o → MemoryCanonical v →
          let img := (u.ctx (u.team tid).ctx).fld 8 8 + o
          ∃ t, exec (sw k) s = .next t ∧ (t.team tid).phase = .swapped ∧ (t.team tid).image = img ∧ (t.team tid).imageSize = size ∧
            (t.team tid).noFit = none ∧ (t.team tid).saving = none ∧
            t.homeRead img 32 = leBytes 8 0x4D494154 ++ leBytes 8 (v.team tid).index ++ leBytes 8 (v.layout tid).size ++ leBytes 8 (v.team tid).binBase ∧
            (∀ g ∈ (v.team tid).groups, thas v.groups g = true → ∀ c, c < 1024 → (t.grp g).place ≠ c)) ∧
        ((u.ctx (u.team tid).ctx).swapRun size = none →
          ∃ t, exec (sw k) s = .next t ∧ (t.team tid).phase = (u.team tid).phase ∧ (t.team tid).noRoom = true ∧
            (t.team tid).saving = none ∧ t.jobs.length = u.jobs.length + (u.team tid).savedCopies.length)))

/-! ### Issue slots, packets and links -/

/-- A free issue slot takes the ready group that arbitration names and the batch that the group chooses; a held trap is taken once the handler has
ended; a deferred record is written once there is room; EVENT packets are delivered, held queues tried again, reserved kinds refused (13 R258,
R259, R264, R265; 17 R334, R337, R381). In a thermal stop a slot keeps what it has (19 R364). Since when a group is ready (`readySince`) is
the model's choice (log 22). -/
def Obligations.IssueAndQueues : Prop :=
  ∀ (s : State),
    (∀ core slot, core < 1024 → slot < 4 →
      (s.thermalStop = true ∨ s.runGoes core slot = true → exec (.issueSlotArbitration core slot) s = .next s) ∧
      (s.thermalStop = false → (tget {} (s.core core).slots slot).gid = 0 →
        let ready := (s.coreGroups core).filter fun g => ((s.core core).slotOf g).isNone && !(s.readyLanes g).isEmpty
        let since (g : Nat) := (s.grp g).readySince
        let old (g : Nat) : Prop := since g + 4096 ≤ s.now
        (ready = [] → ∃ t, exec (.issueSlotArbitration core slot) s = .next t ∧ t.cores = s.cores ∧ MemoryKept s t) ∧
        (ready ≠ [] → ∃ t g p, exec (.issueSlotArbitration core slot) s = .next t ∧ g ∈ ready ∧
          ((∃ h ∈ ready, old h) → old g ∧ ∀ h ∈ ready, old h → since g ≤ since h) ∧
          ((∀ h ∈ ready, ¬ old h) → ∀ h ∈ ready, s.classOf g ≤ s.classOf h ∧ (s.classOf h = s.classOf g → since g ≤ since h)) ∧
          p ∈ s.readyPcs g ∧
          ((∃ q ∈ s.readyPcs g, 64 ≤ (s.grp g).ageAt q) → 64 ≤ (s.grp g).ageAt p ∧
            ∀ q ∈ s.readyPcs g, (s.grp g).ageAt q < (s.grp g).ageAt p ∨ ((s.grp g).ageAt q = (s.grp g).ageAt p ∧ p ≤ q)) ∧
          ((∀ q ∈ s.readyPcs g, (s.grp g).ageAt q < 64) → ∀ q ∈ s.readyPcs g, p ≤ q) ∧
          (let r := tget {} (t.core core).slots slot
           r.gid = g ∧ r.pc = BitVec.ofNat 64 p ∧ r.count = 0 ∧ r.mask = maskOf ((s.readyLanes g).filter fun l => ((s.grp g).fib l).pc.toNat == p)) ∧
          (∀ k, k ≠ slot → tget {} (t.core core).slots k = tget {} (s.core core).slots k) ∧ (∀ h, (t.grp h).fibres = (s.grp h).fibres) ∧ MemoryKept s t))) ∧
    (∀ gid tr i ts, thas s.groups gid = true → (s.grp gid).heldTraps = (tr, i) :: ts →
      ((s.grp gid).handler ≠ 0 → exec (.heldTrapTaken gid) s = .next s) ∧
      ((s.grp gid).handler = 0 → s.stopped gid = false → s.cur.gid ≠ gid → (s.grp gid).kind = .core → (s.grp gid).guest = none →
        (s.grp gid).call = none → (s.grp gid).stores = [] → (s.grid (s.team (s.grp gid).tid).grid).trapvec ≠ 0 → userClass tr.code = true →
        tr.freezes = false → (s.team (s.grp gid).tid).larder.wf = true →
        (∀ line k w, s.recordAt gid / 256 ≤ line → line ≤ (s.recordAt gid + 127) / 256 →
          (s.team (s.grp gid).tid).window line = some (k, w) → line ∈ w.valid) →
        let gr := s.grid (s.team (s.grp gid).tid).grid
        ∃ t, exec (.heldTrapTaken gid) s = .next t ∧ (t.grp gid).heldTraps = ts ∧ (t.grp gid).handler = i.mask ∧
          (∀ l, (t.grp gid).fib l = if l ∈ (s.grp gid).lanes i.mask then
            { (s.grp gid).fib l with pc := BitVec.ofNat 64 gr.trapvec, wait := .none, wb8 := ((s.grp gid).fib l).wb8 + BitVec.ofNat 8 (gr.trapwin / 8) }
            else (s.grp gid).fib l) ∧
          (let rcd := mreads (t.team (s.grp gid).tid).larder (s.recordAt gid) 128
           fieldAt rcd 0 8 = i.pc.toNat ∧ fieldAt rcd 0x1D 1 = tr.code % 256 ∧ fieldAt rcd 0x20 8 = i.mask % 2 ^ 64 ∧
           fieldAt rcd 0x28 8 = tr.detail % 2 ^ 64 ∧ fieldAt rcd 0x30 8 = tr.addr % 2 ^ 64) ∧
          (t.grp gid).v = (s.grp gid).v ∧ (t.grp gid).sregs = (s.grp gid).sregs)) ∧
    (∀ die r rs, die < 8 → (s.die die).waiting = r :: rs →
      ((s.die die).fbFull = true ∨ s.fbCut die = true → exec (.faultRecordDeferred die) s = .next s) ∧
      (FaultRoom s die 1 → r.die = die → r.bytes.length = 32 →
        ∃ t, exec (.faultRecordDeferred die) s = .next t ∧ Recorded s t die r.bytes ∧ (t.die die).waiting = rs)) ∧
    (∀ q hpa spa t0, PacketAt s q 3 hpa spa t0 → (s.queue q).allows 3 = true →
      let rs := [(1, 1), (4, 4), (0x3C, 4)]
      let die := dieOfPa hpa
      let code := fieldAt t0.bytes 2 2
      let data := padTo 48 (sliceAt t0.bytes 8 48)
      let head (k : Nat) := record [(1, k), (1, 0), (1, (s.queue q).ctx % 64), (1, 0), (4, q + 256 * code)]
      (firstNonzero t0.bytes rs = none → (s.die die).fbEn = false →
        ∃ t, exec (.eventPacket q) s = .next t ∧ PacketFreed s t hpa spa t0 ∧ t.groups = s.groups) ∧
      (firstNonzero t0.bytes rs = none → FaultRoom s die 2 →
        ∃ t, exec (.eventPacket q) s = .next t ∧ (t.die die).widx = ((s.die die).widx + 2) % 65536 ∧ die ∈ t.msiDue ∧
          t.homeRead (recordPa s die (s.die die).widx) 32 = head 7 ++ data.take 24 ∧
          t.homeRead (recordPa s die ((s.die die).widx + 1)) 32 = head 8 ++ data.drop 24) ∧
      (∀ o, firstNonzero t0.bytes rs = some o → (s.die die).fbEn = false →
        ∃ t, exec (.eventPacket q) s = .next t ∧ PacketRefused s t hpa spa t0 1 o)) ∧
    (∀ q c v, q < 256 → (s.queue q).held = some (c, v) →
      ((s.queue q).poked = false → s.now < (s.queue q).heldAt + 100 * usTicks → exec (.queueHoldRetry q) s = .next s) ∧
      ((s.queue q).poked = true ∨ (s.queue q).heldAt + 100 * usTicks ≤ s.now →
        (∀ d w, s.headRead q = .bad d w → ∃ t, exec (.queueHoldRetry q) s = .next t ∧ (t.queue q).held = some (d, w) ∧ (t.queue q).heldAt = s.now ∧
          (t.queue q).poked = false ∧ MemoryKept s t) ∧
        ((∃ w, s.headRead q = .moving w) ∨ s.headRead q = .cut → ∃ t, exec (.queueHoldRetry q) s = .next t ∧ (t.queue q).held = some (c, v) ∧ (t.queue q).heldAt = s.now ∧
          (t.queue q).poked = false ∧ MemoryKept s t) ∧
        ((∃ t0, s.headRead q = .packet t0) ∨ s.headRead q = .none →
          ∃ t, exec (.queueHoldRetry q) s = .next t ∧ (t.queue q).held = none ∧ MemoryKept s t))) ∧
    (∀ q k hpa spa t0, PacketAt s q k hpa spa t0 → kindReserved? k = true → (s.die (dieOfPa hpa)).fbEn = false →
      ∃ t, exec (.reservedPacketKind q) s = .next t ∧ PacketRefused s t hpa spa t0 1 0)

/-- Links: a flit whose tag holds raises the counter and a third failure in succession takes the port down, as a link going down and a nonce that
would be reused do; a pending key takes effect at its counter; retraining brings a link back, a spared lane is an event; a push to another module
is sent again; what waited for a link goes on when it comes back, and the host link reports its new width and rate (12 R245, R252; 16 R329, R330; 17
R344; 19 R357). The numbers of the die pairs (`diePair`) are the model's choice (log 15). -/
def Obligations.Links : Prop :=
  ∀ (s : State),
    (∀ p (inw : Bool), p < 32 →
      let k := s.port p
      let die := p / 4
      let event (t : State) : Prop := FaultRoom s die 1 → Recorded s t die (faultBytes 6 7 0 false (65536 * die + 2 ^ 19 * 3) 0 0 p)
      (k.up = false → exec (.flitReceive p true) s = .next s ∧ exec (.flitReceive p false) s = .next s ∧ exec (.linkDown (.port p)) s = .next s) ∧
      (k.up = true →
        (∃ t, exec (.flitReceive p true) s = .next t ∧ (t.port p).fails = 0 ∧ (t.port p).up = true ∧
          (∀ key sw, k.pendIn = some (key, sw) → k.cntIn = sw → (t.port p).keyIn = key ∧ (t.port p).cntIn = 1 ∧ (t.port p).pendIn = none) ∧
          ((∀ key sw, k.pendIn = some (key, sw) → k.cntIn ≠ sw) → (t.port p).keyIn = k.keyIn ∧ (t.port p).cntIn = k.cntIn + 1 ∧
            (t.port p).pendIn = k.pendIn) ∧ ∀ j, j ≠ p → t.port j = s.port j) ∧
        (k.fails < 2 → ∃ t, exec (.flitReceive p false) s = .next t ∧ (t.port p).fails = k.fails + 1 ∧ (t.port p).up = true ∧ ∀ j, j ≠ p → t.port j = s.port j) ∧
        (2 ≤ k.fails → ∃ t, exec (.flitReceive p false) s = .next t ∧ (t.port p).up = false ∧ event t) ∧
        (∃ t, exec (.linkDown (.port p)) s = .next t ∧ (t.port p).up = false ∧ event t ∧ ∀ j, j ≠ p → t.port j = s.port j) ∧
        (2 ^ 48 ≤ (if inw then k.cntIn else k.cntOut) → (if inw then k.pendIn else k.pendOut) = none →
          ∃ t, exec (.nonceExhausted p inw) s = .next t ∧ (t.port p).up = false ∧ event t)) ∧
      ((if inw then k.cntIn else k.cntOut) < 2 ^ 48 → exec (.nonceExhausted p inw) s = .next s) ∧
      (∀ key sw, (if inw then k.pendIn else k.pendOut) = some (key, sw) →
        (if inw then k.cntIn else k.cntOut) = sw →
        ∃ t, exec (.keySwitch p inw) s = .next t ∧ t.port p = (if inw then { k with keyIn := key, pendIn := none, cntIn := 0 } else
          { k with keyOut := key, pendOut := none, cntOut := 0 }) ∧ ∀ j, j ≠ p → t.port j = s.port j) ∧
      (∀ width rate, ∃ t, exec (.linkRetrained ⟨.port p, width, rate⟩) s = .next t ∧ t.port p = { k with up := true, fails := 0 } ∧
        ∀ j, j ≠ p → t.port j = s.port j) ∧
      (∃ t, exec (.linkLaneSpared (.port p)) s = .next t ∧ (t.port p).spared = k.spared + 1 ∧
        (FaultRoom s die 1 → Recorded s t die (faultBytes 6 6 0 false (65536 * die + 2 ^ 19 * 3) 0 0 p)))) ∧
    (∀ l : Link, (∃ d, d < 28 ∧ l = .ucie d) ∨ l = .cxl →
      (∃ t, exec (.linkDown l) s = .next t ∧ t.down = (if l ∈ s.down then s.down else s.down ++ [l]) ∧ MemoryKept s t) ∧
      (∀ width rate, s.hostWaits = [] → (∀ r ∈ s.reqs, r.hold ≠ .cut) →
        ∃ t, exec (.linkRetrained ⟨l, width, rate⟩) s = .next t ∧ t.down = s.down.filter (fun x => x != l) ∧
          t.crates.map (fun c => { c with sentAt := 0 }) = s.crates.map (fun c => { c with sentAt := 0 }) ∧
          (l ≠ .cxl → { t with down := s.down, crates := s.crates } = s ∧
            ∀ (k : Nat) (c : Crate), s.crates[k]? = some c → t.crates[k]? = some (if c.outbound = true ∧ s.crateCut c = true then { c with sentAt := s.now } else c)) ∧
          (l = .cxl → t.hstatWidth = width % 32 ∧ t.hstatRate = rate % 16 ∧
            { t with down := s.down, hstatWidth := s.hstatWidth, hstatRate := s.hstatRate } = s))) ∧
    (∀ d a b, a < b → b < 8 → diePair a b = d → (∀ x y, x < y → y < 8 → diePair x y = d → a ≤ x) → FaultRoom s a 1 →
      ∃ t, exec (.linkLaneSpared (.ucie d)) s = .next t ∧ Recorded s t a (faultBytes 6 6 0 false (65536 * a) 0 0 (d + 256))) ∧
    (∀ i q, s.pushes[i]? = some q → q.remote = true →
      (s.now < q.sentAt + 4 * usTicks → exec (.pushResend i) s = .next s) ∧
      (q.sentAt + 4 * usTicks ≤ s.now →
        (∀ port w, s.portFrom q.die q.ctx q.node q.va = (some port, w) → PortSends s port 8 →
          ∃ t p, exec (.pushResend i) s = .next t ∧ t.wire = w.wire ++ [p] ∧ t.pushes = s.pushes.eraseIdx i ∧ p.kind = (if q.ended then 9 else 8) ∧
            p.dest = q.node ∧ p.port = port ∧ p.va = BitVec.ofNat 64 q.va ∧ p.aux = BitVec.ofNat 64 (q.tag + 2 ^ 32 * (q.q % 2 ^ 32)) ∧
            p.ckey = (s.ctx q.ctx).skey ∧ p.payload = (if q.ended then [] else leBytes 8 q.val)) ∧
        (∀ w, s.portFrom q.die q.ctx q.node q.va = (none, w) →
          ∃ t, exec (.pushResend i) s = .next t ∧ t.wire = w.wire ∧ t.pushes = s.pushes.set i { q with sentAt := s.now })))

/-! ### Privileged commands -/

/-- The commands that act on a context: each has its effect in the states that allow it, with result 0 in its status word, and none otherwise, with
the result and the operand's offset (13 R261, R269; 14 R279; 16 R309, R310, R318, R320, R324, R327; 17 R338, R339). Offset 0 of result 3 (log 19), the die
and the PC of FREEZE's record (log 81), what THAW lets go on (log 82), CABORT that completes at once (log 83), and PREEMPT of teams that have no room (log
84) are the model's choices. -/
def Obligations.ContextCommands : Prop :=
  ∀ (s : State) (q : Nat) (t0 : Taken),
    let u := takenFrom s q t0
    let b := t0.bytes
    let c := fieldAt b 1 1
    let done (w : State) := w.status (fieldAt b 8 8) 0 0
    let fails (i : Instr) (r o : Nat) : Prop := exec i s = .next (u.status (fieldAt b 8 8) r o)
    (CommandAt s q 128 [(0x18, 32)] t0 →
      let a := fieldAt b 0x10 8
      let d := u.homeRead a 256
      ((u.ctx c).phase ≠ .free → fails (.ctxcreate q) 3 0) ∧
      ((u.ctx c).phase = .free → a + 256 ≤ 2 ^ 40 → descOk d = false → fails (.ctxcreate q) 1 0x10) ∧
      ((u.ctx c).phase = .free → a + 256 ≤ 2 ^ 40 → descOk d = true → u.keyTaken (fieldAt d 0x58 2) = true → fails (.ctxcreate q) 2 0x10) ∧
      ((u.ctx c).phase = .free → a + 256 ≤ 2 ^ 40 → descOk d = true → u.keyTaken (fieldAt d 0x58 2) = false →
        exec (.ctxcreate q) s = .next (done (u.setX c fun _ => { phase := .active, desc := d })))) ∧
    (CommandAt s q 129 [(0x10, 40)] t0 →
      (u.alive c = false → fails (.ctxdestroy q) 3 0) ∧
      (u.alive c = true → exec (.ctxdestroy q) s = .next (holding (u.setX c fun x => { x with phase := .closing }) q 129 t0))) ∧
    (∀ k, UnderWay s q 129 k →
      (∀ w, k.pos = 0 → s.rangeOut k.ctx 0 (2 ^ 45) = (false, w) → exec (.ctxdestroy q) s = .next w) ∧
      (∀ w, k.pos = 0 → s.rangeOut k.ctx 0 (2 ^ 45) = (true, w) →
        let v := (w.closeCtx k.ctx).setQ q fun x => { x with cmd := some { k with pos := 1 } }
        (∀ e ∈ v.grids, e.2.ctx ≠ k.ctx) ∧ (∀ j ∈ v.jobs, j.ctx ≠ k.ctx) ∧ (∀ x ∈ v.crates, x.ctx ≠ k.ctx) ∧
          ((∃ r ∈ v.reqs, r.ctx = k.ctx) → exec (.ctxdestroy q) s = .next v) ∧
          ((∀ r ∈ v.reqs, r.ctx ≠ k.ctx) → ∃ t : State, exec (.ctxdestroy q) s = .next (t.status k.status 0 0) ∧ (t.ctx k.ctx).phase = .free)) ∧
      (k.pos ≠ 0 → (∃ r ∈ s.reqs, r.ctx = k.ctx) → exec (.ctxdestroy q) s = .next s) ∧
      (k.pos ≠ 0 → (∀ r ∈ s.reqs, r.ctx ≠ k.ctx) → ∃ t : State, exec (.ctxdestroy q) s = .next (t.status k.status 0 0) ∧ (t.ctx k.ctx).phase = .free ∧
        (t.queue q).cmd = none ∧
        ∀ (d : Nat) (x : TlbEntry), x ∈ (t.die d).tlb ∨ x ∈ (t.core d).tlb → x.ctx = k.ctx → x.size = 0 ∨ 2 ^ 45 ≤ x.base)) ∧
    (CommandAt s q 130 [(0x10, 40)] t0 →
      let w := u.freezeCtx t0.hdr.homeDie c 5 0 0 (q + 2 ^ 32 * (t0.idx % 2 ^ 32)) 0 0
      (u.alive c = false → fails (.freeze q) 3 0) ∧ (u.alive c = true → exec (.freeze q) s = .next (done w) ∧ (w.ctx c).phase = .frozen)) ∧
    (CommandAt s q 131 [(0x10, 40)] t0 →
      ((u.ctx c).phase ≠ .frozen → fails (.thaw q) 3 0) ∧
      ((u.ctx c).phase = .frozen → exec (.thaw q) s = .next (done (u.thaw c)) ∧
        ((∀ x ∈ u.dies, ∀ r ∈ x.2.records ++ x.2.waiting, r.ctx ≠ c) →
          ((u.thaw c).ctx c).phase = .active ∧ ∀ g, ((u.thaw c).grp g).hold = (u.grp g).hold))) ∧
    (CommandAt s q 132 [(0x20, 24)] t0 →
      let rg := invRange b
      (u.alive c = false → fails (.tlbinv q) 3 0) ∧
      (u.alive c = true → rg.2 = 0 → exec (.tlbinv q) s = .next (done u)) ∧
      (∀ w, u.alive c = true → u.tlbTry c rg.1 rg.2 true = (true, w) → exec (.tlbinv q) s = .next (done w)) ∧
      (∀ w, u.alive c = true → u.tlbTry c rg.1 rg.2 true = (false, w) → exec (.tlbinv q) s = .next (holding w q 132 t0))) ∧
    (∀ k w, UnderWay s q 132 k →
      (s.tlbTry k.ctx (invRange k.bytes).1 (invRange k.bytes).2 false = (true, w) → exec (.tlbinvComplete q) s = .next (w.commandOver q)) ∧
      (s.tlbTry k.ctx (invRange k.bytes).1 (invRange k.bytes).2 false = (false, w) → exec (.tlbinvComplete q) s = .next w)) ∧
    (CommandAt s q 135 [(0x11, 1), (0x14, 4), (0x20, 24)] t0 →
      let h := fieldAt b 0x12 2
      let src := fieldAt b 0x18 8
      (u.alive c = false → fails (.hwrite q) 3 0) ∧
      (u.alive c = true → handleTable (fieldAt b 0x10 1) = none → fails (.hwrite q) 1 0x10) ∧
      (∀ base count size given ok, u.alive c = true → handleTable (fieldAt b 0x10 1) = some (base, count, size, given, ok) →
        ((u.ctx c).fld count 2 ≤ h → fails (.hwrite q) 1 0x12) ∧
        (h < (u.ctx c).fld count 2 → src + given ≤ 2 ^ 40 → ok (u.homeRead src given) = false → fails (.hwrite q) 1 0x18) ∧
        (h < (u.ctx c).fld count 2 → src + given ≤ 2 ^ 40 → ok (u.homeRead src given) = true →
          exec (.hwrite q) s = .next (done (u.homeStore ((u.ctx c).fld base 8 + size * h) (padTo size (u.homeRead src given))))))) ∧
    (CommandAt s q 136 [(0x11, 7), (0x28, 16)] t0 →
      let die := fieldAt b 0x10 1
      let base := fieldAt b 0x18 8
      let size := fieldAt b 0x20 8
      (u.alive c = false → fails (.loftwin q) 3 0) ∧
      (u.alive c = true → die ≤ 7 → base % 65536 = 0 → size % 65536 = 0 → base + size ≤ 2 ^ 27 →
        ((∃ x ∈ u.ctxs, x.1 ≠ c ∧ size ≠ 0 ∧ (tget (0, 0) x.2.loft die).2 ≠ 0 ∧
            overlaps base size (tget (0, 0) x.2.loft die).1 (tget (0, 0) x.2.loft die).2 = true) → fails (.loftwin q) 2 0x18) ∧
        ((∀ x ∈ u.ctxs, x.1 ≠ c → size = 0 ∨ (tget (0, 0) x.2.loft die).2 = 0 ∨
            overlaps base size (tget (0, 0) x.2.loft die).1 (tget (0, 0) x.2.loft die).2 = false) →
          exec (.loftwin q) s = .next (done (u.setX c fun k => { k with loft := tput k.loft die (base, size) }))))) ∧
    (CommandAt s q 139 [(0x10, 40)] t0 →
      (u.alive c = false → fails (.preempt q) 3 0) ∧
      (∀ w, u.alive c = true → (u.preemptAll c).preemptStep c = (true, w) → exec (.preempt q) s = .next (done w)) ∧
      (∀ w, u.alive c = true → (u.preemptAll c).preemptStep c = (false, w) → exec (.preempt q) s = .next (holding w q 139 t0))) ∧
    (∀ k w, UnderWay s q 139 k →
      (s.preemptStep k.ctx = (true, w) → exec (.preempt q) s = .next (w.commandOver q)) ∧
      (s.preemptStep k.ctx = (false, w) → exec (.preempt q) s = .next w)) ∧
    (CommandAt s q 140 [(0x10, 40)] t0 →
      (u.alive c = false → fails (.cabort q) 3 0) ∧
      (u.alive c = true → exec (.cabort q) s = .next (done (u.endCalls c)) ∧ ∀ x ∈ (u.endCalls c).calls, x.2.ctx ≠ c)) ∧
    (CommandAt s q 141 [(0x15, 35)] t0 →
      let die := fieldAt b 0x10 1
      (die ≤ 7 → fieldAt b 0x11 4 ≠ (u.die die).gen → fails (.replay q) 1 0x11) ∧
      (die ≤ 7 → fieldAt b 0x11 4 = (u.die die).gen →
        exec (.replay q) s = .next (done (u.replayDie die)) ∧
        ((∀ r ∈ (u.die die).records, r.disp.isSome = true) →
          ((u.replayDie die).die die).gen = ((u.die die).gen + 1) % 65536 ∧ ((u.replayDie die).die die).ridx = (u.die die).widx) ∧
        (∀ r, (u.die die).records = [r] → r.disp = none → r.kind = 1 → r.gid ≠ 0 → r.more = [] → r.job = none → r.park = none →
          thas u.groups r.gid = true → (u.grp r.gid).hold = some .replay → (u.team (u.grp r.gid).tid).spoiled = false → (u.ctx r.ctx).phase = .active →
          u.homeField (recordPa u die r.slot + 3) 1 = 1 →
          ((u.replayDie die).grp r.gid).hold = none ∧ ∀ l, (((u.replayDie die).grp r.gid).fib l).pc = ((u.grp r.gid).fib l).pc)))

/-- The commands that act on queues, ports, scratch, memory and routes; a malformed packet is refused like any other (09 R174, R177; 12 R246; 13 R256,
R259; 16 R328, R330; 17 R347, R348). The result codes of QCREATE and QDESTROY (log 19), the silence where STATUS cannot be written (log 80), and the
order of the counters and the phases' numbers in a summary (logs 17, 20) are the model's choices. -/
def Obligations.ModuleCommands : Prop :=
  ∀ (s : State) (q : Nat) (t0 : Taken),
    let u := takenFrom s q t0
    let b := t0.bytes
    let st := fieldAt b 8 8
    let done (w : State) := w.status st 0 0
    let fails (i : Instr) (r o : Nat) : Prop := exec i s = .next (u.status st r o)
    (∀ i k unused hpa spa, commandOf i = some (q, k, unused) → PacketAt s q k hpa spa t0 → (s.queue q).allows k = true →
      let bad := if 64 ≤ fieldAt b 1 1 then some 1 else firstNonzero b ((2, 6) :: unused ++ [(0x3C, 4)])
      (bad = none → st % 8 ≠ 0 ∨ 2 ^ 40 ≤ st → exec i s = .next u) ∧
      (∀ o, bad = some o → (s.die (dieOfPa hpa)).fbEn = false → ∃ t, exec i s = .next t ∧ PacketRefused s t hpa spa t0 1 o)) ∧
    (CommandAt s q 133 [(0x21, 23)] t0 →
      let k := fieldAt b 0x10 2
      let n := fieldAt b 0x14 4
      let ring := fieldAt b 0x18 8
      let good := 0 < k ∧ k ≤ 255 ∧ fieldAt b 0x12 1 ≤ 3 ∧ fieldAt b 0x13 1 ≤ 1 ∧ (∃ i, i < 11 ∧ n = 2 ^ (i + 6)) ∧ ring % 64 = 0 ∧
        (fieldAt b 0x13 1 = 1 → ring + 64 + 64 * n ≤ 2 ^ 40) ∧ fieldAt b 0x20 1 < 8 ∧ (fieldAt b 0x13 1 = 0 → u.alive (fieldAt b 1 1) = true)
      (good → (u.queue k).used = true → fails (.qcreate q) 2 0x10) ∧
      (good → (u.queue k).used = false → exec (.qcreate q) s = .next (done (u.setQ k fun _ =>
        { used := true, ctx := fieldAt b 1 1, cls := fieldAt b 0x12 1, priv := fieldAt b 0x13 1 == 1, entries := n, ring := ring, kinds := fieldAt b 0x20 1 })))) ∧
    (CommandAt s q 134 [(0x12, 38)] t0 →
      let k := fieldAt b 0x10 2
      ((u.queue k).used = false → fails (.qdestroy q) 1 0x10) ∧
      (0 < k → k ≤ 255 → (u.queue k).used = true → (u.queue k).cmd = none →
        ∃ t : State, exec (.qdestroy q) s = .next (done t) ∧ thas t.queues k = false ∧ ∀ j, j ≠ k → t.queue j = u.queue j)) ∧
    (CommandAt s q 137 [(0x12, 6), (0x28, 16)] t0 →
      let p := fieldAt b 0x10 1
      let a := fieldAt b 0x18 8
      let key := some (u.homeRead a 32, fieldAt b 0x20 8)
      (31 < p → fails (.keyset q) 1 0x10) ∧
      (p ≤ 31 → a + 32 ≤ 2 ^ 40 →
        (fieldAt b 0x11 1 = 1 → exec (.keyset q) s = .next (done (u.setP p fun o => { o with pendIn := key }))) ∧
        (fieldAt b 0x11 1 = 0 → exec (.keyset q) s = .next (done (u.setP p fun o => { o with pendOut := key }))))) ∧
    (CommandAt s q 138 [(0x12, 38)] t0 →
      let k := fieldAt b 0x10 1
      let w := fieldAt b 0x11 1
      (u.stack k).wayPend = none →
      (15 < k → fails (.wayconv q) 1 0x10) ∧ (k ≤ 15 → 8 < w → fails (.wayconv q) 1 0x11) ∧
      (k ≤ 15 → w ≤ 8 → u.scratchHeld k = false → exec (.wayconv q) s = .next (done (u.convert k w)) ∧ ((u.convert k w).stack k).ways = w ∧
        ∀ a, mread ((u.convert k w).stack k).scratch a = if a < w * 2 ^ 27 then mread (u.stack k).scratch a else 0) ∧
      (k ≤ 15 → w ≤ 8 → u.scratchHeld k = true →
        exec (.wayconv q) s = .next (holding (u.setS k fun o => { o with wayPend := some (w, q) }) q 138 t0))) ∧
    (∀ k w p, k < 16 → (s.stack k).wayPend = some (w, p) →
      (s.scratchHeld k = true → exec (.wayconvApply k) s = .next s) ∧
      (s.scratchHeld k = false → exec (.wayconvApply k) s = .next ((s.convert k w).commandOver p))) ∧
    (CommandAt s q 142 [(0x28, 16)] t0 →
      let base := fieldAt b 0x10 8
      let len := fieldAt b 0x18 8
      let m := fieldAt b 0x20 8
      (fieldAt b 1 1 ≠ 0 → fails (.scrub q) 1 1) ∧
      (fieldAt b 1 1 = 0 → base % 256 = 0 → len % 256 = 0 → base + len ≤ 2 ^ 40 → m % 8 = 0 → m + (len / 256 + 3) / 4 ≤ 2 ^ 40 →
        exec (.scrub q) s = .next (holding u q 142 t0))) ∧
    (∀ k, UnderWay s q 142 k → MemoryCanonical s →
      let base := fieldAt k.bytes 0x10 8 + 256 * k.pos
      let lines := fieldAt k.bytes 0x18 8 / 256
      let bits := fieldAt k.bytes 0x20 8 + k.pos / 4
      k.pos + 1 < lines →
      ∃ t : State, exec (.scrub q) s = .next t ∧ (t.queue q).cmd = some { k with pos := k.pos + 1 } ∧
        (s.homePoison base 256 = true → t.homeField bits 1 / 4 ^ (k.pos % 4) % 4 = 2) ∧
        (s.homePoison base 256 = false → t.homeField bits 1 / 4 ^ (k.pos % 4) % 4 ≤ 1) ∧ ∀ a, a ≠ bits → t.homeByte a = s.homeByte a) ∧
    (∀ k, UnderWay s q 142 k → fieldAt k.bytes 0x18 8 / 256 ≤ k.pos → exec (.scrub q) s = .next (s.commandOver q)) ∧
    (CommandAt s q 143 [(0x18, 32)] t0 →
      (fieldAt b 0x10 8 % 4096 ≠ 0 → fails (.resync q) 1 0x10) ∧
      (fieldAt b 0x10 8 % 4096 = 0 → fieldAt b 0x10 8 < 2 ^ 40 → exec (.resync q) s = .next (holding u q 143 t0))) ∧
    (∀ k o bs, UnderWay s q 143 k → s.sumEntry k.pos = some (o, bs) →
      let w := (s.homeStore (fieldAt k.bytes 0x10 8 + o) bs).setQ q fun x => { x with cmd := some { k with pos := k.pos + 1 } }
      (k.pos < 433 → exec (.resync q) s = .next w) ∧ (k.pos = 433 → exec (.resync q) s = .next (w.commandOver q))) ∧
    (CommandAt s q 144 [(0x18, 32)] t0 →
      let r := fieldAt b 0x10 8
      let v := { u with routeOld := [], routeHeld := true }
      (r % 2 ^ 21 ≠ 0 → fails (.routeset q) 1 0x10) ∧ (r % 2 ^ 21 = 0 → r < 2 ^ 40 → u.routeHeld = true → fails (.routeset q) 2 0x10) ∧
      (r % 2 ^ 21 = 0 → r < 2 ^ 40 → u.routeHeld = false →
        ((∃ x ∈ u.reqs, x.hold = .sent) → exec (.routeset q) s = .next (holding v q 144 t0)) ∧
        ((∀ x ∈ u.reqs, x.hold ≠ .sent ∧ x.hold ≠ .route) → exec (.routeset q) s = .next (done { u with routeOld := [], routeHeld := false, routeTable := r })))) ∧
    (∀ k, UnderWay s q 144 k →
      ((∃ x ∈ s.reqs, x.hold = .sent) → exec (.routesetComplete q) s = .next s) ∧
      ((∀ x ∈ s.reqs, x.hold ≠ .sent ∧ x.hold ≠ .route) →
        exec (.routesetComplete q) s =
          .next (State.commandOver { s with routeTable := fieldAt k.bytes 0x10 8, routeHeld := false, routeOld := [] } q)))

/-! ### Retirement, the host link and management -/

/-- Retirement: an empty suspect core is replaced by its pair's spare or leaves service, a suspect core that its teams cannot leave waits; a
cluster's matrix resources and a cellar core leave service, the core's call completing with STATE 3; a row is spared with no byte changed (01 R14; 17
R345, R346). That a suspect core keeps teams for which the swap area has no room, and waits, is the model's choice (log 70). -/
def Obligations.Retirements : Prop :=
  ∀ (s : State),
    (∀ core, core < 1024 →
      let die := dieOfCore core
      let j := core % 128 / 16
      let hw (code detail : Nat) := faultBytes 6 code 0 false (core + 65536 * die) 0 0 detail
      let mine (t : Team) : Prop := t.phase = .resident ∧ t.core = core
      ((s.core core).out = true → exec (.coreRetirement core) s = .next s) ∧
      ((s.core core).out = false → (s.core core).retiring = none → s.guestsOf core = [] → (∃ e ∈ s.teams, mine e.2) →
        (∀ e ∈ s.teams, mine e.2 → e.2.noRoom = true ∧ e.2.saving = none) →
        exec (.coreRetirement core) s = .next ((s.suspect core).tally 7)) ∧
      ((s.core core).out = false → (s.core core).retiring = none → s.guestsOf core = [] → (∀ e ∈ s.teams, ¬ mine e.2) → FaultRoom s die 1 →
        (tget 0 (s.die die).spares j = 0 →
          ∃ t, exec (.coreRetirement core) s = .next t ∧ tget 0 (t.die die).spares j = core % 16 + 1 ∧ (∀ c, (t.core c).out = (s.core c).out) ∧
            Recorded s t die (hw 1 (j + 256 * core)) ∧ t.groups = s.groups ∧ t.teams = s.teams) ∧
        (tget 0 (s.die die).spares j ≠ 0 →
          ∃ t, exec (.coreRetirement core) s = .next t ∧ (∀ c, (t.core c).out = (c == core || (s.core c).out)) ∧
            (∀ k, (t.die k).spares = (s.die k).spares) ∧ Recorded s t die (hw 2 core) ∧ t.groups = s.groups ∧ t.teams = s.teams))) ∧
    (∀ cl, cl < 128 →
      let die := dieOfCluster cl
      let mine (t : Team) : Prop := t.phase = .resident ∧ clusterOfCore t.core = cl ∧ t.hasMatrix = true
      (∀ e ∈ s.teams, ¬ mine e.2) →
      ((s.cluster cl).matrixOut = true → exec (.matrixResourceRetirement cl) s = .next s) ∧
      ((s.cluster cl).matrixOut = false → FaultRoom s die 1 →
        ∃ t, exec (.matrixResourceRetirement cl) s = .next t ∧ (∀ k, (t.cluster k).matrixOut = (k == cl || (s.cluster k).matrixOut)) ∧
          Recorded s t die (faultBytes 6 3 0 false (65536 * die + 2 ^ 20) 0 0 cl) ∧ t.teams = s.teams ∧
          ∀ core bytes base, clusterOfCore core = cl → (demandOf bytes).matrix = true → t.fits bytes base core = false)) ∧
    (∀ k, k < 512 → (s.cellar k).out = false → (s.cellar k).guests = [] → FaultRoom s (k / 64) 1 →
      let ev := faultBytes 6 3 0 false (k + 65536 * (k / 64) + 3 * 2 ^ 19) 0 0 (k + 2 ^ 16)
      (s.callOn k = none → ∃ t, exec (.cellarCoreRetirement k) s = .next t ∧ (∀ j, (t.cellar j).out = (j == k || (s.cellar j).out)) ∧
        Recorded s t (k / 64) ev ∧ t.calls = s.calls) ∧
      (∀ n, s.callOn k = some n → (∀ g ∈ s.callGroups (s.call n), (s.grp g).stores = []) → thas s.teams (s.call n).tid = true →
        (s.team (s.call n).tid).phase = .resident → (s.team (s.call n).tid).larder.wf = true → (s.call n).first = none →
        let c := s.call n
        ∃ t, exec (.cellarCoreRetirement k) s = .next t ∧ (t.cellar k).out = true ∧ thas t.calls n = false ∧ (∀ m ∈ c.members, (t.cellar m).gid = 0) ∧
          (t.team c.tid).lread c.statusOff 16 = leBytes 4 3 ++ List.replicate 12 0)) ∧
    (∀ st ch bank, st < 16 → ch < 32 → bank < 128 →
      let i := 128 * ch + bank
      let die := st / 2
      let ev (code : Nat) := faultBytes 6 code 0 false (65536 * die) 0 0 (st + 16 * ch + 512 * bank)
      let w := (s.die die).widx
      (i ∈ (s.stack st).banksOut → exec (.rowSparing st ch bank) s = .next s) ∧
      (i ∉ (s.stack st).banksOut → FaultRoom s die 2 →
        ∃ t, exec (.rowSparing st ch bank) s = .next t ∧ tget 0 (t.stack st).spared i = tget 0 (s.stack st).spared i + 1 ∧
          t.homeRead (recordPa s die w) 32 = ev 4 ∧ die ∈ t.msiDue ∧ t.poison = s.poison ∧
          (∀ a, (a < recordPa s die w ∨ recordPa s die w + 32 ≤ a) → (a < recordPa s die (w + 1) ∨ recordPa s die (w + 1) + 32 ≤ a) →
            t.homeByte a = s.homeByte a) ∧
          (((t.die die).widx = (w + 1) % 65536 ∧ i ∉ (t.stack st).banksOut) ∨
            ((t.die die).widx = (w + 2) % 65536 ∧ i ∈ (t.stack st).banksOut ∧ t.homeRead (recordPa s die (w + 1)) 32 = ev 5))))

/-- Reset and boot: after a reset BOOTSTAT.STATE is 1 and the registers have their reset values; the boot code checks the key's digest, the signature
and the version, and BOOTSTAT says how the boot ended, with vector 8. The host reaches device memory once the module is ready; an access that the link, a
die link or a copy engine holds back waits (10 R187; 17 R344; 19 R357, R358, R361, R362). That what is not the module's own state stays (log 72), that no
way is converted after reset (log 4), the kinds of the answers in `hostOut` (log 1), the layouts of the key and of the signature (log 6), and the order in
which accesses that wait go on (log 133) are the model's choices. -/
def Obligations.BootAndHostMemory : Prop :=
  ∀ (s : State),
    (∀ b, ∃ t, exec (.moduleReset b) s = .next t ∧ t.bootstat = 1 ∧ t.boot = b ∧ t.now = 0 ∧ t.groups = [] ∧ t.ctxs = [] ∧ t.queues = [] ∧
      t.teams = [] ∧ t.nodeid = 0x7FFFF ∧ t.porten = 0 ∧ t.wcage = 1000 ∧ t.ftmo = 1000 ∧ t.q0ctl = 0 ∧ t.pwrcap = 8000 ∧ t.herr = false ∧
      (∀ d, (t.die d).fbbase = 0) ∧ (∀ k, (t.stack k).hmaskCh = 0 ∧ (t.stack k).hmaskPc = 0 ∧ (t.stack k).ways = 0) ∧
      t.hostMem = s.hostMem ∧ t.fusedMin = s.fusedMin) ∧
    (∀ x xs, s.cur.mid = false → s.agenda = x :: xs → x.act = .bootEnds →
      step s = .next (State.bootEnds { s with agenda := xs, now := s.now + x.dt }).noted) ∧
    (s.bootstat.toNat % 16 ≠ 1 → s.bootEnds = s) ∧
    (s.bootstat.toNat % 16 = 1 →
      let b := s.boot
      let v := Config.imageVersion b.image
      let good := sha512 b.key = Config.keyDigest
      let signed := pssVerify b.key (sha512 b.image) b.signature = true
      let least := max Config.fusedVersion s.fusedMin
      let t := s.bootEnds
      8 ∈ t.msiDue ∧ t.mem = s.mem ∧ (¬ good → t.bootstat = 0x103) ∧ (good → ¬ signed → t.bootstat = 0x203) ∧
      (good → signed → v < least → t.bootstat = 0x303) ∧
      (good → signed → least ≤ v → t.bootstat = BitVec.ofNat 64 (2 ^ 32 * (v % 2 ^ 32) + if b.trained then 2 else 0x403))) ∧
    (∀ hpa n, s.hdmBase ≤ hpa → 0 < n →
      let pa := hpa - s.hdmBase
      let late := { s with hostWaits := s.hostWaits ++ [.read hpa n] }
      let poisoned := { s with hostOut := s.hostOut ++ [(3, n)] }
      pa / 256 = (pa + n - 1) / 256 → pa + n ≤ 2 ^ 40 →
      (¬ HostFree s (.read hpa n) → exec (.cxlMemRead hpa n) s = .next late) ∧
      (HostFree s (.read hpa n) →
        (s.booted = false → exec (.cxlMemRead hpa n) s = .next poisoned) ∧
        (s.booted = true → s.cut 0 (dieOfPa pa) = true ∨ s.recalls pa n = true → exec (.cxlMemRead hpa n) s = .next late) ∧
        (s.booted = true → s.cut 0 (dieOfPa pa) = false → s.recalls pa n = false →
          (s.homePoison pa n = true → exec (.cxlMemRead hpa n) s = .next poisoned) ∧
          (s.homePoison pa n = false →
            exec (.cxlMemRead hpa n) s = .next { s with hostOut := s.hostOut ++ [(2, leNat (s.homeRead pa n))] })))) ∧
    (∀ hpa data, s.hdmBase ≤ hpa → data ≠ [] →
      let pa := hpa - s.hdmBase
      let late := { s with hostWaits := s.hostWaits ++ [.write hpa data] }
      pa / 256 = (pa + data.length - 1) / 256 → pa + data.length ≤ 2 ^ 40 →
      (¬ HostFree s (.write hpa data) → exec (.cxlMemWrite hpa data) s = .next late) ∧
      (HostFree s (.write hpa data) →
        (s.booted = false → ∃ t, exec (.cxlMemWrite hpa data) s = .next t ∧ t.mem = s.mem ∧ t.l2 = s.l2) ∧
        (s.booted = true → s.cut 0 (dieOfPa pa) = true ∨ s.recalls pa data.length = true → exec (.cxlMemWrite hpa data) s = .next late) ∧
        (s.booted = true → s.cut 0 (dieOfPa pa) = false → s.recalls pa data.length = false → s.mem.wf = true →
          ∃ t, exec (.cxlMemWrite hpa data) s = .next t ∧ t.hostOut = s.hostOut ++ [(4, hpa)] ∧ t.homeRead pa data.length = data ∧
            (∀ a, (a < pa ∨ pa + data.length ≤ a) → t.homeByte a = s.homeByte a) ∧ t.groups = s.groups ∧ t.teams = s.teams))) ∧
    (∀ vec, vec < 9 →
      (s.msiReady vec = false → exec (.msiXMessage vec) s = .next s) ∧
      (vec ∈ s.msiDue → s.down.contains .cxl = false → (thas s.msiAt vec = false ∨ tget 0 s.msiAt vec + 4000 ≤ s.now) →
        exec (.msiXMessage vec) s = .next { s with msiDue := s.msiDue.filter (· != vec), msiAt := tput s.msiAt vec s.now,
                                                   hostOut := s.hostOut ++ [(0, vec)] }))

/-- The registers of BAR0: what each write does, and what it leaves; an access that the link holds back waits; a read of 8 bytes answers the register, and
HSTAT's clears HERR (09 R175 to R177; 10 R197; 12 Table 12.3; 17 R335; 19 R357, R359, R360, R364). That a second enable of Q0CTL makes queue 0 anew (log 75),
that RIDX only moves forward (log 74), the kind 1 of an answer (log 1) and the order of accesses that wait (log 133) are the model's choices. -/
def Obligations.HostRegisters : Prop :=
  ∀ (s : State) (i : Instr) (off : Nat) (v : Dword), registerOf i = some (off, v) →
    (¬ HostFree s (.regRead 8 8) → exec i s = .next { s with hostWaits := s.hostWaits ++ [.regWrite off 8 v] }) ∧
    (HostFree s (.regRead 8 8) → s.booted = false ∨ off % 8 ≠ 0 → exec i s = .next s) ∧
    (Answers s →
      let n := v.toNat
      let refused := { s with herr := true }
      (off = 0x10 → (s.porten = 0 → exec i s = .next { s with nodeid := v.truncate 19 }) ∧ (s.porten ≠ 0 → exec i s = .next refused)) ∧
      (off = 0x18 → exec i s = .next { s with porten := v.truncate 32 }) ∧
      (off = 0x20 → exec i s = .next (if 64 ≤ n % 2 ^ 17 ∧ n % 2 ^ 17 ≤ 64000 then { s with wcage := n % 2 ^ 17 } else s)) ∧
      (off = 0x28 → exec i s = .next (if 10 ≤ n % 2 ^ 20 ∧ n % 2 ^ 20 ≤ 1000000 then { s with ftmo := n % 2 ^ 20 } else s)) ∧
      (off = 0x40 → (s.q0ctl.getLsbD 31 = true → exec i s = .next refused) ∧
        (s.q0ctl.getLsbD 31 = false → exec i s = .next { s with q0ring := v &&& 0xFFFFFFFFC0 })) ∧
      (off = 0x48 →
        (v.getLsbD 31 = true → ¬ (6 ≤ n % 32 ∧ n % 32 ≤ 16) → exec i s = .next refused) ∧
        (v.getLsbD 31 = true → 6 ≤ n % 32 → n % 32 ≤ 16 →
          ∃ t, exec i s = .next t ∧ t.q0ctl = v &&& 0x8000001F ∧ (t.queue 0).used = true ∧ (t.queue 0).priv = true ∧ (t.queue 0).cls = 0 ∧
            (t.queue 0).entries = 2 ^ (n % 32) ∧ (t.queue 0).ring = s.q0ring.toNat ∧ (∀ k, k ≠ 0 → t.queue k = s.queue k) ∧ t.mem = s.mem) ∧
        (v.getLsbD 31 = false →
          ∃ t, exec i s = .next t ∧ t.q0ctl = v &&& 0x8000001F ∧ t.queue 0 = { s.queue 0 with used := false } ∧
            (∀ k, k ≠ 0 → t.queue k = s.queue k) ∧ t.mem = s.mem)) ∧
      (off = 0x200 → (2000 ≤ n % 65536 → n % 65536 ≤ 8000 →
          ∃ t, exec i s = .next t ∧ t.pwrcap = BitVec.ofNat 16 (n % 65536) ∧ { t with pwrcap := s.pwrcap, clearSince := s.clearSince } = s) ∧
        (n % 65536 < 2000 ∨ 8000 < n % 65536 → exec i s = .next refused)) ∧
      (∀ d, d < 8 →
        (off = 0x100 + 16 * d →
          ∃ t, exec i s = .next t ∧ (∀ k, k ≠ d → t.die k = s.die k) ∧ t.mem = s.mem ∧
            (t.die d = { s.die d with fbbase := v &&& 0xFFFFFE0001, fbPend := none } ∨ t.die d = { s.die d with fbPend := some v })) ∧
        (off = 0x108 + 16 * d → (s.die d).ridx < 65536 → (s.die d).widx < 65536 →
          let r := n / 65536 % 65536
          let ahead (x : Nat) := (x + 65536 - (s.die d).ridx) % 65536
          (ahead r ≤ ahead (s.die d).widx → exec i s = .next (s.setD d fun x => { x with ridx := r })) ∧
          (ahead (s.die d).widx < ahead r → exec i s = .next s))) ∧
      (∀ k, k < 16 →
        let h := s.stack k
        let w : Word := v.truncate 32 &&& 0x8000003F
        FoldLegal h.hmaskCh h.hmaskPc → s.mem.wf = true →
        (off = 0x400 + 8 * k →
          (13 ≤ n % 64 → n % 64 ≤ 31 → ∃ t, exec i s = .next t ∧ FoldWritten s t k w h.hmaskPc { h with chPend := some w }) ∧
          (n % 64 < 13 ∨ 31 < n % 64 → exec i s = .next (s.setS k fun x => { x with err := true }))) ∧
        (off = 0x480 + 8 * k →
          (13 ≤ n % 64 → n % 64 ≤ 35 → ∃ t, exec i s = .next t ∧ FoldWritten s t k h.hmaskCh w { h with pcPend := some w }) ∧
          (n % 64 < 13 ∨ 35 < n % 64 → exec i s = .next (s.setS k fun x => { x with err := true }))))) ∧
    (¬ HostFree s (.regRead 8 8) → exec .hstatRead s = .next { s with hostWaits := s.hostWaits ++ [.regRead 8 8] }) ∧
    (HostFree s (.regRead 8 8) → s.booted = false → exec .hstatRead s = .next { s with hostOut := s.hostOut ++ [(1, 0)] }) ∧
    (Answers s → exec .hstatRead s = .next { s with herr := false, hostOut := s.hostOut ++
        [(1, s.hstatWidth + 256 * s.hstatRate + 65536 * (if s.herr then 1 else 0))] }) ∧
    (HostFree s (.regRead 8 8) →
      let reads (o n : Nat) : Prop := s.hostAccess (.regRead o 8) = { s with hostOut := s.hostOut ++ [(1, n)] }
      reads 0 s.bootstat.toNat ∧
      (s.booted = true → reads 0x10 s.nodeid.toNat ∧ reads 0x18 s.porten.toNat ∧ reads 0x20 s.wcage ∧ reads 0x28 s.ftmo ∧ reads 0x40 s.q0ring.toNat ∧
        reads 0x48 s.q0ctl.toNat ∧ reads 0x200 s.pwrcap.toNat ∧ reads 0x208 s.pwrstat ∧
        (∀ d, d < 8 → reads (0x100 + 16 * d) (s.die d).fbbase.toNat ∧ reads (0x108 + 16 * d) (s.die d).fbstat) ∧
        ∀ k, k < 16 → reads (0x400 + 8 * k) (s.stack k).hmaskCh.toNat ∧ reads (0x480 + 8 * k) (s.stack k).hmaskPc.toNat ∧
          reads (0x500 + 8 * k) (s.stack k).hstatus) ∧
      ∀ o w, w ≠ 8 → s.hostAccess (.regRead o w) = { s with hostOut := s.hostOut ++ [(1, 0)] } ∧ s.hostAccess (.regWrite o w v) = s) ∧
    (∀ k w, k < 16 → FoldLegal (s.stack k).hmaskCh (s.stack k).hmaskPc → s.mem.wf = true →
      ((s.stack k).chPend = none → exec (.configPendingApply (.hmaskCh k)) s = .next s) ∧
      ((s.stack k).chPend = some w → FoldLegal w (s.stack k).hmaskPc →
        ∃ t, exec (.configPendingApply (.hmaskCh k)) s = .next t ∧ Refolded s t k w (s.stack k).hmaskPc ∧ (t.stack k).chPend = none) ∧
      ((s.stack k).pcPend = none → exec (.configPendingApply (.hmaskPc k)) s = .next s) ∧
      ((s.stack k).pcPend = some w → FoldLegal (s.stack k).hmaskCh w →
        ∃ t, exec (.configPendingApply (.hmaskPc k)) s = .next t ∧ Refolded s t k (s.stack k).hmaskCh w ∧ (t.stack k).pcPend = none)) ∧
    (∀ d, d < 8 →
      ((s.die d).fbPend = none → exec (.configPendingApply (.fbbase d)) s = .next s) ∧
      (∀ x, (s.die d).fbPend = some x →
        exec (.configPendingApply (.fbbase d)) s = .next (s.setD d fun y => { y with fbbase := x &&& 0xFFFFFE0001, fbPend := none })))

/-- Attestation and monitoring answer once the module is ready; a signature covers the requester's nonce; measurements are SHA-512 digests; PWRCAP is
written over the management path, whatever the host link does; power and heat act on the clock alone, by 125 MHz and 10 µs, and stop work from 105 degrees
until below 90, the waiting times of groups standing still (19 R362 to R365). The framing of answers, the padding of a signature and the images measured as
indices 3 and 4 are the model's (log 6); own nonces, salts and the coolant's byte are free values (log 2). -/
def Obligations.Management : Prop :=
  ∀ (s : State),
    let told (b : List Byte) := { s with mgmtOut := s.mgmtOut ++ [b] }
    let quiet (i : Instr) : Prop := ∃ t, exec i s = .next t ∧ t.mgmtOut = s.mgmtOut
    let chain := Config.certificateChain
    (s.booted = false → ∀ nonce offer off len idx, quiet .getVersion ∧ quiet .getCapabilities ∧ quiet (.negotiateAlgorithms offer) ∧ quiet .getDigests ∧
      quiet (.getCertificate off len) ∧ quiet (.challenge nonce) ∧ quiet (.getMeasurements idx nonce) ∧ quiet .pldmMonitor) ∧
    (s.booted = true →
      exec .getVersion s = .next (told [0x10, 0x04, 0, 0, 0, 1, 0, 0x12]) ∧
      exec .getCapabilities s = .next (told [0x12, 0x61, 0, 0, 0, 0, 0, 0, 0x16, 0, 0, 0]) ∧
      (∀ offer, offer.length = 8 → bitOf (fieldAt offer 0 4) 6 = true → bitOf (fieldAt offer 4 4) 2 = true →
        exec (.negotiateAlgorithms offer) s = .next (told [0x12, 0x63, 0, 0, 0x40, 0, 0, 0, 4, 0, 0, 0])) ∧
      exec .getDigests s = .next (told ([0x12, 0x01, 0, 1] ++ sha512 chain)) ∧
      (∀ off len, off + len ≤ chain.length →
        exec (.getCertificate off len) s =
          .next (told ([0x12, 0x02, 0, 0] ++ leBytes 2 len ++ leBytes 2 (chain.length - off - len) ++ (chain.drop off).take len))) ∧
      (∀ nonce, nonce.length = 32 → ∃ t own salt, exec (.challenge nonce) s = .next t ∧ own.length = 32 ∧ salt.length = 64 ∧
        (let body := [0x12, 0x03, 0, 1] ++ sha512 chain ++ own
         t.mgmtOut = s.mgmtOut ++ [body ++ deviceSign (nonce ++ body) salt]) ∧ { t with mgmtOut := s.mgmtOut, fresh := s.fresh } = s) ∧
      (∀ k nonce, nonce.length = 32 → 1 ≤ k → k ≤ 4 → ∃ t own salt, exec (.getMeasurements k nonce) s = .next t ∧ own.length = 32 ∧ salt.length = 64 ∧
        (let what := if k = 1 then Config.bootCode else if k = 2 then s.boot.image
           else if k = 3 then Config.fusedImage (max Config.fusedVersion s.fusedMin) Config.keyDigest else Config.spareImage s.boot.cores s.boot.spares s.boot.rows
         let body := [0x12, 0x60, 0, 0, 1] ++ leBytes 1 k ++ sha512 what ++ own
         t.mgmtOut = s.mgmtOut ++ [body ++ deviceSign (nonce ++ body) salt]) ∧ { t with mgmtOut := s.mgmtOut, fresh := s.fresh } = s) ∧
      (∃ t k, exec .pldmMonitor s = .next t ∧ k < 256 ∧ t.mgmtOut = s.mgmtOut ++ [leBytes 8 s.pwrstat ++ leBytes 1 k] ∧
        { t with mgmtOut := s.mgmtOut, fresh := s.fresh } = s)) ∧
    (∀ v, let n := v.toNat % 2 ^ 16
      (s.booted = false → exec (.pwrcapWrite ⟨true, v⟩) s = .next s) ∧
      (s.booted = true → 2000 ≤ n → n ≤ 8000 →
        ∃ t, exec (.pwrcapWrite ⟨true, v⟩) s = .next t ∧ t.pwrcap = BitVec.ofNat 16 n ∧ { t with pwrcap := s.pwrcap, clearSince := s.clearSince } = s) ∧
      (s.booted = true → n < 2000 ∨ 8000 < n → exec (.pwrcapWrite ⟨true, v⟩) s = .next { s with herr := true })) ∧
    (∀ v, exec (.fusedMinimumRaise v) s = .next (if s.booted then { s with fusedMin := max s.fusedMin v } else s)) ∧
    (let hot := s.pwrcap.toNat < s.power ∨ 95 ≤ s.temp
     let due := s.clockAt + 40000 ≤ s.now
     (hot → due → 1125 ≤ s.clock →
       ∃ t, exec .powerStepDown s = .next t ∧ t.clock = s.clock - 125 ∧ t.clockAt = s.now ∧
         { t with clock := s.clock, clockAt := s.clockAt, msiDue := s.msiDue } = s) ∧
     ((¬ hot ∨ ¬ due ∨ s.clock ≤ 1000) → exec .powerStepDown s = .next s) ∧
     (∀ x, s.clearSince = some x → ¬ hot → due → x + 4000000 ≤ s.now → s.clock < 4000 →
       ∃ t, exec .powerStepUp s = .next t ∧ t.clock = s.clock + 125 ∧ t.clockAt = s.now ∧
         { t with clock := s.clock, clockAt := s.clockAt, msiDue := s.msiDue } = s) ∧
     (s.clearSince = none ∨ hot ∨ ¬ due ∨ 4000 ≤ s.clock → exec .powerStepUp s = .next s)) ∧
    (105 ≤ s.temp → s.thermalStop = false →
      ∃ t, exec .thermalStop s = .next t ∧ t.thermalStop = true ∧ t.stoppedAt = s.now ∧ 8 ∈ t.msiDue ∧
        { t with thermalStop := s.thermalStop, msiDue := s.msiDue, stoppedAt := s.stoppedAt } = s) ∧
    (s.temp < 105 ∨ s.thermalStop = true → exec .thermalStop s = .next s) ∧
    (s.temp < 90 → s.thermalStop = true →
      ∃ t, exec .thermalResume s = .next t ∧ t.thermalStop = false ∧
        (∀ g, thas s.groups g = true → t.grp g = { s.grp g with readySince := (s.grp g).readySince + (s.now - s.stoppedAt) }) ∧
        { t with thermalStop := s.thermalStop, msiDue := s.msiDue, groups := s.groups } = s) ∧
    (90 ≤ s.temp ∨ s.thermalStop = false → exec .thermalResume s = .next s)

/-! ### Encoding, a step, reset -/

/-- Words written out field by field from 03 Tables 3.1, 3.3, 3.6 and 3.7 decode to the instructions they stand for; an unassigned major, an
unassigned minor, a reserved field and a repeated prefix are refused (03 R50 to R61). -/
def Obligations.DecodeWords : Prop :=
  decode {} 0b000_10000010_00000001_00011_000000_1_1 = .ok (.iadd .i32 3 (.v 1 .straight) (.s 2) true) ∧
  decode {} 0b011_10011111_01000101_00100_000010_0_1 = .ok (.imul .wideI32 4 (.v 5 .xor) (.s 31) false) ∧
  decode {} 0b11111111111_00001000_00111_001100_0_1 = .ok (.iaddi 7 (.v 8 .straight) 0x7FF false) ∧
  decode {} 0b0011_00_101_00110_00111_01000_011101_0_1 = .ok (.qnt 3 5 6 7 8 false) ∧
  decode {} 0b101_00000000_00000100_00011_100011_0_1 = .ok (.scanl .maxI32 true 3 (.v 4 .straight) false) ∧
  decode {} 0b000_11111_111111_00101_00_111_101000_0_1 = .ok (.tload true 31 63 5 7 false) ∧
  decode {} 0b0101_001_1111111_1000000_010_101100_0_1 = .ok (.mmaq true 1 127 64 2 false) ∧
  decode {} 0b110_11111_111111_00101_00110_110000_0_1 = .ok (.ldg .s16 31 63 5 6 false) ∧
  decode {} 0b001_00001_000010_00011_00100_111001_0_1 = .ok (.atomxCas 1 2 3 4 false) ∧
  decode {} 0b111111111111111111_0_1_0100_111100_0_1 = .ok (.brCond 0x3FFFF true 4 false) ∧
  decode {} 0b010110_000_111111111111111_111110_0_1 = .ok (.trap 0x7FFF false) ∧
  decode {} 0b011001_000_0000110001_00100_111110_0_1 = .ok (.sysr 0x31 4 false) ∧
  decode {} 0b1_00011_00100_0000_0 = .ok (.iaddC16 true 3 4) ∧ decode {} 0b1_00000_00100_1001_0 = .ok (.moviC16 0x20 4) ∧
  decode {} 0b1111111111111111111111_00_111111_0_1 = .ok (.lit 0x3FFFFF) ∧
  decode {} 0b000_00000000_00000000_00000_011011_0_1 = .error .unassignedMajor ∧
  decode {} 0b111_00000000_00000000_00000_000010_0_1 = .error (.unassignedMinor 29 31) ∧
  decode {} 0b000000_001_00000_00000_00000_111110_0_1 = .error (.reservedField 23 25 .instr) ∧
  decode { lit := some 0 } 0b0000000000000000000000_00_111111_0_1 = .error (.prefixRepeated 1)

/-- No bit of an encoding is dropped: a well-formed instruction that has a word is what its word decodes to, and its word fits its length (03 R46,
R50 to R60). -/
def Obligations.DecodeOfEncode : Prop :=
  ∀ (i : Instr) (w : Nat), encode? i = some w → i.WellFormed → decode {} w = .ok i ∧ (w % 2 = 0 → w < 2 ^ 16) ∧ w < 2 ^ 32

/-- A step runs the instruction that the bytes at the program counter decode to: the next word of the sequence under way, or the first word of the
issue whose turn it is; before it, the word joins the sequence and the PC of the next word moves past it. A step of the module runs as itself. After each
step the arbiters note what they see, which changes nothing else: since when a group is ready or a team fits nowhere, what holds a fibre's next
instruction, where a queue's header lies. Which agent comes next is an input of the model (03 R46, R54, R62; 13 R258, R264, R265, R269; log 1); a core's
instruction cache serves a sector that it holds (log 103), a guest at a cellar core whose PC lies in its image fetches the program store (log 104), and
what a trial of a fibre's instruction finds (log 123) are the model's choices. -/
def Obligations.StepRunsDecoded : Prop :=
  ∀ (s : State),
    (∀ ps i, s.cur.mid = true → s.fetchWord = (ps, .ok ()) → decode s.cur.pre (wordOf ps) = .ok i → step s = noteOut (exec i (s.took ps))) ∧
    (∀ ps f, s.cur.mid = true → s.fetchWord = (ps, .ok ()) → decode s.cur.pre (wordOf ps) = .error f →
      step s = noteOut (exec (.unassignedEncoding f) (s.took ps))) ∧
    (∀ x xs gid pc, s.cur.mid = false → s.agenda = x :: xs → x.act = .issue gid pc →
      let w := { s with agenda := xs, now := s.now + x.dt }
      let u := w.startIssue gid pc
      (w.batchAt gid pc = 0 → step s = .next w.noted) ∧
      (w.batchAt gid pc ≠ 0 → u.cur.gid = gid ∧ u.cur.mask = w.batchAt gid pc ∧ u.cur.pc = pc ∧ u.cur.npc = pc ∧ u.cur.parcels = [] ∧ u.cur.pre = {} ∧
        (∀ ps i, u.fetchWord = (ps, .ok ()) → decode {} (wordOf ps) = .ok i → step s = noteOut (exec i (u.took ps))) ∧
        (∀ ps f, u.fetchWord = (ps, .ok ()) → decode {} (wordOf ps) = .error f → step s = noteOut (exec (.unassignedEncoding f) (u.took ps))) ∧
        ∀ ps f, u.fetchWord = (ps, .error f) → step s = .next ((u.took ps).halt f).noted)) ∧
    (∀ x xs i, s.cur.mid = false → s.agenda = x :: xs → x.act = .event i → encode? i = none →
      step s = noteOut (exec i { s with agenda := xs, now := s.now + x.dt })) ∧
    (∀ t, noteOut (.next t) = .next t.noted ∧ (∀ f, noteOut (.fault f) = .fault f) ∧ (∀ r, noteOut (.refused r) = .refused r) ∧
      { t.noted with groups := t.groups, teams := t.teams, grids := t.grids, queues := t.queues } = t ∧
      (∀ k, { t.noted.grp k with wasReady := (t.grp k).wasReady, readySince := (t.grp k).readySince, fibres := (t.grp k).fibres } = t.grp k) ∧
      (∀ k l, let f := (t.grp k).fib l
        { (t.noted.grp k).fib l with wait := f.wait, waitSince := f.waitSince, movingOver := f.movingOver } = f) ∧
      (∀ q, { t.noted.queue q with hdr := (t.queue q).hdr } = t.queue q) ∧
      (∀ k, { t.noted.team k with noFit := (t.team k).noFit } = t.team k) ∧ ∀ k, { t.noted.grid k with noFit := (t.grid k).noFit } = t.grid k) ∧
    (∀ ps, (s.took ps).cur = { s.cur with parcels := s.cur.parcels ++ ps, npc := s.cur.npc + BitVec.ofNat 64 (2 * ps.length),
                                          c16 := !ps.isEmpty && ps.all (fun p => !p.getLsbD 0), mid := false } ∧
      { s.took ps with cur := s.cur, dies := s.dies, cores := s.cores } = s ∧ (∀ k, { (s.took ps).die k with tlb := (s.die k).tlb } = s.die k) ∧
      ∀ k, { (s.took ps).core k with tlb := (s.core k).tlb, icache := (s.core k).icache } = s.core k) ∧
    (∀ p q, s.fetchParcel s.cur.npc.toNat = .ok p → s.fetchParcel ((s.cur.npc.toNat + 2) % 2 ^ 64) = .ok q →
      (p.getLsbD 0 = false → s.fetchWord = ([p], .ok ())) ∧ (p.getLsbD 0 = true → s.fetchWord = ([p, q], .ok ()))) ∧
    (∀ a pa pol pte, s.g.call = none → s.storeOff a = none → s.isLocal a = true → s.xlate s.g.die s.g.ctx a .fetch true s.g.tlbCore = .ok (.dev pa pol) pte →
      (∀ bs, s.codeSector (pa / 64) = some bs → s.fetchParcel a = .ok (BitVec.ofNat 16 (fieldAt bs (pa % 64) 2))) ∧
      (s.codeSector (pa / 64) = none → s.cut s.g.die (dieOfPa pa) = false → s.homePoison pa 2 = false →
        s.fetchParcel a = .ok (BitVec.ofNat 16 (s.homeField pa 2)))) ∧
    (∀ a off, s.g.call = none → s.storeOff a = some off → s.storeParcel a off = s.fetchParcel a) ∧
    (∀ a, s.g.call ≠ none → a + 2 ≤ (s.cellar s.g.place).store.length → s.storeParcel a a = s.fetchParcel a)

/-- After reset, before the boot code runs, the registers hold the values that the spec gives: NODEID 0x7FFFF, PORTEN 0, WCAGE 1,000, FTMO 1,000,
queue 0 disabled, PWRCAP 8,000, BOOTSTAT 0, HERR clear, every fault buffer and fold register 0, every context and queue free; the clock stands at 0
and no group exists. Memory is in its canonical form. Q0RING 0, HSTAT 0, no converted way and the clock at 4,000 MHz are the model's choice (log 4)
(09 Tables 9.5, 9.6; 10 Table 10.8;
12 Table 12.3; 17 Tables 17.3, 17.4; 19 Tables 19.1 to 19.3). -/
def Obligations.ResetValues : Prop :=
  let s := State.reset
  s.nodeid = 0x7FFFF ∧ s.porten = 0 ∧ s.wcage = 1000 ∧ s.ftmo = 1000 ∧ s.q0ctl = 0 ∧ s.q0ring = 0 ∧ s.pwrcap = 8000 ∧ s.bootstat = 0 ∧ s.herr = false ∧
    s.now = 0 ∧ s.clock = 4000 ∧ s.thermalStop = false ∧ s.groups = [] ∧ s.teams = [] ∧ MemoryCanonical s ∧
    (∀ d, (s.die d).fbbase = 0 ∧ (s.die d).fbstat = 0 ∧ (s.die d).loft.wf = true) ∧
    (∀ k, (s.stack k).hmaskCh = 0 ∧ (s.stack k).hmaskPc = 0 ∧ (s.stack k).ways = 0 ∧ (s.stack k).scratch.wf = true) ∧
    (∀ c, (s.ctx c).phase = .free) ∧ (∀ q, (s.queue q).used = false) ∧ (∀ c, (s.core c).out = false) ∧ (∀ k, (s.cluster k).bins.wf = true) ∧
    LimitsKept s ∧ exec .hstatRead s = .next { s with hostOut := [(1, 0)] }

/-- The intervals, the power cap and the clock stay within their limits in every step: WCAGE 64 to 64,000 ns, FTMO 10 to 1,000,000 µs, PWRCAP 2,000
to 8,000 W, the 4 GHz domains' clock 1 to 4 GHz in steps of 125 MHz (10 R197; 12 Table 12.3; 19 R364, Table 19.3). -/
def Obligations.StepKeepsLimits : Prop := ∀ (s t : State), LimitsKept s → step s = .next t → LimitsKept t

/-- Memory stays in its canonical form in every step: device memory, the L2s' dirty bytes, host memory, larders, scratch, lofts, bins and the L1s'
bytes, so that equal memories are equal data (09 R173; log 3). -/
def Obligations.StepKeepsMemory : Prop := ∀ (s t : State), MemoryCanonical s → step s = .next t → MemoryCanonical t

/-- Translation: the walk from the context's root over three tables, the first row of R314 that an entry matches, permissions, the stall on MOVING,
and a held entry (16 R312 to R317); an LDG with no translation leaves its group replayable at the instruction with a record of KIND 0x01, and
nothing read or written (13 R266; 17 R335, R337). -/
def Obligations.Translation : Prop :=
  ∀ (s : State),
    (∀ die ctx va acc user, s.tlbFind die ctx va = none → (∀ d, s.cut die d = false) →
      let e1 := s.homeField ((s.ctx ctx).fld 0 8 + 8 * (va / 2 ^ 35 % 1024)) 8
      let e2 := s.homeField (pteAddr e1 + 8 * (va / 2 ^ 25 % 1024)) 8
      let e3 := s.homeField (pteAddr e2 + 8 * (va / 2 ^ 16 % 512)) 8
      let table (e lv size : Nat) : Prop := pteCheck e lv size = none ∧ bitOf e 1 = false ∧ bitOf e 7 = false
      let there (e size : Nat) : Target :=
        let pa := e / 2 ^ 13 % 2 ^ 39 * 2 ^ 13 + va % size
        if bitOf e 9 then .host pa else .dev pa (if bitOf e 10 then 2 else e / 2 ^ 11 % 4)
      let leaf (e lv size : Nat) : Prop :=
        (bitOf e 0 = false → s.xlate die ctx va acc user = .replay 1 lv) ∧
        (bitOf e 0 = true → bitOf e 1 = true → bitOf e 8 = true → s.xlate die ctx va acc user = .replay 2 lv) ∧
        (pteCheck e lv size = none → bitOf e 1 = true →
          (acc = .write → bitOf e 7 = true → s.xlate die ctx va acc user = .moving lv) ∧
          ((acc = .write → bitOf e 7 = false) →
            (user = true → bitOf e 4 = false → s.xlate die ctx va acc user = .prot true) ∧
            ((user = true → bitOf e 4 = true) →
              (acc = .write → bitOf e 2 = false → s.xlate die ctx va acc user = .prot false) ∧
              (acc = .fetch → bitOf e 3 = false → s.xlate die ctx va acc user = .prot false) ∧
              ((acc = .write → bitOf e 2 = true) → (acc = .fetch → bitOf e 3 = true) →
                s.xlate die ctx va acc user = .ok (there e size) e))))
      leaf e1 1 (2 ^ 35) ∧ (table e1 1 (2 ^ 35) → leaf e2 2 (2 ^ 25)) ∧
      (table e1 1 (2 ^ 35) → table e2 2 (2 ^ 25) → leaf e3 3 (2 ^ 16) ∧ (bitOf e3 0 = true → bitOf e3 1 = false → s.xlate die ctx va acc user = .replay 8 3))) ∧
    (∀ die ctx va x, s.tlbFind die ctx va = some x → bitOf x.pte.toNat 4 = true →
      s.xlate die ctx va .read true = .ok (leafTarget x.pte.toNat x.size va) x.pte.toNat) ∧
    (∀ die core ctx va x, tlbHit (s.core core).tlb ctx va = some x → bitOf x.pte.toNat 4 = true →
      s.xlate die ctx va .read true (some core) = .ok (leafTarget x.pte.toNat x.size va) x.pte.toNat) ∧
    (∀ z i p (r d : Reg) e as a why lv, Ready s avVec [vsrc r (addrRegs (s.poolIdx p)), vdst d (sizeRegs z)] → s.g.kind = .core → s.g.guest = none →
      s.g.ld < 63 → s.formAddrs r (s.poolIdx p) (s.immM i * sizeBytes z) (sizeBytes z) false = .ok as →
      s.locateAll as (sizeBytes z) .read = .error (.replay a why lv) → FaultRoom s s.g.die 1 →
      (s.die s.g.die).records = [] → (s.die s.g.die).waiting = [] →
      ∃ t, exec (.ldg z i p r d e) s = .next t ∧ (t.grp s.cur.gid).hold = some .replay ∧
        (∀ l, ((t.grp s.cur.gid).fib l).pc = (s.g.fib l).pc ∧ ((t.grp s.cur.gid).fib l).preds = (s.g.fib l).preds) ∧
        (t.grp s.cur.gid).v = s.g.v ∧ (t.grp s.cur.gid).sregs = s.g.sregs ∧ (t.grp s.cur.gid).returns = s.g.returns ∧ (t.grp s.cur.gid).ld = s.g.ld ∧
        Recorded s t s.g.die (faultBytes 1 (if why = 8 then 0x15 else 8) s.g.ctx false s.g.who s.cur.pc.toNat a (why + 256 * lv)) ∧ t.cur = {})
end

