-- ==== Sys2Proof/Laws/Memory.lean ====
section
/-! SUPPORT. Laws of byte memories: every operation keeps the canonical form, a read after a write, and equal readings are equal data. -/
namespace Sys2Proof.Machine

theorem wfFrom_mono {lo hi : Nat} (h : lo ≤ hi) : ∀ {m : Memory}, wfFrom hi m = true → wfFrom lo m = true
  | [], _ => rfl
  | (a, b) :: m, hm => by
    simp only [wfFrom, Bool.and_eq_true, decide_eq_true_eq] at hm ⊢
    exact ⟨⟨le_trans h hm.1.1, hm.1.2⟩, hm.2⟩

theorem mread_below : ∀ {m : Memory} {lo a : Nat}, wfFrom lo m = true → a < lo → mread m a = 0
  | [], _, _, _, _ => rfl
  | (j, b) :: m, lo, a, h, ha => by
    simp only [wfFrom, Bool.and_eq_true, decide_eq_true_eq] at h
    have hj : j ≠ a := by omega
    simp only [mread, hj, if_false]
    exact mread_below h.2 (by omega)

theorem wfFrom_cons {lo j : Nat} {c : Byte} {m : Memory} : wfFrom lo ((j, c) :: m) = true ↔ (lo ≤ j ∧ c ≠ 0) ∧ wfFrom (j + 1) m = true := by
  simp only [wfFrom, Bool.and_eq_true, decide_eq_true_eq, bne_iff_ne]

theorem wfFrom_mwrite : ∀ {m : Memory} {lo a : Nat} (b : Byte), wfFrom lo m = true → lo ≤ a → wfFrom lo (mwrite m a b) = true
  | [], lo, a, b, _, ha => by
    rw [mwrite]
    split
    · rfl
    · next hb => exact wfFrom_cons.2 ⟨⟨ha, hb⟩, rfl⟩
  | (j, c) :: m, lo, a, b, h, ha => by
    obtain ⟨⟨hj, hc⟩, hm⟩ := wfFrom_cons.1 h
    rw [mwrite]
    split
    · next h1 =>
      split
      · exact h
      · next hb => exact wfFrom_cons.2 ⟨⟨ha, hb⟩, wfFrom_cons.2 ⟨⟨h1, hc⟩, hm⟩⟩
    · next h1 =>
      split
      · next h2 =>
        split
        · exact wfFrom_mono (by omega) hm
        · next hb => exact wfFrom_cons.2 ⟨⟨ha, hb⟩, h2 ▸ hm⟩
      · exact wfFrom_cons.2 ⟨⟨hj, hc⟩, wfFrom_mwrite b hm (by omega)⟩

/-- A byte written keeps the canonical form. -/
theorem wf_mwrite {m : Memory} (h : m.wf = true) (a : Nat) (b : Byte) : (mwrite m a b).wf = true :=
  wfFrom_mwrite b h (Nat.zero_le a)

/-- Bytes written keep the canonical form. -/
theorem wf_mwrites {m : Memory} (h : m.wf = true) (a : Nat) (bs : List Byte) : (mwrites m a bs).wf = true := by
  induction bs generalizing m a with
  | nil => exact h
  | cons b bs ih => exact ih (wf_mwrite h a b) (a + 1)

theorem wfFrom_filter (p : Host.Cell → Bool) : ∀ {m : Memory} {lo : Nat}, wfFrom lo m = true → wfFrom lo (m.filter p) = true
  | [], _, _ => rfl
  | (j, c) :: m, lo, h => by
    simp only [wfFrom, Bool.and_eq_true, decide_eq_true_eq] at h
    by_cases hp : p (j, c) = true
    · simp only [List.filter_cons, hp, if_true, wfFrom, Bool.and_eq_true, decide_eq_true_eq]
      exact ⟨h.1, wfFrom_filter p h.2⟩
    · simp only [List.filter_cons, hp]
      exact wfFrom_mono (by omega) (wfFrom_filter p h.2)

/-- A range cleared keeps the canonical form. -/
theorem wf_mclear {m : Memory} (h : m.wf = true) (a n : Nat) : (mclear m a n).wf = true := wfFrom_filter _ h

theorem mread_cons (j n : Nat) (c : Byte) (m : Memory) : mread ((j, c) :: m) n = if j = n then c else mread m n := rfl

theorem mread_mwrite_from : ∀ {m : Memory} {lo : Nat} (a n : Nat) (b : Byte), wfFrom lo m = true →
    mread (mwrite m a b) n = if n = a then b else mread m n
  | [], _, a, n, b, _ => by
    rw [mwrite]
    split
    · next hb => rw [hb]; split <;> rfl
    · rw [mread_cons]; exact if_congr eq_comm rfl rfl
  | (j, c) :: m, lo, a, n, b, h => by
    have hm := (wfFrom_cons.1 h).2
    rw [mwrite]
    split
    · next h1 =>
      have h0 : mread ((j, c) :: m) a = 0 := mread_below (wfFrom_cons.2 ⟨⟨le_refl j, (wfFrom_cons.1 h).1.2⟩, hm⟩) h1
      split
      · next hb =>
        split
        · next hn => rw [hn, h0, hb]
        · rfl
      · rw [mread_cons]; exact if_congr eq_comm rfl rfl
    · next h1 =>
      split
      · next h2 =>
        have h0 : mread m a = 0 := mread_below hm (by omega)
        split
        · next hb =>
          rw [mread_cons]
          split
          · next hn => rw [hn, h0, hb]
          · next hn => rw [if_neg (by omega)]
        · rw [mread_cons, mread_cons]
          split
          · next hn => rw [if_pos hn.symm]
          · next hn => rw [if_neg (Ne.symm hn), if_neg (by omega)]
      · rw [mread_cons, mread_cons]
        split
        · next hj => rw [if_neg (by omega)]
        · exact mread_mwrite_from a n b hm

/-- A byte read after a byte is written. -/
theorem mread_mwrite {m : Memory} (h : m.wf = true) (a n : Nat) (b : Byte) : mread (mwrite m a b) n = if n = a then b else mread m n :=
  mread_mwrite_from a n b h

/-- A byte outside the bytes written reads as before. -/
theorem mread_mwrites_other {m : Memory} (h : m.wf = true) (a n : Nat) (bs : List Byte) (hn : n < a ∨ a + bs.length ≤ n) :
    mread (mwrites m a bs) n = mread m n := by
  induction bs generalizing m a with
  | nil => rfl
  | cons b bs ih =>
    simp only [List.length_cons] at hn
    rw [mwrites, ih (wf_mwrite h a b) (a + 1) (by omega), mread_mwrite h, if_neg (by omega)]

/-- Bytes read from where they were written. -/
theorem mreads_mwrites {m : Memory} (h : m.wf = true) (a : Nat) (bs : List Byte) : mreads (mwrites m a bs) a bs.length = bs := by
  induction bs generalizing m a with
  | nil => rfl
  | cons b bs ih =>
    rw [mwrites, List.length_cons, mreads, ih (wf_mwrite h a b) (a + 1), mread_mwrites_other (wf_mwrite h a b) (a + 1) a bs (by omega),
      mread_mwrite h, if_pos rfl]

end Sys2Proof.Machine
end

