-- ==== Sys2Proof/Laws/Tab.lean ====
section
/-! SUPPORT. Laws of tables by number: a read after an update of the same entry and of another. -/
namespace Sys2Proof.Machine

variable {α : Type}

@[simp] theorem tget_nil (d : α) (k : Nat) : tget d [] k = d := rfl

@[simp] theorem tget_tput_same (d : α) (t : Tab α) (k : Nat) (a : α) : tget d (tput t k a) k = a := by
  induction t with
  | nil => simp [tput, tget]
  | cons e t ih =>
    obtain ⟨j, b⟩ := e
    by_cases h : k < j
    · simp [tput, h, tget]
    · by_cases h2 : k = j
      · simp [tput, h2, tget]
      · simp [tput, h, h2, tget, Ne.symm h2, ih]

theorem tget_tput_other (d : α) (t : Tab α) (k n : Nat) (a : α) (hn : n ≠ k) : tget d (tput t k a) n = tget d t n := by
  induction t with
  | nil => simp [tput, tget, Ne.symm hn]
  | cons e t ih =>
    obtain ⟨j, b⟩ := e
    by_cases h : k < j
    · simp [tput, h, tget, Ne.symm hn]
    · by_cases h2 : k = j
      · simp [tput, h2, tget, h2 ▸ Ne.symm hn]
      · simp only [tput, h, h2, if_false, tget, ih]

theorem tget_tput (d : α) (t : Tab α) (k n : Nat) (a : α) : tget d (tput t k a) n = if n = k then a else tget d t n := by
  split
  · next h => rw [h, tget_tput_same]
  · next h => exact tget_tput_other d t k n a h

@[simp] theorem tget_tmod_same (d : α) (t : Tab α) (k : Nat) (f : α → α) : tget d (tmod d t k f) k = f (tget d t k) :=
  tget_tput_same d t k _

theorem tget_tmod_other (d : α) (t : Tab α) (k n : Nat) (f : α → α) (hn : n ≠ k) : tget d (tmod d t k f) n = tget d t n :=
  tget_tput_other d t k n _ hn

@[simp] theorem tget_tdel_same (d : α) (t : Tab α) (k : Nat) : tget d (tdel t k) k = d := by
  induction t with
  | nil => rfl
  | cons e t ih =>
    obtain ⟨j, b⟩ := e
    by_cases h : j = k
    · simpa [tdel, h] using ih
    · simpa [tdel, h, tget] using ih

theorem tget_tdel_other (d : α) (t : Tab α) (k n : Nat) (hn : n ≠ k) : tget d (tdel t k) n = tget d t n := by
  induction t with
  | nil => rfl
  | cons e t ih =>
    obtain ⟨j, b⟩ := e
    by_cases h : j = k
    · have hk : k ≠ n := Ne.symm hn
      simpa [tdel, h, tget, hk] using ih
    · have hd : tdel ((j, b) :: t) k = (j, b) :: tdel t k := by simp [tdel, h]
      rw [hd, tget, ih, tget]

@[simp] theorem thas_tput_same (t : Tab α) (k : Nat) (a : α) : thas (tput t k a) k = true := by
  induction t with
  | nil => simp [tput, thas]
  | cons e t ih =>
    obtain ⟨j, b⟩ := e
    by_cases h : k < j
    · simp [tput, h, thas]
    · by_cases h2 : k = j
      · simp [tput, h2, thas]
      · simp only [tput, h, h2, if_false, thas, List.any_cons] at ih ⊢
        simp [ih]

theorem thas_tput_other (t : Tab α) (k n : Nat) (a : α) (hn : n ≠ k) : thas (tput t k a) n = thas t n := by
  induction t with
  | nil => simp [tput, thas, Ne.symm hn]
  | cons e t ih =>
    obtain ⟨j, b⟩ := e
    by_cases h : k < j
    · simp [tput, h, thas, Ne.symm hn]
    · by_cases h2 : k = j
      · subst h2; simp [tput, thas]
      · simp only [tput, h, h2, if_false, thas, List.any_cons] at ih ⊢
        rw [ih]

end Sys2Proof.Machine
end

