-- ==== Sys2Proof/Laws/State.lean ====
section
/-! SUPPORT. Updates of the state and of a group, field by field: what each leaves, and what is read after it. -/
namespace Sys2Proof.Machine

/-! ### setG -/

section
variable (s : State) (n : Nat) (f : Group → Group)

@[simp] theorem State.setG_now : (s.setG n f).now = s.now := rfl
@[simp] theorem State.setG_cur : (s.setG n f).cur = s.cur := rfl
@[simp] theorem State.setG_teams : (s.setG n f).teams = s.teams := rfl
@[simp] theorem State.setG_grids : (s.setG n f).grids = s.grids := rfl
@[simp] theorem State.setG_cores : (s.setG n f).cores = s.cores := rfl
@[simp] theorem State.setG_clusters : (s.setG n f).clusters = s.clusters := rfl
@[simp] theorem State.setG_dies : (s.setG n f).dies = s.dies := rfl
@[simp] theorem State.setG_memStacks : (s.setG n f).memStacks = s.memStacks := rfl
@[simp] theorem State.setG_cellars : (s.setG n f).cellars = s.cellars := rfl
@[simp] theorem State.setG_ctxs : (s.setG n f).ctxs = s.ctxs := rfl
@[simp] theorem State.setG_queues : (s.setG n f).queues = s.queues := rfl
@[simp] theorem State.setG_calls : (s.setG n f).calls = s.calls := rfl
@[simp] theorem State.setG_jobs : (s.setG n f).jobs = s.jobs := rfl
@[simp] theorem State.setG_engines : (s.setG n f).engines = s.engines := rfl
@[simp] theorem State.setG_crates : (s.setG n f).crates = s.crates := rfl
@[simp] theorem State.setG_reqs : (s.setG n f).reqs = s.reqs := rfl
@[simp] theorem State.setG_pegs : (s.setG n f).pegs = s.pegs := rfl
@[simp] theorem State.setG_pushes : (s.setG n f).pushes = s.pushes := rfl
@[simp] theorem State.setG_ports : (s.setG n f).ports = s.ports := rfl
@[simp] theorem State.setG_down : (s.setG n f).down = s.down := rfl
@[simp] theorem State.setG_mem : (s.setG n f).mem = s.mem := rfl
@[simp] theorem State.setG_l2 : (s.setG n f).l2 = s.l2 := rfl
@[simp] theorem State.setG_dir : (s.setG n f).dir = s.dir := rfl
@[simp] theorem State.setG_poison : (s.setG n f).poison = s.poison := rfl
@[simp] theorem State.setG_hostMem : (s.setG n f).hostMem = s.hostMem := rfl
@[simp] theorem State.setG_hostPoison : (s.setG n f).hostPoison = s.hostPoison := rfl
@[simp] theorem State.setG_hdmBase : (s.setG n f).hdmBase = s.hdmBase := rfl
@[simp] theorem State.setG_hostWaits : (s.setG n f).hostWaits = s.hostWaits := rfl
@[simp] theorem State.setG_shadow : (s.setG n f).shadow = s.shadow := rfl
@[simp] theorem State.setG_raceOn : (s.setG n f).raceOn = s.raceOn := rfl
@[simp] theorem State.setG_intervals : (s.setG n f).intervals = s.intervals := rfl
@[simp] theorem State.setG_nodeid : (s.setG n f).nodeid = s.nodeid := rfl
@[simp] theorem State.setG_porten : (s.setG n f).porten = s.porten := rfl
@[simp] theorem State.setG_ftmo : (s.setG n f).ftmo = s.ftmo := rfl
@[simp] theorem State.setG_wcage : (s.setG n f).wcage = s.wcage := rfl
@[simp] theorem State.setG_routeTable : (s.setG n f).routeTable = s.routeTable := rfl
@[simp] theorem State.setG_routeHeld : (s.setG n f).routeHeld = s.routeHeld := rfl
@[simp] theorem State.setG_routeOld : (s.setG n f).routeOld = s.routeOld := rfl
@[simp] theorem State.setG_q0ring : (s.setG n f).q0ring = s.q0ring := rfl
@[simp] theorem State.setG_q0ctl : (s.setG n f).q0ctl = s.q0ctl := rfl
@[simp] theorem State.setG_bootstat : (s.setG n f).bootstat = s.bootstat := rfl
@[simp] theorem State.setG_herr : (s.setG n f).herr = s.herr := rfl
@[simp] theorem State.setG_hstatWidth : (s.setG n f).hstatWidth = s.hstatWidth := rfl
@[simp] theorem State.setG_hstatRate : (s.setG n f).hstatRate = s.hstatRate := rfl
@[simp] theorem State.setG_pwrcap : (s.setG n f).pwrcap = s.pwrcap := rfl
@[simp] theorem State.setG_power : (s.setG n f).power = s.power := rfl
@[simp] theorem State.setG_temp : (s.setG n f).temp = s.temp := rfl
@[simp] theorem State.setG_clock : (s.setG n f).clock = s.clock := rfl
@[simp] theorem State.setG_clockAt : (s.setG n f).clockAt = s.clockAt := rfl
@[simp] theorem State.setG_clearSince : (s.setG n f).clearSince = s.clearSince := rfl
@[simp] theorem State.setG_thermalStop : (s.setG n f).thermalStop = s.thermalStop := rfl
@[simp] theorem State.setG_stoppedAt : (s.setG n f).stoppedAt = s.stoppedAt := rfl
@[simp] theorem State.setG_msiDue : (s.setG n f).msiDue = s.msiDue := rfl
@[simp] theorem State.setG_msiAt : (s.setG n f).msiAt = s.msiAt := rfl
@[simp] theorem State.setG_fusedMin : (s.setG n f).fusedMin = s.fusedMin := rfl
@[simp] theorem State.setG_boot : (s.setG n f).boot = s.boot := rfl
@[simp] theorem State.setG_resyncCounters : (s.setG n f).resyncCounters = s.resyncCounters := rfl
@[simp] theorem State.setG_inbox : (s.setG n f).inbox = s.inbox := rfl
@[simp] theorem State.setG_wire : (s.setG n f).wire = s.wire := rfl
@[simp] theorem State.setG_hostOut : (s.setG n f).hostOut = s.hostOut := rfl
@[simp] theorem State.setG_mgmtOut : (s.setG n f).mgmtOut = s.mgmtOut := rfl
@[simp] theorem State.setG_agenda : (s.setG n f).agenda = s.agenda := rfl
@[simp] theorem State.setG_fresh : (s.setG n f).fresh = s.fresh := rfl
@[simp] theorem State.setG_nextId : (s.setG n f).nextId = s.nextId := rfl
@[simp] theorem State.setG_team (k : Nat) : (s.setG n f).team k = s.team k := rfl
@[simp] theorem State.setG_grid (k : Nat) : (s.setG n f).grid k = s.grid k := rfl
@[simp] theorem State.setG_core (k : Nat) : (s.setG n f).core k = s.core k := rfl
@[simp] theorem State.setG_cluster (k : Nat) : (s.setG n f).cluster k = s.cluster k := rfl
@[simp] theorem State.setG_die (k : Nat) : (s.setG n f).die k = s.die k := rfl
@[simp] theorem State.setG_stack (k : Nat) : (s.setG n f).stack k = s.stack k := rfl
@[simp] theorem State.setG_cellar (k : Nat) : (s.setG n f).cellar k = s.cellar k := rfl
@[simp] theorem State.setG_ctx (k : Nat) : (s.setG n f).ctx k = s.ctx k := rfl
@[simp] theorem State.setG_queue (k : Nat) : (s.setG n f).queue k = s.queue k := rfl
@[simp] theorem State.setG_call (k : Nat) : (s.setG n f).call k = s.call k := rfl
@[simp] theorem State.setG_engine (k : Nat) : (s.setG n f).engine k = s.engine k := rfl
@[simp] theorem State.setG_port (k : Nat) : (s.setG n f).port k = s.port k := rfl
@[simp] theorem State.setG_grp_same : (s.setG n f).grp n = f (s.grp n) := tget_tmod_same _ _ _ _
theorem State.setG_grp_other (k : Nat) (h : k ≠ n) : (s.setG n f).grp k = s.grp k := tget_tmod_other _ _ _ _ _ h

end

/-! ### setT -/

section
variable (s : State) (n : Nat) (f : Team → Team)

@[simp] theorem State.setT_now : (s.setT n f).now = s.now := rfl
@[simp] theorem State.setT_cur : (s.setT n f).cur = s.cur := rfl
@[simp] theorem State.setT_groups : (s.setT n f).groups = s.groups := rfl
@[simp] theorem State.setT_grids : (s.setT n f).grids = s.grids := rfl
@[simp] theorem State.setT_cores : (s.setT n f).cores = s.cores := rfl
@[simp] theorem State.setT_clusters : (s.setT n f).clusters = s.clusters := rfl
@[simp] theorem State.setT_dies : (s.setT n f).dies = s.dies := rfl
@[simp] theorem State.setT_memStacks : (s.setT n f).memStacks = s.memStacks := rfl
@[simp] theorem State.setT_cellars : (s.setT n f).cellars = s.cellars := rfl
@[simp] theorem State.setT_ctxs : (s.setT n f).ctxs = s.ctxs := rfl
@[simp] theorem State.setT_queues : (s.setT n f).queues = s.queues := rfl
@[simp] theorem State.setT_calls : (s.setT n f).calls = s.calls := rfl
@[simp] theorem State.setT_jobs : (s.setT n f).jobs = s.jobs := rfl
@[simp] theorem State.setT_engines : (s.setT n f).engines = s.engines := rfl
@[simp] theorem State.setT_crates : (s.setT n f).crates = s.crates := rfl
@[simp] theorem State.setT_reqs : (s.setT n f).reqs = s.reqs := rfl
@[simp] theorem State.setT_pegs : (s.setT n f).pegs = s.pegs := rfl
@[simp] theorem State.setT_pushes : (s.setT n f).pushes = s.pushes := rfl
@[simp] theorem State.setT_ports : (s.setT n f).ports = s.ports := rfl
@[simp] theorem State.setT_down : (s.setT n f).down = s.down := rfl
@[simp] theorem State.setT_mem : (s.setT n f).mem = s.mem := rfl
@[simp] theorem State.setT_l2 : (s.setT n f).l2 = s.l2 := rfl
@[simp] theorem State.setT_dir : (s.setT n f).dir = s.dir := rfl
@[simp] theorem State.setT_poison : (s.setT n f).poison = s.poison := rfl
@[simp] theorem State.setT_hostMem : (s.setT n f).hostMem = s.hostMem := rfl
@[simp] theorem State.setT_hostPoison : (s.setT n f).hostPoison = s.hostPoison := rfl
@[simp] theorem State.setT_hdmBase : (s.setT n f).hdmBase = s.hdmBase := rfl
@[simp] theorem State.setT_hostWaits : (s.setT n f).hostWaits = s.hostWaits := rfl
@[simp] theorem State.setT_shadow : (s.setT n f).shadow = s.shadow := rfl
@[simp] theorem State.setT_raceOn : (s.setT n f).raceOn = s.raceOn := rfl
@[simp] theorem State.setT_intervals : (s.setT n f).intervals = s.intervals := rfl
@[simp] theorem State.setT_nodeid : (s.setT n f).nodeid = s.nodeid := rfl
@[simp] theorem State.setT_porten : (s.setT n f).porten = s.porten := rfl
@[simp] theorem State.setT_ftmo : (s.setT n f).ftmo = s.ftmo := rfl
@[simp] theorem State.setT_wcage : (s.setT n f).wcage = s.wcage := rfl
@[simp] theorem State.setT_routeTable : (s.setT n f).routeTable = s.routeTable := rfl
@[simp] theorem State.setT_routeHeld : (s.setT n f).routeHeld = s.routeHeld := rfl
@[simp] theorem State.setT_routeOld : (s.setT n f).routeOld = s.routeOld := rfl
@[simp] theorem State.setT_q0ring : (s.setT n f).q0ring = s.q0ring := rfl
@[simp] theorem State.setT_q0ctl : (s.setT n f).q0ctl = s.q0ctl := rfl
@[simp] theorem State.setT_bootstat : (s.setT n f).bootstat = s.bootstat := rfl
@[simp] theorem State.setT_herr : (s.setT n f).herr = s.herr := rfl
@[simp] theorem State.setT_hstatWidth : (s.setT n f).hstatWidth = s.hstatWidth := rfl
@[simp] theorem State.setT_hstatRate : (s.setT n f).hstatRate = s.hstatRate := rfl
@[simp] theorem State.setT_pwrcap : (s.setT n f).pwrcap = s.pwrcap := rfl
@[simp] theorem State.setT_power : (s.setT n f).power = s.power := rfl
@[simp] theorem State.setT_temp : (s.setT n f).temp = s.temp := rfl
@[simp] theorem State.setT_clock : (s.setT n f).clock = s.clock := rfl
@[simp] theorem State.setT_clockAt : (s.setT n f).clockAt = s.clockAt := rfl
@[simp] theorem State.setT_clearSince : (s.setT n f).clearSince = s.clearSince := rfl
@[simp] theorem State.setT_thermalStop : (s.setT n f).thermalStop = s.thermalStop := rfl
@[simp] theorem State.setT_stoppedAt : (s.setT n f).stoppedAt = s.stoppedAt := rfl
@[simp] theorem State.setT_msiDue : (s.setT n f).msiDue = s.msiDue := rfl
@[simp] theorem State.setT_msiAt : (s.setT n f).msiAt = s.msiAt := rfl
@[simp] theorem State.setT_fusedMin : (s.setT n f).fusedMin = s.fusedMin := rfl
@[simp] theorem State.setT_boot : (s.setT n f).boot = s.boot := rfl
@[simp] theorem State.setT_resyncCounters : (s.setT n f).resyncCounters = s.resyncCounters := rfl
@[simp] theorem State.setT_inbox : (s.setT n f).inbox = s.inbox := rfl
@[simp] theorem State.setT_wire : (s.setT n f).wire = s.wire := rfl
@[simp] theorem State.setT_hostOut : (s.setT n f).hostOut = s.hostOut := rfl
@[simp] theorem State.setT_mgmtOut : (s.setT n f).mgmtOut = s.mgmtOut := rfl
@[simp] theorem State.setT_agenda : (s.setT n f).agenda = s.agenda := rfl
@[simp] theorem State.setT_fresh : (s.setT n f).fresh = s.fresh := rfl
@[simp] theorem State.setT_nextId : (s.setT n f).nextId = s.nextId := rfl
@[simp] theorem State.setT_grp (k : Nat) : (s.setT n f).grp k = s.grp k := rfl
@[simp] theorem State.setT_grid (k : Nat) : (s.setT n f).grid k = s.grid k := rfl
@[simp] theorem State.setT_core (k : Nat) : (s.setT n f).core k = s.core k := rfl
@[simp] theorem State.setT_cluster (k : Nat) : (s.setT n f).cluster k = s.cluster k := rfl
@[simp] theorem State.setT_die (k : Nat) : (s.setT n f).die k = s.die k := rfl
@[simp] theorem State.setT_stack (k : Nat) : (s.setT n f).stack k = s.stack k := rfl
@[simp] theorem State.setT_cellar (k : Nat) : (s.setT n f).cellar k = s.cellar k := rfl
@[simp] theorem State.setT_ctx (k : Nat) : (s.setT n f).ctx k = s.ctx k := rfl
@[simp] theorem State.setT_queue (k : Nat) : (s.setT n f).queue k = s.queue k := rfl
@[simp] theorem State.setT_call (k : Nat) : (s.setT n f).call k = s.call k := rfl
@[simp] theorem State.setT_engine (k : Nat) : (s.setT n f).engine k = s.engine k := rfl
@[simp] theorem State.setT_port (k : Nat) : (s.setT n f).port k = s.port k := rfl
@[simp] theorem State.setT_team_same : (s.setT n f).team n = f (s.team n) := tget_tmod_same _ _ _ _
theorem State.setT_team_other (k : Nat) (h : k ≠ n) : (s.setT n f).team k = s.team k := tget_tmod_other _ _ _ _ _ h

end

/-! ### setGrid -/

section
variable (s : State) (n : Nat) (f : Grid → Grid)

@[simp] theorem State.setGrid_now : (s.setGrid n f).now = s.now := rfl
@[simp] theorem State.setGrid_cur : (s.setGrid n f).cur = s.cur := rfl
@[simp] theorem State.setGrid_groups : (s.setGrid n f).groups = s.groups := rfl
@[simp] theorem State.setGrid_teams : (s.setGrid n f).teams = s.teams := rfl
@[simp] theorem State.setGrid_cores : (s.setGrid n f).cores = s.cores := rfl
@[simp] theorem State.setGrid_clusters : (s.setGrid n f).clusters = s.clusters := rfl
@[simp] theorem State.setGrid_dies : (s.setGrid n f).dies = s.dies := rfl
@[simp] theorem State.setGrid_memStacks : (s.setGrid n f).memStacks = s.memStacks := rfl
@[simp] theorem State.setGrid_cellars : (s.setGrid n f).cellars = s.cellars := rfl
@[simp] theorem State.setGrid_ctxs : (s.setGrid n f).ctxs = s.ctxs := rfl
@[simp] theorem State.setGrid_queues : (s.setGrid n f).queues = s.queues := rfl
@[simp] theorem State.setGrid_calls : (s.setGrid n f).calls = s.calls := rfl
@[simp] theorem State.setGrid_jobs : (s.setGrid n f).jobs = s.jobs := rfl
@[simp] theorem State.setGrid_engines : (s.setGrid n f).engines = s.engines := rfl
@[simp] theorem State.setGrid_crates : (s.setGrid n f).crates = s.crates := rfl
@[simp] theorem State.setGrid_reqs : (s.setGrid n f).reqs = s.reqs := rfl
@[simp] theorem State.setGrid_pegs : (s.setGrid n f).pegs = s.pegs := rfl
@[simp] theorem State.setGrid_pushes : (s.setGrid n f).pushes = s.pushes := rfl
@[simp] theorem State.setGrid_ports : (s.setGrid n f).ports = s.ports := rfl
@[simp] theorem State.setGrid_down : (s.setGrid n f).down = s.down := rfl
@[simp] theorem State.setGrid_mem : (s.setGrid n f).mem = s.mem := rfl
@[simp] theorem State.setGrid_l2 : (s.setGrid n f).l2 = s.l2 := rfl
@[simp] theorem State.setGrid_dir : (s.setGrid n f).dir = s.dir := rfl
@[simp] theorem State.setGrid_poison : (s.setGrid n f).poison = s.poison := rfl
@[simp] theorem State.setGrid_hostMem : (s.setGrid n f).hostMem = s.hostMem := rfl
@[simp] theorem State.setGrid_hostPoison : (s.setGrid n f).hostPoison = s.hostPoison := rfl
@[simp] theorem State.setGrid_hdmBase : (s.setGrid n f).hdmBase = s.hdmBase := rfl
@[simp] theorem State.setGrid_hostWaits : (s.setGrid n f).hostWaits = s.hostWaits := rfl
@[simp] theorem State.setGrid_shadow : (s.setGrid n f).shadow = s.shadow := rfl
@[simp] theorem State.setGrid_raceOn : (s.setGrid n f).raceOn = s.raceOn := rfl
@[simp] theorem State.setGrid_intervals : (s.setGrid n f).intervals = s.intervals := rfl
@[simp] theorem State.setGrid_nodeid : (s.setGrid n f).nodeid = s.nodeid := rfl
@[simp] theorem State.setGrid_porten : (s.setGrid n f).porten = s.porten := rfl
@[simp] theorem State.setGrid_ftmo : (s.setGrid n f).ftmo = s.ftmo := rfl
@[simp] theorem State.setGrid_wcage : (s.setGrid n f).wcage = s.wcage := rfl
@[simp] theorem State.setGrid_routeTable : (s.setGrid n f).routeTable = s.routeTable := rfl
@[simp] theorem State.setGrid_routeHeld : (s.setGrid n f).routeHeld = s.routeHeld := rfl
@[simp] theorem State.setGrid_routeOld : (s.setGrid n f).routeOld = s.routeOld := rfl
@[simp] theorem State.setGrid_q0ring : (s.setGrid n f).q0ring = s.q0ring := rfl
@[simp] theorem State.setGrid_q0ctl : (s.setGrid n f).q0ctl = s.q0ctl := rfl
@[simp] theorem State.setGrid_bootstat : (s.setGrid n f).bootstat = s.bootstat := rfl
@[simp] theorem State.setGrid_herr : (s.setGrid n f).herr = s.herr := rfl
@[simp] theorem State.setGrid_hstatWidth : (s.setGrid n f).hstatWidth = s.hstatWidth := rfl
@[simp] theorem State.setGrid_hstatRate : (s.setGrid n f).hstatRate = s.hstatRate := rfl
@[simp] theorem State.setGrid_pwrcap : (s.setGrid n f).pwrcap = s.pwrcap := rfl
@[simp] theorem State.setGrid_power : (s.setGrid n f).power = s.power := rfl
@[simp] theorem State.setGrid_temp : (s.setGrid n f).temp = s.temp := rfl
@[simp] theorem State.setGrid_clock : (s.setGrid n f).clock = s.clock := rfl
@[simp] theorem State.setGrid_clockAt : (s.setGrid n f).clockAt = s.clockAt := rfl
@[simp] theorem State.setGrid_clearSince : (s.setGrid n f).clearSince = s.clearSince := rfl
@[simp] theorem State.setGrid_thermalStop : (s.setGrid n f).thermalStop = s.thermalStop := rfl
@[simp] theorem State.setGrid_stoppedAt : (s.setGrid n f).stoppedAt = s.stoppedAt := rfl
@[simp] theorem State.setGrid_msiDue : (s.setGrid n f).msiDue = s.msiDue := rfl
@[simp] theorem State.setGrid_msiAt : (s.setGrid n f).msiAt = s.msiAt := rfl
@[simp] theorem State.setGrid_fusedMin : (s.setGrid n f).fusedMin = s.fusedMin := rfl
@[simp] theorem State.setGrid_boot : (s.setGrid n f).boot = s.boot := rfl
@[simp] theorem State.setGrid_resyncCounters : (s.setGrid n f).resyncCounters = s.resyncCounters := rfl
@[simp] theorem State.setGrid_inbox : (s.setGrid n f).inbox = s.inbox := rfl
@[simp] theorem State.setGrid_wire : (s.setGrid n f).wire = s.wire := rfl
@[simp] theorem State.setGrid_hostOut : (s.setGrid n f).hostOut = s.hostOut := rfl
@[simp] theorem State.setGrid_mgmtOut : (s.setGrid n f).mgmtOut = s.mgmtOut := rfl
@[simp] theorem State.setGrid_agenda : (s.setGrid n f).agenda = s.agenda := rfl
@[simp] theorem State.setGrid_fresh : (s.setGrid n f).fresh = s.fresh := rfl
@[simp] theorem State.setGrid_nextId : (s.setGrid n f).nextId = s.nextId := rfl
@[simp] theorem State.setGrid_grp (k : Nat) : (s.setGrid n f).grp k = s.grp k := rfl
@[simp] theorem State.setGrid_team (k : Nat) : (s.setGrid n f).team k = s.team k := rfl
@[simp] theorem State.setGrid_core (k : Nat) : (s.setGrid n f).core k = s.core k := rfl
@[simp] theorem State.setGrid_cluster (k : Nat) : (s.setGrid n f).cluster k = s.cluster k := rfl
@[simp] theorem State.setGrid_die (k : Nat) : (s.setGrid n f).die k = s.die k := rfl
@[simp] theorem State.setGrid_stack (k : Nat) : (s.setGrid n f).stack k = s.stack k := rfl
@[simp] theorem State.setGrid_cellar (k : Nat) : (s.setGrid n f).cellar k = s.cellar k := rfl
@[simp] theorem State.setGrid_ctx (k : Nat) : (s.setGrid n f).ctx k = s.ctx k := rfl
@[simp] theorem State.setGrid_queue (k : Nat) : (s.setGrid n f).queue k = s.queue k := rfl
@[simp] theorem State.setGrid_call (k : Nat) : (s.setGrid n f).call k = s.call k := rfl
@[simp] theorem State.setGrid_engine (k : Nat) : (s.setGrid n f).engine k = s.engine k := rfl
@[simp] theorem State.setGrid_port (k : Nat) : (s.setGrid n f).port k = s.port k := rfl
@[simp] theorem State.setGrid_grid_same : (s.setGrid n f).grid n = f (s.grid n) := tget_tmod_same _ _ _ _
theorem State.setGrid_grid_other (k : Nat) (h : k ≠ n) : (s.setGrid n f).grid k = s.grid k := tget_tmod_other _ _ _ _ _ h

end

/-! ### setC -/

section
variable (s : State) (n : Nat) (f : Core → Core)

@[simp] theorem State.setC_now : (s.setC n f).now = s.now := rfl
@[simp] theorem State.setC_cur : (s.setC n f).cur = s.cur := rfl
@[simp] theorem State.setC_groups : (s.setC n f).groups = s.groups := rfl
@[simp] theorem State.setC_teams : (s.setC n f).teams = s.teams := rfl
@[simp] theorem State.setC_grids : (s.setC n f).grids = s.grids := rfl
@[simp] theorem State.setC_clusters : (s.setC n f).clusters = s.clusters := rfl
@[simp] theorem State.setC_dies : (s.setC n f).dies = s.dies := rfl
@[simp] theorem State.setC_memStacks : (s.setC n f).memStacks = s.memStacks := rfl
@[simp] theorem State.setC_cellars : (s.setC n f).cellars = s.cellars := rfl
@[simp] theorem State.setC_ctxs : (s.setC n f).ctxs = s.ctxs := rfl
@[simp] theorem State.setC_queues : (s.setC n f).queues = s.queues := rfl
@[simp] theorem State.setC_calls : (s.setC n f).calls = s.calls := rfl
@[simp] theorem State.setC_jobs : (s.setC n f).jobs = s.jobs := rfl
@[simp] theorem State.setC_engines : (s.setC n f).engines = s.engines := rfl
@[simp] theorem State.setC_crates : (s.setC n f).crates = s.crates := rfl
@[simp] theorem State.setC_reqs : (s.setC n f).reqs = s.reqs := rfl
@[simp] theorem State.setC_pegs : (s.setC n f).pegs = s.pegs := rfl
@[simp] theorem State.setC_pushes : (s.setC n f).pushes = s.pushes := rfl
@[simp] theorem State.setC_ports : (s.setC n f).ports = s.ports := rfl
@[simp] theorem State.setC_down : (s.setC n f).down = s.down := rfl
@[simp] theorem State.setC_mem : (s.setC n f).mem = s.mem := rfl
@[simp] theorem State.setC_l2 : (s.setC n f).l2 = s.l2 := rfl
@[simp] theorem State.setC_dir : (s.setC n f).dir = s.dir := rfl
@[simp] theorem State.setC_poison : (s.setC n f).poison = s.poison := rfl
@[simp] theorem State.setC_hostMem : (s.setC n f).hostMem = s.hostMem := rfl
@[simp] theorem State.setC_hostPoison : (s.setC n f).hostPoison = s.hostPoison := rfl
@[simp] theorem State.setC_hdmBase : (s.setC n f).hdmBase = s.hdmBase := rfl
@[simp] theorem State.setC_hostWaits : (s.setC n f).hostWaits = s.hostWaits := rfl
@[simp] theorem State.setC_shadow : (s.setC n f).shadow = s.shadow := rfl
@[simp] theorem State.setC_raceOn : (s.setC n f).raceOn = s.raceOn := rfl
@[simp] theorem State.setC_intervals : (s.setC n f).intervals = s.intervals := rfl
@[simp] theorem State.setC_nodeid : (s.setC n f).nodeid = s.nodeid := rfl
@[simp] theorem State.setC_porten : (s.setC n f).porten = s.porten := rfl
@[simp] theorem State.setC_ftmo : (s.setC n f).ftmo = s.ftmo := rfl
@[simp] theorem State.setC_wcage : (s.setC n f).wcage = s.wcage := rfl
@[simp] theorem State.setC_routeTable : (s.setC n f).routeTable = s.routeTable := rfl
@[simp] theorem State.setC_routeHeld : (s.setC n f).routeHeld = s.routeHeld := rfl
@[simp] theorem State.setC_routeOld : (s.setC n f).routeOld = s.routeOld := rfl
@[simp] theorem State.setC_q0ring : (s.setC n f).q0ring = s.q0ring := rfl
@[simp] theorem State.setC_q0ctl : (s.setC n f).q0ctl = s.q0ctl := rfl
@[simp] theorem State.setC_bootstat : (s.setC n f).bootstat = s.bootstat := rfl
@[simp] theorem State.setC_herr : (s.setC n f).herr = s.herr := rfl
@[simp] theorem State.setC_hstatWidth : (s.setC n f).hstatWidth = s.hstatWidth := rfl
@[simp] theorem State.setC_hstatRate : (s.setC n f).hstatRate = s.hstatRate := rfl
@[simp] theorem State.setC_pwrcap : (s.setC n f).pwrcap = s.pwrcap := rfl
@[simp] theorem State.setC_power : (s.setC n f).power = s.power := rfl
@[simp] theorem State.setC_temp : (s.setC n f).temp = s.temp := rfl
@[simp] theorem State.setC_clock : (s.setC n f).clock = s.clock := rfl
@[simp] theorem State.setC_clockAt : (s.setC n f).clockAt = s.clockAt := rfl
@[simp] theorem State.setC_clearSince : (s.setC n f).clearSince = s.clearSince := rfl
@[simp] theorem State.setC_thermalStop : (s.setC n f).thermalStop = s.thermalStop := rfl
@[simp] theorem State.setC_stoppedAt : (s.setC n f).stoppedAt = s.stoppedAt := rfl
@[simp] theorem State.setC_msiDue : (s.setC n f).msiDue = s.msiDue := rfl
@[simp] theorem State.setC_msiAt : (s.setC n f).msiAt = s.msiAt := rfl
@[simp] theorem State.setC_fusedMin : (s.setC n f).fusedMin = s.fusedMin := rfl
@[simp] theorem State.setC_boot : (s.setC n f).boot = s.boot := rfl
@[simp] theorem State.setC_resyncCounters : (s.setC n f).resyncCounters = s.resyncCounters := rfl
@[simp] theorem State.setC_inbox : (s.setC n f).inbox = s.inbox := rfl
@[simp] theorem State.setC_wire : (s.setC n f).wire = s.wire := rfl
@[simp] theorem State.setC_hostOut : (s.setC n f).hostOut = s.hostOut := rfl
@[simp] theorem State.setC_mgmtOut : (s.setC n f).mgmtOut = s.mgmtOut := rfl
@[simp] theorem State.setC_agenda : (s.setC n f).agenda = s.agenda := rfl
@[simp] theorem State.setC_fresh : (s.setC n f).fresh = s.fresh := rfl
@[simp] theorem State.setC_nextId : (s.setC n f).nextId = s.nextId := rfl
@[simp] theorem State.setC_grp (k : Nat) : (s.setC n f).grp k = s.grp k := rfl
@[simp] theorem State.setC_team (k : Nat) : (s.setC n f).team k = s.team k := rfl
@[simp] theorem State.setC_grid (k : Nat) : (s.setC n f).grid k = s.grid k := rfl
@[simp] theorem State.setC_cluster (k : Nat) : (s.setC n f).cluster k = s.cluster k := rfl
@[simp] theorem State.setC_die (k : Nat) : (s.setC n f).die k = s.die k := rfl
@[simp] theorem State.setC_stack (k : Nat) : (s.setC n f).stack k = s.stack k := rfl
@[simp] theorem State.setC_cellar (k : Nat) : (s.setC n f).cellar k = s.cellar k := rfl
@[simp] theorem State.setC_ctx (k : Nat) : (s.setC n f).ctx k = s.ctx k := rfl
@[simp] theorem State.setC_queue (k : Nat) : (s.setC n f).queue k = s.queue k := rfl
@[simp] theorem State.setC_call (k : Nat) : (s.setC n f).call k = s.call k := rfl
@[simp] theorem State.setC_engine (k : Nat) : (s.setC n f).engine k = s.engine k := rfl
@[simp] theorem State.setC_port (k : Nat) : (s.setC n f).port k = s.port k := rfl
@[simp] theorem State.setC_core_same : (s.setC n f).core n = f (s.core n) := tget_tmod_same _ _ _ _
theorem State.setC_core_other (k : Nat) (h : k ≠ n) : (s.setC n f).core k = s.core k := tget_tmod_other _ _ _ _ _ h

end

/-! ### setCl -/

section
variable (s : State) (n : Nat) (f : Cluster → Cluster)

@[simp] theorem State.setCl_now : (s.setCl n f).now = s.now := rfl
@[simp] theorem State.setCl_cur : (s.setCl n f).cur = s.cur := rfl
@[simp] theorem State.setCl_groups : (s.setCl n f).groups = s.groups := rfl
@[simp] theorem State.setCl_teams : (s.setCl n f).teams = s.teams := rfl
@[simp] theorem State.setCl_grids : (s.setCl n f).grids = s.grids := rfl
@[simp] theorem State.setCl_cores : (s.setCl n f).cores = s.cores := rfl
@[simp] theorem State.setCl_dies : (s.setCl n f).dies = s.dies := rfl
@[simp] theorem State.setCl_memStacks : (s.setCl n f).memStacks = s.memStacks := rfl
@[simp] theorem State.setCl_cellars : (s.setCl n f).cellars = s.cellars := rfl
@[simp] theorem State.setCl_ctxs : (s.setCl n f).ctxs = s.ctxs := rfl
@[simp] theorem State.setCl_queues : (s.setCl n f).queues = s.queues := rfl
@[simp] theorem State.setCl_calls : (s.setCl n f).calls = s.calls := rfl
@[simp] theorem State.setCl_jobs : (s.setCl n f).jobs = s.jobs := rfl
@[simp] theorem State.setCl_engines : (s.setCl n f).engines = s.engines := rfl
@[simp] theorem State.setCl_crates : (s.setCl n f).crates = s.crates := rfl
@[simp] theorem State.setCl_reqs : (s.setCl n f).reqs = s.reqs := rfl
@[simp] theorem State.setCl_pegs : (s.setCl n f).pegs = s.pegs := rfl
@[simp] theorem State.setCl_pushes : (s.setCl n f).pushes = s.pushes := rfl
@[simp] theorem State.setCl_ports : (s.setCl n f).ports = s.ports := rfl
@[simp] theorem State.setCl_down : (s.setCl n f).down = s.down := rfl
@[simp] theorem State.setCl_mem : (s.setCl n f).mem = s.mem := rfl
@[simp] theorem State.setCl_l2 : (s.setCl n f).l2 = s.l2 := rfl
@[simp] theorem State.setCl_dir : (s.setCl n f).dir = s.dir := rfl
@[simp] theorem State.setCl_poison : (s.setCl n f).poison = s.poison := rfl
@[simp] theorem State.setCl_hostMem : (s.setCl n f).hostMem = s.hostMem := rfl
@[simp] theorem State.setCl_hostPoison : (s.setCl n f).hostPoison = s.hostPoison := rfl
@[simp] theorem State.setCl_hdmBase : (s.setCl n f).hdmBase = s.hdmBase := rfl
@[simp] theorem State.setCl_hostWaits : (s.setCl n f).hostWaits = s.hostWaits := rfl
@[simp] theorem State.setCl_shadow : (s.setCl n f).shadow = s.shadow := rfl
@[simp] theorem State.setCl_raceOn : (s.setCl n f).raceOn = s.raceOn := rfl
@[simp] theorem State.setCl_intervals : (s.setCl n f).intervals = s.intervals := rfl
@[simp] theorem State.setCl_nodeid : (s.setCl n f).nodeid = s.nodeid := rfl
@[simp] theorem State.setCl_porten : (s.setCl n f).porten = s.porten := rfl
@[simp] theorem State.setCl_ftmo : (s.setCl n f).ftmo = s.ftmo := rfl
@[simp] theorem State.setCl_wcage : (s.setCl n f).wcage = s.wcage := rfl
@[simp] theorem State.setCl_routeTable : (s.setCl n f).routeTable = s.routeTable := rfl
@[simp] theorem State.setCl_routeHeld : (s.setCl n f).routeHeld = s.routeHeld := rfl
@[simp] theorem State.setCl_routeOld : (s.setCl n f).routeOld = s.routeOld := rfl
@[simp] theorem State.setCl_q0ring : (s.setCl n f).q0ring = s.q0ring := rfl
@[simp] theorem State.setCl_q0ctl : (s.setCl n f).q0ctl = s.q0ctl := rfl
@[simp] theorem State.setCl_bootstat : (s.setCl n f).bootstat = s.bootstat := rfl
@[simp] theorem State.setCl_herr : (s.setCl n f).herr = s.herr := rfl
@[simp] theorem State.setCl_hstatWidth : (s.setCl n f).hstatWidth = s.hstatWidth := rfl
@[simp] theorem State.setCl_hstatRate : (s.setCl n f).hstatRate = s.hstatRate := rfl
@[simp] theorem State.setCl_pwrcap : (s.setCl n f).pwrcap = s.pwrcap := rfl
@[simp] theorem State.setCl_power : (s.setCl n f).power = s.power := rfl
@[simp] theorem State.setCl_temp : (s.setCl n f).temp = s.temp := rfl
@[simp] theorem State.setCl_clock : (s.setCl n f).clock = s.clock := rfl
@[simp] theorem State.setCl_clockAt : (s.setCl n f).clockAt = s.clockAt := rfl
@[simp] theorem State.setCl_clearSince : (s.setCl n f).clearSince = s.clearSince := rfl
@[simp] theorem State.setCl_thermalStop : (s.setCl n f).thermalStop = s.thermalStop := rfl
@[simp] theorem State.setCl_stoppedAt : (s.setCl n f).stoppedAt = s.stoppedAt := rfl
@[simp] theorem State.setCl_msiDue : (s.setCl n f).msiDue = s.msiDue := rfl
@[simp] theorem State.setCl_msiAt : (s.setCl n f).msiAt = s.msiAt := rfl
@[simp] theorem State.setCl_fusedMin : (s.setCl n f).fusedMin = s.fusedMin := rfl
@[simp] theorem State.setCl_boot : (s.setCl n f).boot = s.boot := rfl
@[simp] theorem State.setCl_resyncCounters : (s.setCl n f).resyncCounters = s.resyncCounters := rfl
@[simp] theorem State.setCl_inbox : (s.setCl n f).inbox = s.inbox := rfl
@[simp] theorem State.setCl_wire : (s.setCl n f).wire = s.wire := rfl
@[simp] theorem State.setCl_hostOut : (s.setCl n f).hostOut = s.hostOut := rfl
@[simp] theorem State.setCl_mgmtOut : (s.setCl n f).mgmtOut = s.mgmtOut := rfl
@[simp] theorem State.setCl_agenda : (s.setCl n f).agenda = s.agenda := rfl
@[simp] theorem State.setCl_fresh : (s.setCl n f).fresh = s.fresh := rfl
@[simp] theorem State.setCl_nextId : (s.setCl n f).nextId = s.nextId := rfl
@[simp] theorem State.setCl_grp (k : Nat) : (s.setCl n f).grp k = s.grp k := rfl
@[simp] theorem State.setCl_team (k : Nat) : (s.setCl n f).team k = s.team k := rfl
@[simp] theorem State.setCl_grid (k : Nat) : (s.setCl n f).grid k = s.grid k := rfl
@[simp] theorem State.setCl_core (k : Nat) : (s.setCl n f).core k = s.core k := rfl
@[simp] theorem State.setCl_die (k : Nat) : (s.setCl n f).die k = s.die k := rfl
@[simp] theorem State.setCl_stack (k : Nat) : (s.setCl n f).stack k = s.stack k := rfl
@[simp] theorem State.setCl_cellar (k : Nat) : (s.setCl n f).cellar k = s.cellar k := rfl
@[simp] theorem State.setCl_ctx (k : Nat) : (s.setCl n f).ctx k = s.ctx k := rfl
@[simp] theorem State.setCl_queue (k : Nat) : (s.setCl n f).queue k = s.queue k := rfl
@[simp] theorem State.setCl_call (k : Nat) : (s.setCl n f).call k = s.call k := rfl
@[simp] theorem State.setCl_engine (k : Nat) : (s.setCl n f).engine k = s.engine k := rfl
@[simp] theorem State.setCl_port (k : Nat) : (s.setCl n f).port k = s.port k := rfl
@[simp] theorem State.setCl_cluster_same : (s.setCl n f).cluster n = f (s.cluster n) := tget_tmod_same _ _ _ _
theorem State.setCl_cluster_other (k : Nat) (h : k ≠ n) : (s.setCl n f).cluster k = s.cluster k := tget_tmod_other _ _ _ _ _ h

end

/-! ### setD -/

section
variable (s : State) (n : Nat) (f : Die → Die)

@[simp] theorem State.setD_now : (s.setD n f).now = s.now := rfl
@[simp] theorem State.setD_cur : (s.setD n f).cur = s.cur := rfl
@[simp] theorem State.setD_groups : (s.setD n f).groups = s.groups := rfl
@[simp] theorem State.setD_teams : (s.setD n f).teams = s.teams := rfl
@[simp] theorem State.setD_grids : (s.setD n f).grids = s.grids := rfl
@[simp] theorem State.setD_cores : (s.setD n f).cores = s.cores := rfl
@[simp] theorem State.setD_clusters : (s.setD n f).clusters = s.clusters := rfl
@[simp] theorem State.setD_memStacks : (s.setD n f).memStacks = s.memStacks := rfl
@[simp] theorem State.setD_cellars : (s.setD n f).cellars = s.cellars := rfl
@[simp] theorem State.setD_ctxs : (s.setD n f).ctxs = s.ctxs := rfl
@[simp] theorem State.setD_queues : (s.setD n f).queues = s.queues := rfl
@[simp] theorem State.setD_calls : (s.setD n f).calls = s.calls := rfl
@[simp] theorem State.setD_jobs : (s.setD n f).jobs = s.jobs := rfl
@[simp] theorem State.setD_engines : (s.setD n f).engines = s.engines := rfl
@[simp] theorem State.setD_crates : (s.setD n f).crates = s.crates := rfl
@[simp] theorem State.setD_reqs : (s.setD n f).reqs = s.reqs := rfl
@[simp] theorem State.setD_pegs : (s.setD n f).pegs = s.pegs := rfl
@[simp] theorem State.setD_pushes : (s.setD n f).pushes = s.pushes := rfl
@[simp] theorem State.setD_ports : (s.setD n f).ports = s.ports := rfl
@[simp] theorem State.setD_down : (s.setD n f).down = s.down := rfl
@[simp] theorem State.setD_mem : (s.setD n f).mem = s.mem := rfl
@[simp] theorem State.setD_l2 : (s.setD n f).l2 = s.l2 := rfl
@[simp] theorem State.setD_dir : (s.setD n f).dir = s.dir := rfl
@[simp] theorem State.setD_poison : (s.setD n f).poison = s.poison := rfl
@[simp] theorem State.setD_hostMem : (s.setD n f).hostMem = s.hostMem := rfl
@[simp] theorem State.setD_hostPoison : (s.setD n f).hostPoison = s.hostPoison := rfl
@[simp] theorem State.setD_hdmBase : (s.setD n f).hdmBase = s.hdmBase := rfl
@[simp] theorem State.setD_hostWaits : (s.setD n f).hostWaits = s.hostWaits := rfl
@[simp] theorem State.setD_shadow : (s.setD n f).shadow = s.shadow := rfl
@[simp] theorem State.setD_raceOn : (s.setD n f).raceOn = s.raceOn := rfl
@[simp] theorem State.setD_intervals : (s.setD n f).intervals = s.intervals := rfl
@[simp] theorem State.setD_nodeid : (s.setD n f).nodeid = s.nodeid := rfl
@[simp] theorem State.setD_porten : (s.setD n f).porten = s.porten := rfl
@[simp] theorem State.setD_ftmo : (s.setD n f).ftmo = s.ftmo := rfl
@[simp] theorem State.setD_wcage : (s.setD n f).wcage = s.wcage := rfl
@[simp] theorem State.setD_routeTable : (s.setD n f).routeTable = s.routeTable := rfl
@[simp] theorem State.setD_routeHeld : (s.setD n f).routeHeld = s.routeHeld := rfl
@[simp] theorem State.setD_routeOld : (s.setD n f).routeOld = s.routeOld := rfl
@[simp] theorem State.setD_q0ring : (s.setD n f).q0ring = s.q0ring := rfl
@[simp] theorem State.setD_q0ctl : (s.setD n f).q0ctl = s.q0ctl := rfl
@[simp] theorem State.setD_bootstat : (s.setD n f).bootstat = s.bootstat := rfl
@[simp] theorem State.setD_herr : (s.setD n f).herr = s.herr := rfl
@[simp] theorem State.setD_hstatWidth : (s.setD n f).hstatWidth = s.hstatWidth := rfl
@[simp] theorem State.setD_hstatRate : (s.setD n f).hstatRate = s.hstatRate := rfl
@[simp] theorem State.setD_pwrcap : (s.setD n f).pwrcap = s.pwrcap := rfl
@[simp] theorem State.setD_power : (s.setD n f).power = s.power := rfl
@[simp] theorem State.setD_temp : (s.setD n f).temp = s.temp := rfl
@[simp] theorem State.setD_clock : (s.setD n f).clock = s.clock := rfl
@[simp] theorem State.setD_clockAt : (s.setD n f).clockAt = s.clockAt := rfl
@[simp] theorem State.setD_clearSince : (s.setD n f).clearSince = s.clearSince := rfl
@[simp] theorem State.setD_thermalStop : (s.setD n f).thermalStop = s.thermalStop := rfl
@[simp] theorem State.setD_stoppedAt : (s.setD n f).stoppedAt = s.stoppedAt := rfl
@[simp] theorem State.setD_msiDue : (s.setD n f).msiDue = s.msiDue := rfl
@[simp] theorem State.setD_msiAt : (s.setD n f).msiAt = s.msiAt := rfl
@[simp] theorem State.setD_fusedMin : (s.setD n f).fusedMin = s.fusedMin := rfl
@[simp] theorem State.setD_boot : (s.setD n f).boot = s.boot := rfl
@[simp] theorem State.setD_resyncCounters : (s.setD n f).resyncCounters = s.resyncCounters := rfl
@[simp] theorem State.setD_inbox : (s.setD n f).inbox = s.inbox := rfl
@[simp] theorem State.setD_wire : (s.setD n f).wire = s.wire := rfl
@[simp] theorem State.setD_hostOut : (s.setD n f).hostOut = s.hostOut := rfl
@[simp] theorem State.setD_mgmtOut : (s.setD n f).mgmtOut = s.mgmtOut := rfl
@[simp] theorem State.setD_agenda : (s.setD n f).agenda = s.agenda := rfl
@[simp] theorem State.setD_fresh : (s.setD n f).fresh = s.fresh := rfl
@[simp] theorem State.setD_nextId : (s.setD n f).nextId = s.nextId := rfl
@[simp] theorem State.setD_grp (k : Nat) : (s.setD n f).grp k = s.grp k := rfl
@[simp] theorem State.setD_team (k : Nat) : (s.setD n f).team k = s.team k := rfl
@[simp] theorem State.setD_grid (k : Nat) : (s.setD n f).grid k = s.grid k := rfl
@[simp] theorem State.setD_core (k : Nat) : (s.setD n f).core k = s.core k := rfl
@[simp] theorem State.setD_cluster (k : Nat) : (s.setD n f).cluster k = s.cluster k := rfl
@[simp] theorem State.setD_stack (k : Nat) : (s.setD n f).stack k = s.stack k := rfl
@[simp] theorem State.setD_cellar (k : Nat) : (s.setD n f).cellar k = s.cellar k := rfl
@[simp] theorem State.setD_ctx (k : Nat) : (s.setD n f).ctx k = s.ctx k := rfl
@[simp] theorem State.setD_queue (k : Nat) : (s.setD n f).queue k = s.queue k := rfl
@[simp] theorem State.setD_call (k : Nat) : (s.setD n f).call k = s.call k := rfl
@[simp] theorem State.setD_engine (k : Nat) : (s.setD n f).engine k = s.engine k := rfl
@[simp] theorem State.setD_port (k : Nat) : (s.setD n f).port k = s.port k := rfl
@[simp] theorem State.setD_die_same : (s.setD n f).die n = f (s.die n) := tget_tmod_same _ _ _ _
theorem State.setD_die_other (k : Nat) (h : k ≠ n) : (s.setD n f).die k = s.die k := tget_tmod_other _ _ _ _ _ h

end

/-! ### setS -/

section
variable (s : State) (n : Nat) (f : Stack → Stack)

@[simp] theorem State.setS_now : (s.setS n f).now = s.now := rfl
@[simp] theorem State.setS_cur : (s.setS n f).cur = s.cur := rfl
@[simp] theorem State.setS_groups : (s.setS n f).groups = s.groups := rfl
@[simp] theorem State.setS_teams : (s.setS n f).teams = s.teams := rfl
@[simp] theorem State.setS_grids : (s.setS n f).grids = s.grids := rfl
@[simp] theorem State.setS_cores : (s.setS n f).cores = s.cores := rfl
@[simp] theorem State.setS_clusters : (s.setS n f).clusters = s.clusters := rfl
@[simp] theorem State.setS_dies : (s.setS n f).dies = s.dies := rfl
@[simp] theorem State.setS_cellars : (s.setS n f).cellars = s.cellars := rfl
@[simp] theorem State.setS_ctxs : (s.setS n f).ctxs = s.ctxs := rfl
@[simp] theorem State.setS_queues : (s.setS n f).queues = s.queues := rfl
@[simp] theorem State.setS_calls : (s.setS n f).calls = s.calls := rfl
@[simp] theorem State.setS_jobs : (s.setS n f).jobs = s.jobs := rfl
@[simp] theorem State.setS_engines : (s.setS n f).engines = s.engines := rfl
@[simp] theorem State.setS_crates : (s.setS n f).crates = s.crates := rfl
@[simp] theorem State.setS_reqs : (s.setS n f).reqs = s.reqs := rfl
@[simp] theorem State.setS_pegs : (s.setS n f).pegs = s.pegs := rfl
@[simp] theorem State.setS_pushes : (s.setS n f).pushes = s.pushes := rfl
@[simp] theorem State.setS_ports : (s.setS n f).ports = s.ports := rfl
@[simp] theorem State.setS_down : (s.setS n f).down = s.down := rfl
@[simp] theorem State.setS_mem : (s.setS n f).mem = s.mem := rfl
@[simp] theorem State.setS_l2 : (s.setS n f).l2 = s.l2 := rfl
@[simp] theorem State.setS_dir : (s.setS n f).dir = s.dir := rfl
@[simp] theorem State.setS_poison : (s.setS n f).poison = s.poison := rfl
@[simp] theorem State.setS_hostMem : (s.setS n f).hostMem = s.hostMem := rfl
@[simp] theorem State.setS_hostPoison : (s.setS n f).hostPoison = s.hostPoison := rfl
@[simp] theorem State.setS_hdmBase : (s.setS n f).hdmBase = s.hdmBase := rfl
@[simp] theorem State.setS_hostWaits : (s.setS n f).hostWaits = s.hostWaits := rfl
@[simp] theorem State.setS_shadow : (s.setS n f).shadow = s.shadow := rfl
@[simp] theorem State.setS_raceOn : (s.setS n f).raceOn = s.raceOn := rfl
@[simp] theorem State.setS_intervals : (s.setS n f).intervals = s.intervals := rfl
@[simp] theorem State.setS_nodeid : (s.setS n f).nodeid = s.nodeid := rfl
@[simp] theorem State.setS_porten : (s.setS n f).porten = s.porten := rfl
@[simp] theorem State.setS_ftmo : (s.setS n f).ftmo = s.ftmo := rfl
@[simp] theorem State.setS_wcage : (s.setS n f).wcage = s.wcage := rfl
@[simp] theorem State.setS_routeTable : (s.setS n f).routeTable = s.routeTable := rfl
@[simp] theorem State.setS_routeHeld : (s.setS n f).routeHeld = s.routeHeld := rfl
@[simp] theorem State.setS_routeOld : (s.setS n f).routeOld = s.routeOld := rfl
@[simp] theorem State.setS_q0ring : (s.setS n f).q0ring = s.q0ring := rfl
@[simp] theorem State.setS_q0ctl : (s.setS n f).q0ctl = s.q0ctl := rfl
@[simp] theorem State.setS_bootstat : (s.setS n f).bootstat = s.bootstat := rfl
@[simp] theorem State.setS_herr : (s.setS n f).herr = s.herr := rfl
@[simp] theorem State.setS_hstatWidth : (s.setS n f).hstatWidth = s.hstatWidth := rfl
@[simp] theorem State.setS_hstatRate : (s.setS n f).hstatRate = s.hstatRate := rfl
@[simp] theorem State.setS_pwrcap : (s.setS n f).pwrcap = s.pwrcap := rfl
@[simp] theorem State.setS_power : (s.setS n f).power = s.power := rfl
@[simp] theorem State.setS_temp : (s.setS n f).temp = s.temp := rfl
@[simp] theorem State.setS_clock : (s.setS n f).clock = s.clock := rfl
@[simp] theorem State.setS_clockAt : (s.setS n f).clockAt = s.clockAt := rfl
@[simp] theorem State.setS_clearSince : (s.setS n f).clearSince = s.clearSince := rfl
@[simp] theorem State.setS_thermalStop : (s.setS n f).thermalStop = s.thermalStop := rfl
@[simp] theorem State.setS_stoppedAt : (s.setS n f).stoppedAt = s.stoppedAt := rfl
@[simp] theorem State.setS_msiDue : (s.setS n f).msiDue = s.msiDue := rfl
@[simp] theorem State.setS_msiAt : (s.setS n f).msiAt = s.msiAt := rfl
@[simp] theorem State.setS_fusedMin : (s.setS n f).fusedMin = s.fusedMin := rfl
@[simp] theorem State.setS_boot : (s.setS n f).boot = s.boot := rfl
@[simp] theorem State.setS_resyncCounters : (s.setS n f).resyncCounters = s.resyncCounters := rfl
@[simp] theorem State.setS_inbox : (s.setS n f).inbox = s.inbox := rfl
@[simp] theorem State.setS_wire : (s.setS n f).wire = s.wire := rfl
@[simp] theorem State.setS_hostOut : (s.setS n f).hostOut = s.hostOut := rfl
@[simp] theorem State.setS_mgmtOut : (s.setS n f).mgmtOut = s.mgmtOut := rfl
@[simp] theorem State.setS_agenda : (s.setS n f).agenda = s.agenda := rfl
@[simp] theorem State.setS_fresh : (s.setS n f).fresh = s.fresh := rfl
@[simp] theorem State.setS_nextId : (s.setS n f).nextId = s.nextId := rfl
@[simp] theorem State.setS_grp (k : Nat) : (s.setS n f).grp k = s.grp k := rfl
@[simp] theorem State.setS_team (k : Nat) : (s.setS n f).team k = s.team k := rfl
@[simp] theorem State.setS_grid (k : Nat) : (s.setS n f).grid k = s.grid k := rfl
@[simp] theorem State.setS_core (k : Nat) : (s.setS n f).core k = s.core k := rfl
@[simp] theorem State.setS_cluster (k : Nat) : (s.setS n f).cluster k = s.cluster k := rfl
@[simp] theorem State.setS_die (k : Nat) : (s.setS n f).die k = s.die k := rfl
@[simp] theorem State.setS_cellar (k : Nat) : (s.setS n f).cellar k = s.cellar k := rfl
@[simp] theorem State.setS_ctx (k : Nat) : (s.setS n f).ctx k = s.ctx k := rfl
@[simp] theorem State.setS_queue (k : Nat) : (s.setS n f).queue k = s.queue k := rfl
@[simp] theorem State.setS_call (k : Nat) : (s.setS n f).call k = s.call k := rfl
@[simp] theorem State.setS_engine (k : Nat) : (s.setS n f).engine k = s.engine k := rfl
@[simp] theorem State.setS_port (k : Nat) : (s.setS n f).port k = s.port k := rfl
@[simp] theorem State.setS_stack_same : (s.setS n f).stack n = f (s.stack n) := tget_tmod_same _ _ _ _
theorem State.setS_stack_other (k : Nat) (h : k ≠ n) : (s.setS n f).stack k = s.stack k := tget_tmod_other _ _ _ _ _ h

end

/-! ### setCe -/

section
variable (s : State) (n : Nat) (f : Cellar → Cellar)

@[simp] theorem State.setCe_now : (s.setCe n f).now = s.now := rfl
@[simp] theorem State.setCe_cur : (s.setCe n f).cur = s.cur := rfl
@[simp] theorem State.setCe_groups : (s.setCe n f).groups = s.groups := rfl
@[simp] theorem State.setCe_teams : (s.setCe n f).teams = s.teams := rfl
@[simp] theorem State.setCe_grids : (s.setCe n f).grids = s.grids := rfl
@[simp] theorem State.setCe_cores : (s.setCe n f).cores = s.cores := rfl
@[simp] theorem State.setCe_clusters : (s.setCe n f).clusters = s.clusters := rfl
@[simp] theorem State.setCe_dies : (s.setCe n f).dies = s.dies := rfl
@[simp] theorem State.setCe_memStacks : (s.setCe n f).memStacks = s.memStacks := rfl
@[simp] theorem State.setCe_ctxs : (s.setCe n f).ctxs = s.ctxs := rfl
@[simp] theorem State.setCe_queues : (s.setCe n f).queues = s.queues := rfl
@[simp] theorem State.setCe_calls : (s.setCe n f).calls = s.calls := rfl
@[simp] theorem State.setCe_jobs : (s.setCe n f).jobs = s.jobs := rfl
@[simp] theorem State.setCe_engines : (s.setCe n f).engines = s.engines := rfl
@[simp] theorem State.setCe_crates : (s.setCe n f).crates = s.crates := rfl
@[simp] theorem State.setCe_reqs : (s.setCe n f).reqs = s.reqs := rfl
@[simp] theorem State.setCe_pegs : (s.setCe n f).pegs = s.pegs := rfl
@[simp] theorem State.setCe_pushes : (s.setCe n f).pushes = s.pushes := rfl
@[simp] theorem State.setCe_ports : (s.setCe n f).ports = s.ports := rfl
@[simp] theorem State.setCe_down : (s.setCe n f).down = s.down := rfl
@[simp] theorem State.setCe_mem : (s.setCe n f).mem = s.mem := rfl
@[simp] theorem State.setCe_l2 : (s.setCe n f).l2 = s.l2 := rfl
@[simp] theorem State.setCe_dir : (s.setCe n f).dir = s.dir := rfl
@[simp] theorem State.setCe_poison : (s.setCe n f).poison = s.poison := rfl
@[simp] theorem State.setCe_hostMem : (s.setCe n f).hostMem = s.hostMem := rfl
@[simp] theorem State.setCe_hostPoison : (s.setCe n f).hostPoison = s.hostPoison := rfl
@[simp] theorem State.setCe_hdmBase : (s.setCe n f).hdmBase = s.hdmBase := rfl
@[simp] theorem State.setCe_hostWaits : (s.setCe n f).hostWaits = s.hostWaits := rfl
@[simp] theorem State.setCe_shadow : (s.setCe n f).shadow = s.shadow := rfl
@[simp] theorem State.setCe_raceOn : (s.setCe n f).raceOn = s.raceOn := rfl
@[simp] theorem State.setCe_intervals : (s.setCe n f).intervals = s.intervals := rfl
@[simp] theorem State.setCe_nodeid : (s.setCe n f).nodeid = s.nodeid := rfl
@[simp] theorem State.setCe_porten : (s.setCe n f).porten = s.porten := rfl
@[simp] theorem State.setCe_ftmo : (s.setCe n f).ftmo = s.ftmo := rfl
@[simp] theorem State.setCe_wcage : (s.setCe n f).wcage = s.wcage := rfl
@[simp] theorem State.setCe_routeTable : (s.setCe n f).routeTable = s.routeTable := rfl
@[simp] theorem State.setCe_routeHeld : (s.setCe n f).routeHeld = s.routeHeld := rfl
@[simp] theorem State.setCe_routeOld : (s.setCe n f).routeOld = s.routeOld := rfl
@[simp] theorem State.setCe_q0ring : (s.setCe n f).q0ring = s.q0ring := rfl
@[simp] theorem State.setCe_q0ctl : (s.setCe n f).q0ctl = s.q0ctl := rfl
@[simp] theorem State.setCe_bootstat : (s.setCe n f).bootstat = s.bootstat := rfl
@[simp] theorem State.setCe_herr : (s.setCe n f).herr = s.herr := rfl
@[simp] theorem State.setCe_hstatWidth : (s.setCe n f).hstatWidth = s.hstatWidth := rfl
@[simp] theorem State.setCe_hstatRate : (s.setCe n f).hstatRate = s.hstatRate := rfl
@[simp] theorem State.setCe_pwrcap : (s.setCe n f).pwrcap = s.pwrcap := rfl
@[simp] theorem State.setCe_power : (s.setCe n f).power = s.power := rfl
@[simp] theorem State.setCe_temp : (s.setCe n f).temp = s.temp := rfl
@[simp] theorem State.setCe_clock : (s.setCe n f).clock = s.clock := rfl
@[simp] theorem State.setCe_clockAt : (s.setCe n f).clockAt = s.clockAt := rfl
@[simp] theorem State.setCe_clearSince : (s.setCe n f).clearSince = s.clearSince := rfl
@[simp] theorem State.setCe_thermalStop : (s.setCe n f).thermalStop = s.thermalStop := rfl
@[simp] theorem State.setCe_stoppedAt : (s.setCe n f).stoppedAt = s.stoppedAt := rfl
@[simp] theorem State.setCe_msiDue : (s.setCe n f).msiDue = s.msiDue := rfl
@[simp] theorem State.setCe_msiAt : (s.setCe n f).msiAt = s.msiAt := rfl
@[simp] theorem State.setCe_fusedMin : (s.setCe n f).fusedMin = s.fusedMin := rfl
@[simp] theorem State.setCe_boot : (s.setCe n f).boot = s.boot := rfl
@[simp] theorem State.setCe_resyncCounters : (s.setCe n f).resyncCounters = s.resyncCounters := rfl
@[simp] theorem State.setCe_inbox : (s.setCe n f).inbox = s.inbox := rfl
@[simp] theorem State.setCe_wire : (s.setCe n f).wire = s.wire := rfl
@[simp] theorem State.setCe_hostOut : (s.setCe n f).hostOut = s.hostOut := rfl
@[simp] theorem State.setCe_mgmtOut : (s.setCe n f).mgmtOut = s.mgmtOut := rfl
@[simp] theorem State.setCe_agenda : (s.setCe n f).agenda = s.agenda := rfl
@[simp] theorem State.setCe_fresh : (s.setCe n f).fresh = s.fresh := rfl
@[simp] theorem State.setCe_nextId : (s.setCe n f).nextId = s.nextId := rfl
@[simp] theorem State.setCe_grp (k : Nat) : (s.setCe n f).grp k = s.grp k := rfl
@[simp] theorem State.setCe_team (k : Nat) : (s.setCe n f).team k = s.team k := rfl
@[simp] theorem State.setCe_grid (k : Nat) : (s.setCe n f).grid k = s.grid k := rfl
@[simp] theorem State.setCe_core (k : Nat) : (s.setCe n f).core k = s.core k := rfl
@[simp] theorem State.setCe_cluster (k : Nat) : (s.setCe n f).cluster k = s.cluster k := rfl
@[simp] theorem State.setCe_die (k : Nat) : (s.setCe n f).die k = s.die k := rfl
@[simp] theorem State.setCe_stack (k : Nat) : (s.setCe n f).stack k = s.stack k := rfl
@[simp] theorem State.setCe_ctx (k : Nat) : (s.setCe n f).ctx k = s.ctx k := rfl
@[simp] theorem State.setCe_queue (k : Nat) : (s.setCe n f).queue k = s.queue k := rfl
@[simp] theorem State.setCe_call (k : Nat) : (s.setCe n f).call k = s.call k := rfl
@[simp] theorem State.setCe_engine (k : Nat) : (s.setCe n f).engine k = s.engine k := rfl
@[simp] theorem State.setCe_port (k : Nat) : (s.setCe n f).port k = s.port k := rfl
@[simp] theorem State.setCe_cellar_same : (s.setCe n f).cellar n = f (s.cellar n) := tget_tmod_same _ _ _ _
theorem State.setCe_cellar_other (k : Nat) (h : k ≠ n) : (s.setCe n f).cellar k = s.cellar k := tget_tmod_other _ _ _ _ _ h

end

/-! ### setX -/

section
variable (s : State) (n : Nat) (f : Ctx → Ctx)

@[simp] theorem State.setX_now : (s.setX n f).now = s.now := rfl
@[simp] theorem State.setX_cur : (s.setX n f).cur = s.cur := rfl
@[simp] theorem State.setX_groups : (s.setX n f).groups = s.groups := rfl
@[simp] theorem State.setX_teams : (s.setX n f).teams = s.teams := rfl
@[simp] theorem State.setX_grids : (s.setX n f).grids = s.grids := rfl
@[simp] theorem State.setX_cores : (s.setX n f).cores = s.cores := rfl
@[simp] theorem State.setX_clusters : (s.setX n f).clusters = s.clusters := rfl
@[simp] theorem State.setX_dies : (s.setX n f).dies = s.dies := rfl
@[simp] theorem State.setX_memStacks : (s.setX n f).memStacks = s.memStacks := rfl
@[simp] theorem State.setX_cellars : (s.setX n f).cellars = s.cellars := rfl
@[simp] theorem State.setX_queues : (s.setX n f).queues = s.queues := rfl
@[simp] theorem State.setX_calls : (s.setX n f).calls = s.calls := rfl
@[simp] theorem State.setX_jobs : (s.setX n f).jobs = s.jobs := rfl
@[simp] theorem State.setX_engines : (s.setX n f).engines = s.engines := rfl
@[simp] theorem State.setX_crates : (s.setX n f).crates = s.crates := rfl
@[simp] theorem State.setX_reqs : (s.setX n f).reqs = s.reqs := rfl
@[simp] theorem State.setX_pegs : (s.setX n f).pegs = s.pegs := rfl
@[simp] theorem State.setX_pushes : (s.setX n f).pushes = s.pushes := rfl
@[simp] theorem State.setX_ports : (s.setX n f).ports = s.ports := rfl
@[simp] theorem State.setX_down : (s.setX n f).down = s.down := rfl
@[simp] theorem State.setX_mem : (s.setX n f).mem = s.mem := rfl
@[simp] theorem State.setX_l2 : (s.setX n f).l2 = s.l2 := rfl
@[simp] theorem State.setX_dir : (s.setX n f).dir = s.dir := rfl
@[simp] theorem State.setX_poison : (s.setX n f).poison = s.poison := rfl
@[simp] theorem State.setX_hostMem : (s.setX n f).hostMem = s.hostMem := rfl
@[simp] theorem State.setX_hostPoison : (s.setX n f).hostPoison = s.hostPoison := rfl
@[simp] theorem State.setX_hdmBase : (s.setX n f).hdmBase = s.hdmBase := rfl
@[simp] theorem State.setX_hostWaits : (s.setX n f).hostWaits = s.hostWaits := rfl
@[simp] theorem State.setX_shadow : (s.setX n f).shadow = s.shadow := rfl
@[simp] theorem State.setX_raceOn : (s.setX n f).raceOn = s.raceOn := rfl
@[simp] theorem State.setX_intervals : (s.setX n f).intervals = s.intervals := rfl
@[simp] theorem State.setX_nodeid : (s.setX n f).nodeid = s.nodeid := rfl
@[simp] theorem State.setX_porten : (s.setX n f).porten = s.porten := rfl
@[simp] theorem State.setX_ftmo : (s.setX n f).ftmo = s.ftmo := rfl
@[simp] theorem State.setX_wcage : (s.setX n f).wcage = s.wcage := rfl
@[simp] theorem State.setX_routeTable : (s.setX n f).routeTable = s.routeTable := rfl
@[simp] theorem State.setX_routeHeld : (s.setX n f).routeHeld = s.routeHeld := rfl
@[simp] theorem State.setX_routeOld : (s.setX n f).routeOld = s.routeOld := rfl
@[simp] theorem State.setX_q0ring : (s.setX n f).q0ring = s.q0ring := rfl
@[simp] theorem State.setX_q0ctl : (s.setX n f).q0ctl = s.q0ctl := rfl
@[simp] theorem State.setX_bootstat : (s.setX n f).bootstat = s.bootstat := rfl
@[simp] theorem State.setX_herr : (s.setX n f).herr = s.herr := rfl
@[simp] theorem State.setX_hstatWidth : (s.setX n f).hstatWidth = s.hstatWidth := rfl
@[simp] theorem State.setX_hstatRate : (s.setX n f).hstatRate = s.hstatRate := rfl
@[simp] theorem State.setX_pwrcap : (s.setX n f).pwrcap = s.pwrcap := rfl
@[simp] theorem State.setX_power : (s.setX n f).power = s.power := rfl
@[simp] theorem State.setX_temp : (s.setX n f).temp = s.temp := rfl
@[simp] theorem State.setX_clock : (s.setX n f).clock = s.clock := rfl
@[simp] theorem State.setX_clockAt : (s.setX n f).clockAt = s.clockAt := rfl
@[simp] theorem State.setX_clearSince : (s.setX n f).clearSince = s.clearSince := rfl
@[simp] theorem State.setX_thermalStop : (s.setX n f).thermalStop = s.thermalStop := rfl
@[simp] theorem State.setX_stoppedAt : (s.setX n f).stoppedAt = s.stoppedAt := rfl
@[simp] theorem State.setX_msiDue : (s.setX n f).msiDue = s.msiDue := rfl
@[simp] theorem State.setX_msiAt : (s.setX n f).msiAt = s.msiAt := rfl
@[simp] theorem State.setX_fusedMin : (s.setX n f).fusedMin = s.fusedMin := rfl
@[simp] theorem State.setX_boot : (s.setX n f).boot = s.boot := rfl
@[simp] theorem State.setX_resyncCounters : (s.setX n f).resyncCounters = s.resyncCounters := rfl
@[simp] theorem State.setX_inbox : (s.setX n f).inbox = s.inbox := rfl
@[simp] theorem State.setX_wire : (s.setX n f).wire = s.wire := rfl
@[simp] theorem State.setX_hostOut : (s.setX n f).hostOut = s.hostOut := rfl
@[simp] theorem State.setX_mgmtOut : (s.setX n f).mgmtOut = s.mgmtOut := rfl
@[simp] theorem State.setX_agenda : (s.setX n f).agenda = s.agenda := rfl
@[simp] theorem State.setX_fresh : (s.setX n f).fresh = s.fresh := rfl
@[simp] theorem State.setX_nextId : (s.setX n f).nextId = s.nextId := rfl
@[simp] theorem State.setX_grp (k : Nat) : (s.setX n f).grp k = s.grp k := rfl
@[simp] theorem State.setX_team (k : Nat) : (s.setX n f).team k = s.team k := rfl
@[simp] theorem State.setX_grid (k : Nat) : (s.setX n f).grid k = s.grid k := rfl
@[simp] theorem State.setX_core (k : Nat) : (s.setX n f).core k = s.core k := rfl
@[simp] theorem State.setX_cluster (k : Nat) : (s.setX n f).cluster k = s.cluster k := rfl
@[simp] theorem State.setX_die (k : Nat) : (s.setX n f).die k = s.die k := rfl
@[simp] theorem State.setX_stack (k : Nat) : (s.setX n f).stack k = s.stack k := rfl
@[simp] theorem State.setX_cellar (k : Nat) : (s.setX n f).cellar k = s.cellar k := rfl
@[simp] theorem State.setX_queue (k : Nat) : (s.setX n f).queue k = s.queue k := rfl
@[simp] theorem State.setX_call (k : Nat) : (s.setX n f).call k = s.call k := rfl
@[simp] theorem State.setX_engine (k : Nat) : (s.setX n f).engine k = s.engine k := rfl
@[simp] theorem State.setX_port (k : Nat) : (s.setX n f).port k = s.port k := rfl
@[simp] theorem State.setX_ctx_same : (s.setX n f).ctx n = f (s.ctx n) := tget_tmod_same _ _ _ _
theorem State.setX_ctx_other (k : Nat) (h : k ≠ n) : (s.setX n f).ctx k = s.ctx k := tget_tmod_other _ _ _ _ _ h

end

/-! ### setQ -/

section
variable (s : State) (n : Nat) (f : WQueue → WQueue)

@[simp] theorem State.setQ_now : (s.setQ n f).now = s.now := rfl
@[simp] theorem State.setQ_cur : (s.setQ n f).cur = s.cur := rfl
@[simp] theorem State.setQ_groups : (s.setQ n f).groups = s.groups := rfl
@[simp] theorem State.setQ_teams : (s.setQ n f).teams = s.teams := rfl
@[simp] theorem State.setQ_grids : (s.setQ n f).grids = s.grids := rfl
@[simp] theorem State.setQ_cores : (s.setQ n f).cores = s.cores := rfl
@[simp] theorem State.setQ_clusters : (s.setQ n f).clusters = s.clusters := rfl
@[simp] theorem State.setQ_dies : (s.setQ n f).dies = s.dies := rfl
@[simp] theorem State.setQ_memStacks : (s.setQ n f).memStacks = s.memStacks := rfl
@[simp] theorem State.setQ_cellars : (s.setQ n f).cellars = s.cellars := rfl
@[simp] theorem State.setQ_ctxs : (s.setQ n f).ctxs = s.ctxs := rfl
@[simp] theorem State.setQ_calls : (s.setQ n f).calls = s.calls := rfl
@[simp] theorem State.setQ_jobs : (s.setQ n f).jobs = s.jobs := rfl
@[simp] theorem State.setQ_engines : (s.setQ n f).engines = s.engines := rfl
@[simp] theorem State.setQ_crates : (s.setQ n f).crates = s.crates := rfl
@[simp] theorem State.setQ_reqs : (s.setQ n f).reqs = s.reqs := rfl
@[simp] theorem State.setQ_pegs : (s.setQ n f).pegs = s.pegs := rfl
@[simp] theorem State.setQ_pushes : (s.setQ n f).pushes = s.pushes := rfl
@[simp] theorem State.setQ_ports : (s.setQ n f).ports = s.ports := rfl
@[simp] theorem State.setQ_down : (s.setQ n f).down = s.down := rfl
@[simp] theorem State.setQ_mem : (s.setQ n f).mem = s.mem := rfl
@[simp] theorem State.setQ_l2 : (s.setQ n f).l2 = s.l2 := rfl
@[simp] theorem State.setQ_dir : (s.setQ n f).dir = s.dir := rfl
@[simp] theorem State.setQ_poison : (s.setQ n f).poison = s.poison := rfl
@[simp] theorem State.setQ_hostMem : (s.setQ n f).hostMem = s.hostMem := rfl
@[simp] theorem State.setQ_hostPoison : (s.setQ n f).hostPoison = s.hostPoison := rfl
@[simp] theorem State.setQ_hdmBase : (s.setQ n f).hdmBase = s.hdmBase := rfl
@[simp] theorem State.setQ_hostWaits : (s.setQ n f).hostWaits = s.hostWaits := rfl
@[simp] theorem State.setQ_shadow : (s.setQ n f).shadow = s.shadow := rfl
@[simp] theorem State.setQ_raceOn : (s.setQ n f).raceOn = s.raceOn := rfl
@[simp] theorem State.setQ_intervals : (s.setQ n f).intervals = s.intervals := rfl
@[simp] theorem State.setQ_nodeid : (s.setQ n f).nodeid = s.nodeid := rfl
@[simp] theorem State.setQ_porten : (s.setQ n f).porten = s.porten := rfl
@[simp] theorem State.setQ_ftmo : (s.setQ n f).ftmo = s.ftmo := rfl
@[simp] theorem State.setQ_wcage : (s.setQ n f).wcage = s.wcage := rfl
@[simp] theorem State.setQ_routeTable : (s.setQ n f).routeTable = s.routeTable := rfl
@[simp] theorem State.setQ_routeHeld : (s.setQ n f).routeHeld = s.routeHeld := rfl
@[simp] theorem State.setQ_routeOld : (s.setQ n f).routeOld = s.routeOld := rfl
@[simp] theorem State.setQ_q0ring : (s.setQ n f).q0ring = s.q0ring := rfl
@[simp] theorem State.setQ_q0ctl : (s.setQ n f).q0ctl = s.q0ctl := rfl
@[simp] theorem State.setQ_bootstat : (s.setQ n f).bootstat = s.bootstat := rfl
@[simp] theorem State.setQ_herr : (s.setQ n f).herr = s.herr := rfl
@[simp] theorem State.setQ_hstatWidth : (s.setQ n f).hstatWidth = s.hstatWidth := rfl
@[simp] theorem State.setQ_hstatRate : (s.setQ n f).hstatRate = s.hstatRate := rfl
@[simp] theorem State.setQ_pwrcap : (s.setQ n f).pwrcap = s.pwrcap := rfl
@[simp] theorem State.setQ_power : (s.setQ n f).power = s.power := rfl
@[simp] theorem State.setQ_temp : (s.setQ n f).temp = s.temp := rfl
@[simp] theorem State.setQ_clock : (s.setQ n f).clock = s.clock := rfl
@[simp] theorem State.setQ_clockAt : (s.setQ n f).clockAt = s.clockAt := rfl
@[simp] theorem State.setQ_clearSince : (s.setQ n f).clearSince = s.clearSince := rfl
@[simp] theorem State.setQ_thermalStop : (s.setQ n f).thermalStop = s.thermalStop := rfl
@[simp] theorem State.setQ_stoppedAt : (s.setQ n f).stoppedAt = s.stoppedAt := rfl
@[simp] theorem State.setQ_msiDue : (s.setQ n f).msiDue = s.msiDue := rfl
@[simp] theorem State.setQ_msiAt : (s.setQ n f).msiAt = s.msiAt := rfl
@[simp] theorem State.setQ_fusedMin : (s.setQ n f).fusedMin = s.fusedMin := rfl
@[simp] theorem State.setQ_boot : (s.setQ n f).boot = s.boot := rfl
@[simp] theorem State.setQ_resyncCounters : (s.setQ n f).resyncCounters = s.resyncCounters := rfl
@[simp] theorem State.setQ_inbox : (s.setQ n f).inbox = s.inbox := rfl
@[simp] theorem State.setQ_wire : (s.setQ n f).wire = s.wire := rfl
@[simp] theorem State.setQ_hostOut : (s.setQ n f).hostOut = s.hostOut := rfl
@[simp] theorem State.setQ_mgmtOut : (s.setQ n f).mgmtOut = s.mgmtOut := rfl
@[simp] theorem State.setQ_agenda : (s.setQ n f).agenda = s.agenda := rfl
@[simp] theorem State.setQ_fresh : (s.setQ n f).fresh = s.fresh := rfl
@[simp] theorem State.setQ_nextId : (s.setQ n f).nextId = s.nextId := rfl
@[simp] theorem State.setQ_grp (k : Nat) : (s.setQ n f).grp k = s.grp k := rfl
@[simp] theorem State.setQ_team (k : Nat) : (s.setQ n f).team k = s.team k := rfl
@[simp] theorem State.setQ_grid (k : Nat) : (s.setQ n f).grid k = s.grid k := rfl
@[simp] theorem State.setQ_core (k : Nat) : (s.setQ n f).core k = s.core k := rfl
@[simp] theorem State.setQ_cluster (k : Nat) : (s.setQ n f).cluster k = s.cluster k := rfl
@[simp] theorem State.setQ_die (k : Nat) : (s.setQ n f).die k = s.die k := rfl
@[simp] theorem State.setQ_stack (k : Nat) : (s.setQ n f).stack k = s.stack k := rfl
@[simp] theorem State.setQ_cellar (k : Nat) : (s.setQ n f).cellar k = s.cellar k := rfl
@[simp] theorem State.setQ_ctx (k : Nat) : (s.setQ n f).ctx k = s.ctx k := rfl
@[simp] theorem State.setQ_call (k : Nat) : (s.setQ n f).call k = s.call k := rfl
@[simp] theorem State.setQ_engine (k : Nat) : (s.setQ n f).engine k = s.engine k := rfl
@[simp] theorem State.setQ_port (k : Nat) : (s.setQ n f).port k = s.port k := rfl
@[simp] theorem State.setQ_queue_same : (s.setQ n f).queue n = f (s.queue n) := tget_tmod_same _ _ _ _
theorem State.setQ_queue_other (k : Nat) (h : k ≠ n) : (s.setQ n f).queue k = s.queue k := tget_tmod_other _ _ _ _ _ h

end

/-! ### setCall -/

section
variable (s : State) (n : Nat) (f : Call → Call)

@[simp] theorem State.setCall_now : (s.setCall n f).now = s.now := rfl
@[simp] theorem State.setCall_cur : (s.setCall n f).cur = s.cur := rfl
@[simp] theorem State.setCall_groups : (s.setCall n f).groups = s.groups := rfl
@[simp] theorem State.setCall_teams : (s.setCall n f).teams = s.teams := rfl
@[simp] theorem State.setCall_grids : (s.setCall n f).grids = s.grids := rfl
@[simp] theorem State.setCall_cores : (s.setCall n f).cores = s.cores := rfl
@[simp] theorem State.setCall_clusters : (s.setCall n f).clusters = s.clusters := rfl
@[simp] theorem State.setCall_dies : (s.setCall n f).dies = s.dies := rfl
@[simp] theorem State.setCall_memStacks : (s.setCall n f).memStacks = s.memStacks := rfl
@[simp] theorem State.setCall_cellars : (s.setCall n f).cellars = s.cellars := rfl
@[simp] theorem State.setCall_ctxs : (s.setCall n f).ctxs = s.ctxs := rfl
@[simp] theorem State.setCall_queues : (s.setCall n f).queues = s.queues := rfl
@[simp] theorem State.setCall_jobs : (s.setCall n f).jobs = s.jobs := rfl
@[simp] theorem State.setCall_engines : (s.setCall n f).engines = s.engines := rfl
@[simp] theorem State.setCall_crates : (s.setCall n f).crates = s.crates := rfl
@[simp] theorem State.setCall_reqs : (s.setCall n f).reqs = s.reqs := rfl
@[simp] theorem State.setCall_pegs : (s.setCall n f).pegs = s.pegs := rfl
@[simp] theorem State.setCall_pushes : (s.setCall n f).pushes = s.pushes := rfl
@[simp] theorem State.setCall_ports : (s.setCall n f).ports = s.ports := rfl
@[simp] theorem State.setCall_down : (s.setCall n f).down = s.down := rfl
@[simp] theorem State.setCall_mem : (s.setCall n f).mem = s.mem := rfl
@[simp] theorem State.setCall_l2 : (s.setCall n f).l2 = s.l2 := rfl
@[simp] theorem State.setCall_dir : (s.setCall n f).dir = s.dir := rfl
@[simp] theorem State.setCall_poison : (s.setCall n f).poison = s.poison := rfl
@[simp] theorem State.setCall_hostMem : (s.setCall n f).hostMem = s.hostMem := rfl
@[simp] theorem State.setCall_hostPoison : (s.setCall n f).hostPoison = s.hostPoison := rfl
@[simp] theorem State.setCall_hdmBase : (s.setCall n f).hdmBase = s.hdmBase := rfl
@[simp] theorem State.setCall_hostWaits : (s.setCall n f).hostWaits = s.hostWaits := rfl
@[simp] theorem State.setCall_shadow : (s.setCall n f).shadow = s.shadow := rfl
@[simp] theorem State.setCall_raceOn : (s.setCall n f).raceOn = s.raceOn := rfl
@[simp] theorem State.setCall_intervals : (s.setCall n f).intervals = s.intervals := rfl
@[simp] theorem State.setCall_nodeid : (s.setCall n f).nodeid = s.nodeid := rfl
@[simp] theorem State.setCall_porten : (s.setCall n f).porten = s.porten := rfl
@[simp] theorem State.setCall_ftmo : (s.setCall n f).ftmo = s.ftmo := rfl
@[simp] theorem State.setCall_wcage : (s.setCall n f).wcage = s.wcage := rfl
@[simp] theorem State.setCall_routeTable : (s.setCall n f).routeTable = s.routeTable := rfl
@[simp] theorem State.setCall_routeHeld : (s.setCall n f).routeHeld = s.routeHeld := rfl
@[simp] theorem State.setCall_routeOld : (s.setCall n f).routeOld = s.routeOld := rfl
@[simp] theorem State.setCall_q0ring : (s.setCall n f).q0ring = s.q0ring := rfl
@[simp] theorem State.setCall_q0ctl : (s.setCall n f).q0ctl = s.q0ctl := rfl
@[simp] theorem State.setCall_bootstat : (s.setCall n f).bootstat = s.bootstat := rfl
@[simp] theorem State.setCall_herr : (s.setCall n f).herr = s.herr := rfl
@[simp] theorem State.setCall_hstatWidth : (s.setCall n f).hstatWidth = s.hstatWidth := rfl
@[simp] theorem State.setCall_hstatRate : (s.setCall n f).hstatRate = s.hstatRate := rfl
@[simp] theorem State.setCall_pwrcap : (s.setCall n f).pwrcap = s.pwrcap := rfl
@[simp] theorem State.setCall_power : (s.setCall n f).power = s.power := rfl
@[simp] theorem State.setCall_temp : (s.setCall n f).temp = s.temp := rfl
@[simp] theorem State.setCall_clock : (s.setCall n f).clock = s.clock := rfl
@[simp] theorem State.setCall_clockAt : (s.setCall n f).clockAt = s.clockAt := rfl
@[simp] theorem State.setCall_clearSince : (s.setCall n f).clearSince = s.clearSince := rfl
@[simp] theorem State.setCall_thermalStop : (s.setCall n f).thermalStop = s.thermalStop := rfl
@[simp] theorem State.setCall_stoppedAt : (s.setCall n f).stoppedAt = s.stoppedAt := rfl
@[simp] theorem State.setCall_msiDue : (s.setCall n f).msiDue = s.msiDue := rfl
@[simp] theorem State.setCall_msiAt : (s.setCall n f).msiAt = s.msiAt := rfl
@[simp] theorem State.setCall_fusedMin : (s.setCall n f).fusedMin = s.fusedMin := rfl
@[simp] theorem State.setCall_boot : (s.setCall n f).boot = s.boot := rfl
@[simp] theorem State.setCall_resyncCounters : (s.setCall n f).resyncCounters = s.resyncCounters := rfl
@[simp] theorem State.setCall_inbox : (s.setCall n f).inbox = s.inbox := rfl
@[simp] theorem State.setCall_wire : (s.setCall n f).wire = s.wire := rfl
@[simp] theorem State.setCall_hostOut : (s.setCall n f).hostOut = s.hostOut := rfl
@[simp] theorem State.setCall_mgmtOut : (s.setCall n f).mgmtOut = s.mgmtOut := rfl
@[simp] theorem State.setCall_agenda : (s.setCall n f).agenda = s.agenda := rfl
@[simp] theorem State.setCall_fresh : (s.setCall n f).fresh = s.fresh := rfl
@[simp] theorem State.setCall_nextId : (s.setCall n f).nextId = s.nextId := rfl
@[simp] theorem State.setCall_grp (k : Nat) : (s.setCall n f).grp k = s.grp k := rfl
@[simp] theorem State.setCall_team (k : Nat) : (s.setCall n f).team k = s.team k := rfl
@[simp] theorem State.setCall_grid (k : Nat) : (s.setCall n f).grid k = s.grid k := rfl
@[simp] theorem State.setCall_core (k : Nat) : (s.setCall n f).core k = s.core k := rfl
@[simp] theorem State.setCall_cluster (k : Nat) : (s.setCall n f).cluster k = s.cluster k := rfl
@[simp] theorem State.setCall_die (k : Nat) : (s.setCall n f).die k = s.die k := rfl
@[simp] theorem State.setCall_stack (k : Nat) : (s.setCall n f).stack k = s.stack k := rfl
@[simp] theorem State.setCall_cellar (k : Nat) : (s.setCall n f).cellar k = s.cellar k := rfl
@[simp] theorem State.setCall_ctx (k : Nat) : (s.setCall n f).ctx k = s.ctx k := rfl
@[simp] theorem State.setCall_queue (k : Nat) : (s.setCall n f).queue k = s.queue k := rfl
@[simp] theorem State.setCall_engine (k : Nat) : (s.setCall n f).engine k = s.engine k := rfl
@[simp] theorem State.setCall_port (k : Nat) : (s.setCall n f).port k = s.port k := rfl
@[simp] theorem State.setCall_call_same : (s.setCall n f).call n = f (s.call n) := tget_tmod_same _ _ _ _
theorem State.setCall_call_other (k : Nat) (h : k ≠ n) : (s.setCall n f).call k = s.call k := tget_tmod_other _ _ _ _ _ h

end

/-! ### setE -/

section
variable (s : State) (n : Nat) (f : Engine → Engine)

@[simp] theorem State.setE_now : (s.setE n f).now = s.now := rfl
@[simp] theorem State.setE_cur : (s.setE n f).cur = s.cur := rfl
@[simp] theorem State.setE_groups : (s.setE n f).groups = s.groups := rfl
@[simp] theorem State.setE_teams : (s.setE n f).teams = s.teams := rfl
@[simp] theorem State.setE_grids : (s.setE n f).grids = s.grids := rfl
@[simp] theorem State.setE_cores : (s.setE n f).cores = s.cores := rfl
@[simp] theorem State.setE_clusters : (s.setE n f).clusters = s.clusters := rfl
@[simp] theorem State.setE_dies : (s.setE n f).dies = s.dies := rfl
@[simp] theorem State.setE_memStacks : (s.setE n f).memStacks = s.memStacks := rfl
@[simp] theorem State.setE_cellars : (s.setE n f).cellars = s.cellars := rfl
@[simp] theorem State.setE_ctxs : (s.setE n f).ctxs = s.ctxs := rfl
@[simp] theorem State.setE_queues : (s.setE n f).queues = s.queues := rfl
@[simp] theorem State.setE_calls : (s.setE n f).calls = s.calls := rfl
@[simp] theorem State.setE_jobs : (s.setE n f).jobs = s.jobs := rfl
@[simp] theorem State.setE_crates : (s.setE n f).crates = s.crates := rfl
@[simp] theorem State.setE_reqs : (s.setE n f).reqs = s.reqs := rfl
@[simp] theorem State.setE_pegs : (s.setE n f).pegs = s.pegs := rfl
@[simp] theorem State.setE_pushes : (s.setE n f).pushes = s.pushes := rfl
@[simp] theorem State.setE_ports : (s.setE n f).ports = s.ports := rfl
@[simp] theorem State.setE_down : (s.setE n f).down = s.down := rfl
@[simp] theorem State.setE_mem : (s.setE n f).mem = s.mem := rfl
@[simp] theorem State.setE_l2 : (s.setE n f).l2 = s.l2 := rfl
@[simp] theorem State.setE_dir : (s.setE n f).dir = s.dir := rfl
@[simp] theorem State.setE_poison : (s.setE n f).poison = s.poison := rfl
@[simp] theorem State.setE_hostMem : (s.setE n f).hostMem = s.hostMem := rfl
@[simp] theorem State.setE_hostPoison : (s.setE n f).hostPoison = s.hostPoison := rfl
@[simp] theorem State.setE_hdmBase : (s.setE n f).hdmBase = s.hdmBase := rfl
@[simp] theorem State.setE_hostWaits : (s.setE n f).hostWaits = s.hostWaits := rfl
@[simp] theorem State.setE_shadow : (s.setE n f).shadow = s.shadow := rfl
@[simp] theorem State.setE_raceOn : (s.setE n f).raceOn = s.raceOn := rfl
@[simp] theorem State.setE_intervals : (s.setE n f).intervals = s.intervals := rfl
@[simp] theorem State.setE_nodeid : (s.setE n f).nodeid = s.nodeid := rfl
@[simp] theorem State.setE_porten : (s.setE n f).porten = s.porten := rfl
@[simp] theorem State.setE_ftmo : (s.setE n f).ftmo = s.ftmo := rfl
@[simp] theorem State.setE_wcage : (s.setE n f).wcage = s.wcage := rfl
@[simp] theorem State.setE_routeTable : (s.setE n f).routeTable = s.routeTable := rfl
@[simp] theorem State.setE_routeHeld : (s.setE n f).routeHeld = s.routeHeld := rfl
@[simp] theorem State.setE_routeOld : (s.setE n f).routeOld = s.routeOld := rfl
@[simp] theorem State.setE_q0ring : (s.setE n f).q0ring = s.q0ring := rfl
@[simp] theorem State.setE_q0ctl : (s.setE n f).q0ctl = s.q0ctl := rfl
@[simp] theorem State.setE_bootstat : (s.setE n f).bootstat = s.bootstat := rfl
@[simp] theorem State.setE_herr : (s.setE n f).herr = s.herr := rfl
@[simp] theorem State.setE_hstatWidth : (s.setE n f).hstatWidth = s.hstatWidth := rfl
@[simp] theorem State.setE_hstatRate : (s.setE n f).hstatRate = s.hstatRate := rfl
@[simp] theorem State.setE_pwrcap : (s.setE n f).pwrcap = s.pwrcap := rfl
@[simp] theorem State.setE_power : (s.setE n f).power = s.power := rfl
@[simp] theorem State.setE_temp : (s.setE n f).temp = s.temp := rfl
@[simp] theorem State.setE_clock : (s.setE n f).clock = s.clock := rfl
@[simp] theorem State.setE_clockAt : (s.setE n f).clockAt = s.clockAt := rfl
@[simp] theorem State.setE_clearSince : (s.setE n f).clearSince = s.clearSince := rfl
@[simp] theorem State.setE_thermalStop : (s.setE n f).thermalStop = s.thermalStop := rfl
@[simp] theorem State.setE_stoppedAt : (s.setE n f).stoppedAt = s.stoppedAt := rfl
@[simp] theorem State.setE_msiDue : (s.setE n f).msiDue = s.msiDue := rfl
@[simp] theorem State.setE_msiAt : (s.setE n f).msiAt = s.msiAt := rfl
@[simp] theorem State.setE_fusedMin : (s.setE n f).fusedMin = s.fusedMin := rfl
@[simp] theorem State.setE_boot : (s.setE n f).boot = s.boot := rfl
@[simp] theorem State.setE_resyncCounters : (s.setE n f).resyncCounters = s.resyncCounters := rfl
@[simp] theorem State.setE_inbox : (s.setE n f).inbox = s.inbox := rfl
@[simp] theorem State.setE_wire : (s.setE n f).wire = s.wire := rfl
@[simp] theorem State.setE_hostOut : (s.setE n f).hostOut = s.hostOut := rfl
@[simp] theorem State.setE_mgmtOut : (s.setE n f).mgmtOut = s.mgmtOut := rfl
@[simp] theorem State.setE_agenda : (s.setE n f).agenda = s.agenda := rfl
@[simp] theorem State.setE_fresh : (s.setE n f).fresh = s.fresh := rfl
@[simp] theorem State.setE_nextId : (s.setE n f).nextId = s.nextId := rfl
@[simp] theorem State.setE_grp (k : Nat) : (s.setE n f).grp k = s.grp k := rfl
@[simp] theorem State.setE_team (k : Nat) : (s.setE n f).team k = s.team k := rfl
@[simp] theorem State.setE_grid (k : Nat) : (s.setE n f).grid k = s.grid k := rfl
@[simp] theorem State.setE_core (k : Nat) : (s.setE n f).core k = s.core k := rfl
@[simp] theorem State.setE_cluster (k : Nat) : (s.setE n f).cluster k = s.cluster k := rfl
@[simp] theorem State.setE_die (k : Nat) : (s.setE n f).die k = s.die k := rfl
@[simp] theorem State.setE_stack (k : Nat) : (s.setE n f).stack k = s.stack k := rfl
@[simp] theorem State.setE_cellar (k : Nat) : (s.setE n f).cellar k = s.cellar k := rfl
@[simp] theorem State.setE_ctx (k : Nat) : (s.setE n f).ctx k = s.ctx k := rfl
@[simp] theorem State.setE_queue (k : Nat) : (s.setE n f).queue k = s.queue k := rfl
@[simp] theorem State.setE_call (k : Nat) : (s.setE n f).call k = s.call k := rfl
@[simp] theorem State.setE_port (k : Nat) : (s.setE n f).port k = s.port k := rfl
@[simp] theorem State.setE_engine_same : (s.setE n f).engine n = f (s.engine n) := tget_tmod_same _ _ _ _
theorem State.setE_engine_other (k : Nat) (h : k ≠ n) : (s.setE n f).engine k = s.engine k := tget_tmod_other _ _ _ _ _ h

end

/-! ### setP -/

section
variable (s : State) (n : Nat) (f : Port → Port)

@[simp] theorem State.setP_now : (s.setP n f).now = s.now := rfl
@[simp] theorem State.setP_cur : (s.setP n f).cur = s.cur := rfl
@[simp] theorem State.setP_groups : (s.setP n f).groups = s.groups := rfl
@[simp] theorem State.setP_teams : (s.setP n f).teams = s.teams := rfl
@[simp] theorem State.setP_grids : (s.setP n f).grids = s.grids := rfl
@[simp] theorem State.setP_cores : (s.setP n f).cores = s.cores := rfl
@[simp] theorem State.setP_clusters : (s.setP n f).clusters = s.clusters := rfl
@[simp] theorem State.setP_dies : (s.setP n f).dies = s.dies := rfl
@[simp] theorem State.setP_memStacks : (s.setP n f).memStacks = s.memStacks := rfl
@[simp] theorem State.setP_cellars : (s.setP n f).cellars = s.cellars := rfl
@[simp] theorem State.setP_ctxs : (s.setP n f).ctxs = s.ctxs := rfl
@[simp] theorem State.setP_queues : (s.setP n f).queues = s.queues := rfl
@[simp] theorem State.setP_calls : (s.setP n f).calls = s.calls := rfl
@[simp] theorem State.setP_jobs : (s.setP n f).jobs = s.jobs := rfl
@[simp] theorem State.setP_engines : (s.setP n f).engines = s.engines := rfl
@[simp] theorem State.setP_crates : (s.setP n f).crates = s.crates := rfl
@[simp] theorem State.setP_reqs : (s.setP n f).reqs = s.reqs := rfl
@[simp] theorem State.setP_pegs : (s.setP n f).pegs = s.pegs := rfl
@[simp] theorem State.setP_pushes : (s.setP n f).pushes = s.pushes := rfl
@[simp] theorem State.setP_down : (s.setP n f).down = s.down := rfl
@[simp] theorem State.setP_mem : (s.setP n f).mem = s.mem := rfl
@[simp] theorem State.setP_l2 : (s.setP n f).l2 = s.l2 := rfl
@[simp] theorem State.setP_dir : (s.setP n f).dir = s.dir := rfl
@[simp] theorem State.setP_poison : (s.setP n f).poison = s.poison := rfl
@[simp] theorem State.setP_hostMem : (s.setP n f).hostMem = s.hostMem := rfl
@[simp] theorem State.setP_hostPoison : (s.setP n f).hostPoison = s.hostPoison := rfl
@[simp] theorem State.setP_hdmBase : (s.setP n f).hdmBase = s.hdmBase := rfl
@[simp] theorem State.setP_hostWaits : (s.setP n f).hostWaits = s.hostWaits := rfl
@[simp] theorem State.setP_shadow : (s.setP n f).shadow = s.shadow := rfl
@[simp] theorem State.setP_raceOn : (s.setP n f).raceOn = s.raceOn := rfl
@[simp] theorem State.setP_intervals : (s.setP n f).intervals = s.intervals := rfl
@[simp] theorem State.setP_nodeid : (s.setP n f).nodeid = s.nodeid := rfl
@[simp] theorem State.setP_porten : (s.setP n f).porten = s.porten := rfl
@[simp] theorem State.setP_ftmo : (s.setP n f).ftmo = s.ftmo := rfl
@[simp] theorem State.setP_wcage : (s.setP n f).wcage = s.wcage := rfl
@[simp] theorem State.setP_routeTable : (s.setP n f).routeTable = s.routeTable := rfl
@[simp] theorem State.setP_routeHeld : (s.setP n f).routeHeld = s.routeHeld := rfl
@[simp] theorem State.setP_routeOld : (s.setP n f).routeOld = s.routeOld := rfl
@[simp] theorem State.setP_q0ring : (s.setP n f).q0ring = s.q0ring := rfl
@[simp] theorem State.setP_q0ctl : (s.setP n f).q0ctl = s.q0ctl := rfl
@[simp] theorem State.setP_bootstat : (s.setP n f).bootstat = s.bootstat := rfl
@[simp] theorem State.setP_herr : (s.setP n f).herr = s.herr := rfl
@[simp] theorem State.setP_hstatWidth : (s.setP n f).hstatWidth = s.hstatWidth := rfl
@[simp] theorem State.setP_hstatRate : (s.setP n f).hstatRate = s.hstatRate := rfl
@[simp] theorem State.setP_pwrcap : (s.setP n f).pwrcap = s.pwrcap := rfl
@[simp] theorem State.setP_power : (s.setP n f).power = s.power := rfl
@[simp] theorem State.setP_temp : (s.setP n f).temp = s.temp := rfl
@[simp] theorem State.setP_clock : (s.setP n f).clock = s.clock := rfl
@[simp] theorem State.setP_clockAt : (s.setP n f).clockAt = s.clockAt := rfl
@[simp] theorem State.setP_clearSince : (s.setP n f).clearSince = s.clearSince := rfl
@[simp] theorem State.setP_thermalStop : (s.setP n f).thermalStop = s.thermalStop := rfl
@[simp] theorem State.setP_stoppedAt : (s.setP n f).stoppedAt = s.stoppedAt := rfl
@[simp] theorem State.setP_msiDue : (s.setP n f).msiDue = s.msiDue := rfl
@[simp] theorem State.setP_msiAt : (s.setP n f).msiAt = s.msiAt := rfl
@[simp] theorem State.setP_fusedMin : (s.setP n f).fusedMin = s.fusedMin := rfl
@[simp] theorem State.setP_boot : (s.setP n f).boot = s.boot := rfl
@[simp] theorem State.setP_resyncCounters : (s.setP n f).resyncCounters = s.resyncCounters := rfl
@[simp] theorem State.setP_inbox : (s.setP n f).inbox = s.inbox := rfl
@[simp] theorem State.setP_wire : (s.setP n f).wire = s.wire := rfl
@[simp] theorem State.setP_hostOut : (s.setP n f).hostOut = s.hostOut := rfl
@[simp] theorem State.setP_mgmtOut : (s.setP n f).mgmtOut = s.mgmtOut := rfl
@[simp] theorem State.setP_agenda : (s.setP n f).agenda = s.agenda := rfl
@[simp] theorem State.setP_fresh : (s.setP n f).fresh = s.fresh := rfl
@[simp] theorem State.setP_nextId : (s.setP n f).nextId = s.nextId := rfl
@[simp] theorem State.setP_grp (k : Nat) : (s.setP n f).grp k = s.grp k := rfl
@[simp] theorem State.setP_team (k : Nat) : (s.setP n f).team k = s.team k := rfl
@[simp] theorem State.setP_grid (k : Nat) : (s.setP n f).grid k = s.grid k := rfl
@[simp] theorem State.setP_core (k : Nat) : (s.setP n f).core k = s.core k := rfl
@[simp] theorem State.setP_cluster (k : Nat) : (s.setP n f).cluster k = s.cluster k := rfl
@[simp] theorem State.setP_die (k : Nat) : (s.setP n f).die k = s.die k := rfl
@[simp] theorem State.setP_stack (k : Nat) : (s.setP n f).stack k = s.stack k := rfl
@[simp] theorem State.setP_cellar (k : Nat) : (s.setP n f).cellar k = s.cellar k := rfl
@[simp] theorem State.setP_ctx (k : Nat) : (s.setP n f).ctx k = s.ctx k := rfl
@[simp] theorem State.setP_queue (k : Nat) : (s.setP n f).queue k = s.queue k := rfl
@[simp] theorem State.setP_call (k : Nat) : (s.setP n f).call k = s.call k := rfl
@[simp] theorem State.setP_engine (k : Nat) : (s.setP n f).engine k = s.engine k := rfl
@[simp] theorem State.setP_port_same : (s.setP n f).port n = f (s.port n) := tget_tmod_same _ _ _ _
theorem State.setP_port_other (k : Nat) (h : k ≠ n) : (s.setP n f).port k = s.port k := tget_tmod_other _ _ _ _ _ h

end

/-! ### Group.setF -/

section
variable (g : Group) (l : Nat) (f : Fibre → Fibre)

@[simp] theorem Group.setF_kind : (g.setF l f).kind = g.kind := rfl
@[simp] theorem Group.setF_width : (g.setF l f).width = g.width := rfl
@[simp] theorem Group.setF_ctx : (g.setF l f).ctx = g.ctx := rfl
@[simp] theorem Group.setF_tid : (g.setF l f).tid = g.tid := rfl
@[simp] theorem Group.setF_role : (g.setF l f).role = g.role := rfl
@[simp] theorem Group.setF_number : (g.setF l f).number = g.number := rfl
@[simp] theorem Group.setF_place : (g.setF l f).place = g.place := rfl
@[simp] theorem Group.setF_slot : (g.setF l f).slot = g.slot := rfl
@[simp] theorem Group.setF_vAlloc : (g.setF l f).vAlloc = g.vAlloc := rfl
@[simp] theorem Group.setF_sAlloc : (g.setF l f).sAlloc = g.sAlloc := rfl
@[simp] theorem Group.setF_tAlloc : (g.setF l f).tAlloc = g.tAlloc := rfl
@[simp] theorem Group.setF_v : (g.setF l f).v = g.v := rfl
@[simp] theorem Group.setF_sregs : (g.setF l f).sregs = g.sregs := rfl
@[simp] theorem Group.setF_tiles : (g.setF l f).tiles = g.tiles := rfl
@[simp] theorem Group.setF_lx : (g.setF l f).lx = g.lx := rfl
@[simp] theorem Group.setF_fpmode : (g.setF l f).fpmode = g.fpmode := rfl
@[simp] theorem Group.setF_fpflags : (g.setF l f).fpflags = g.fpflags := rfl
@[simp] theorem Group.setF_ld : (g.setF l f).ld = g.ld := rfl
@[simp] theorem Group.setF_st : (g.setF l f).st = g.st := rfl
@[simp] theorem Group.setF_cp : (g.setF l f).cp = g.cp := rfl
@[simp] theorem Group.setF_tl : (g.setF l f).tl = g.tl := rfl
@[simp] theorem Group.setF_returns : (g.setF l f).returns = g.returns := rfl
@[simp] theorem Group.setF_stores : (g.setF l f).stores = g.stores := rfl
@[simp] theorem Group.setF_ages : (g.setF l f).ages = g.ages := rfl
@[simp] theorem Group.setF_handler : (g.setF l f).handler = g.handler := rfl
@[simp] theorem Group.setF_heldTraps : (g.setF l f).heldTraps = g.heldTraps := rfl
@[simp] theorem Group.setF_hold : (g.setF l f).hold = g.hold := rfl
@[simp] theorem Group.setF_batches : (g.setF l f).batches = g.batches := rfl
@[simp] theorem Group.setF_sealNext : (g.setF l f).sealNext = g.sealNext := rfl
@[simp] theorem Group.setF_copies : (g.setF l f).copies = g.copies := rfl
@[simp] theorem Group.setF_crateSeq : (g.setF l f).crateSeq = g.crateSeq := rfl
@[simp] theorem Group.setF_guest : (g.setF l f).guest = g.guest := rfl
@[simp] theorem Group.setF_call : (g.setF l f).call = g.call := rfl
@[simp] theorem Group.setF_seq : (g.setF l f).seq = g.seq := rfl
@[simp] theorem Group.setF_ended : (g.setF l f).ended = g.ended := rfl
@[simp] theorem Group.setF_wasReady : (g.setF l f).wasReady = g.wasReady := rfl
@[simp] theorem Group.setF_readySince : (g.setF l f).readySince = g.readySince := rfl
@[simp] theorem Group.setF_poisonDue : (g.setF l f).poisonDue = g.poisonDue := rfl

end

/-! ### Group.vput -/

section
variable (g : Group) (l p : Nat) (x : VLane)

@[simp] theorem Group.vput_kind : (g.vput l p x).kind = g.kind := rfl
@[simp] theorem Group.vput_width : (g.vput l p x).width = g.width := rfl
@[simp] theorem Group.vput_ctx : (g.vput l p x).ctx = g.ctx := rfl
@[simp] theorem Group.vput_tid : (g.vput l p x).tid = g.tid := rfl
@[simp] theorem Group.vput_role : (g.vput l p x).role = g.role := rfl
@[simp] theorem Group.vput_number : (g.vput l p x).number = g.number := rfl
@[simp] theorem Group.vput_place : (g.vput l p x).place = g.place := rfl
@[simp] theorem Group.vput_slot : (g.vput l p x).slot = g.slot := rfl
@[simp] theorem Group.vput_vAlloc : (g.vput l p x).vAlloc = g.vAlloc := rfl
@[simp] theorem Group.vput_sAlloc : (g.vput l p x).sAlloc = g.sAlloc := rfl
@[simp] theorem Group.vput_tAlloc : (g.vput l p x).tAlloc = g.tAlloc := rfl
@[simp] theorem Group.vput_fibres : (g.vput l p x).fibres = g.fibres := rfl
@[simp] theorem Group.vput_sregs : (g.vput l p x).sregs = g.sregs := rfl
@[simp] theorem Group.vput_tiles : (g.vput l p x).tiles = g.tiles := rfl
@[simp] theorem Group.vput_lx : (g.vput l p x).lx = g.lx := rfl
@[simp] theorem Group.vput_fpmode : (g.vput l p x).fpmode = g.fpmode := rfl
@[simp] theorem Group.vput_fpflags : (g.vput l p x).fpflags = g.fpflags := rfl
@[simp] theorem Group.vput_ld : (g.vput l p x).ld = g.ld := rfl
@[simp] theorem Group.vput_st : (g.vput l p x).st = g.st := rfl
@[simp] theorem Group.vput_cp : (g.vput l p x).cp = g.cp := rfl
@[simp] theorem Group.vput_tl : (g.vput l p x).tl = g.tl := rfl
@[simp] theorem Group.vput_returns : (g.vput l p x).returns = g.returns := rfl
@[simp] theorem Group.vput_stores : (g.vput l p x).stores = g.stores := rfl
@[simp] theorem Group.vput_ages : (g.vput l p x).ages = g.ages := rfl
@[simp] theorem Group.vput_handler : (g.vput l p x).handler = g.handler := rfl
@[simp] theorem Group.vput_heldTraps : (g.vput l p x).heldTraps = g.heldTraps := rfl
@[simp] theorem Group.vput_hold : (g.vput l p x).hold = g.hold := rfl
@[simp] theorem Group.vput_batches : (g.vput l p x).batches = g.batches := rfl
@[simp] theorem Group.vput_sealNext : (g.vput l p x).sealNext = g.sealNext := rfl
@[simp] theorem Group.vput_copies : (g.vput l p x).copies = g.copies := rfl
@[simp] theorem Group.vput_crateSeq : (g.vput l p x).crateSeq = g.crateSeq := rfl
@[simp] theorem Group.vput_guest : (g.vput l p x).guest = g.guest := rfl
@[simp] theorem Group.vput_call : (g.vput l p x).call = g.call := rfl
@[simp] theorem Group.vput_seq : (g.vput l p x).seq = g.seq := rfl
@[simp] theorem Group.vput_ended : (g.vput l p x).ended = g.ended := rfl
@[simp] theorem Group.vput_wasReady : (g.vput l p x).wasReady = g.wasReady := rfl
@[simp] theorem Group.vput_readySince : (g.vput l p x).readySince = g.readySince := rfl
@[simp] theorem Group.vput_poisonDue : (g.vput l p x).poisonDue = g.poisonDue := rfl

end

/-! ### Group.sset -/

section
variable (g : Group) (i : Nat) (w : Word)

@[simp] theorem Group.sset_kind : (g.sset i w).kind = g.kind := rfl
@[simp] theorem Group.sset_width : (g.sset i w).width = g.width := rfl
@[simp] theorem Group.sset_ctx : (g.sset i w).ctx = g.ctx := rfl
@[simp] theorem Group.sset_tid : (g.sset i w).tid = g.tid := rfl
@[simp] theorem Group.sset_role : (g.sset i w).role = g.role := rfl
@[simp] theorem Group.sset_number : (g.sset i w).number = g.number := rfl
@[simp] theorem Group.sset_place : (g.sset i w).place = g.place := rfl
@[simp] theorem Group.sset_slot : (g.sset i w).slot = g.slot := rfl
@[simp] theorem Group.sset_vAlloc : (g.sset i w).vAlloc = g.vAlloc := rfl
@[simp] theorem Group.sset_sAlloc : (g.sset i w).sAlloc = g.sAlloc := rfl
@[simp] theorem Group.sset_tAlloc : (g.sset i w).tAlloc = g.tAlloc := rfl
@[simp] theorem Group.sset_fibres : (g.sset i w).fibres = g.fibres := rfl
@[simp] theorem Group.sset_v : (g.sset i w).v = g.v := rfl
@[simp] theorem Group.sset_tiles : (g.sset i w).tiles = g.tiles := rfl
@[simp] theorem Group.sset_lx : (g.sset i w).lx = g.lx := rfl
@[simp] theorem Group.sset_fpmode : (g.sset i w).fpmode = g.fpmode := rfl
@[simp] theorem Group.sset_fpflags : (g.sset i w).fpflags = g.fpflags := rfl
@[simp] theorem Group.sset_ld : (g.sset i w).ld = g.ld := rfl
@[simp] theorem Group.sset_st : (g.sset i w).st = g.st := rfl
@[simp] theorem Group.sset_cp : (g.sset i w).cp = g.cp := rfl
@[simp] theorem Group.sset_tl : (g.sset i w).tl = g.tl := rfl
@[simp] theorem Group.sset_returns : (g.sset i w).returns = g.returns := rfl
@[simp] theorem Group.sset_stores : (g.sset i w).stores = g.stores := rfl
@[simp] theorem Group.sset_ages : (g.sset i w).ages = g.ages := rfl
@[simp] theorem Group.sset_handler : (g.sset i w).handler = g.handler := rfl
@[simp] theorem Group.sset_heldTraps : (g.sset i w).heldTraps = g.heldTraps := rfl
@[simp] theorem Group.sset_hold : (g.sset i w).hold = g.hold := rfl
@[simp] theorem Group.sset_batches : (g.sset i w).batches = g.batches := rfl
@[simp] theorem Group.sset_sealNext : (g.sset i w).sealNext = g.sealNext := rfl
@[simp] theorem Group.sset_copies : (g.sset i w).copies = g.copies := rfl
@[simp] theorem Group.sset_crateSeq : (g.sset i w).crateSeq = g.crateSeq := rfl
@[simp] theorem Group.sset_guest : (g.sset i w).guest = g.guest := rfl
@[simp] theorem Group.sset_call : (g.sset i w).call = g.call := rfl
@[simp] theorem Group.sset_seq : (g.sset i w).seq = g.seq := rfl
@[simp] theorem Group.sset_ended : (g.sset i w).ended = g.ended := rfl
@[simp] theorem Group.sset_wasReady : (g.sset i w).wasReady = g.wasReady := rfl
@[simp] theorem Group.sset_readySince : (g.sset i w).readySince = g.readySince := rfl
@[simp] theorem Group.sset_poisonDue : (g.sset i w).poisonDue = g.poisonDue := rfl

end

/-! ### Group.tsetRow -/

section
variable (g : Group) (t r : Nat) (bs : List Byte)

@[simp] theorem Group.tsetRow_kind : (g.tsetRow t r bs).kind = g.kind := rfl
@[simp] theorem Group.tsetRow_width : (g.tsetRow t r bs).width = g.width := rfl
@[simp] theorem Group.tsetRow_ctx : (g.tsetRow t r bs).ctx = g.ctx := rfl
@[simp] theorem Group.tsetRow_tid : (g.tsetRow t r bs).tid = g.tid := rfl
@[simp] theorem Group.tsetRow_role : (g.tsetRow t r bs).role = g.role := rfl
@[simp] theorem Group.tsetRow_number : (g.tsetRow t r bs).number = g.number := rfl
@[simp] theorem Group.tsetRow_place : (g.tsetRow t r bs).place = g.place := rfl
@[simp] theorem Group.tsetRow_slot : (g.tsetRow t r bs).slot = g.slot := rfl
@[simp] theorem Group.tsetRow_vAlloc : (g.tsetRow t r bs).vAlloc = g.vAlloc := rfl
@[simp] theorem Group.tsetRow_sAlloc : (g.tsetRow t r bs).sAlloc = g.sAlloc := rfl
@[simp] theorem Group.tsetRow_tAlloc : (g.tsetRow t r bs).tAlloc = g.tAlloc := rfl
@[simp] theorem Group.tsetRow_fibres : (g.tsetRow t r bs).fibres = g.fibres := rfl
@[simp] theorem Group.tsetRow_v : (g.tsetRow t r bs).v = g.v := rfl
@[simp] theorem Group.tsetRow_sregs : (g.tsetRow t r bs).sregs = g.sregs := rfl
@[simp] theorem Group.tsetRow_lx : (g.tsetRow t r bs).lx = g.lx := rfl
@[simp] theorem Group.tsetRow_fpmode : (g.tsetRow t r bs).fpmode = g.fpmode := rfl
@[simp] theorem Group.tsetRow_fpflags : (g.tsetRow t r bs).fpflags = g.fpflags := rfl
@[simp] theorem Group.tsetRow_ld : (g.tsetRow t r bs).ld = g.ld := rfl
@[simp] theorem Group.tsetRow_st : (g.tsetRow t r bs).st = g.st := rfl
@[simp] theorem Group.tsetRow_cp : (g.tsetRow t r bs).cp = g.cp := rfl
@[simp] theorem Group.tsetRow_tl : (g.tsetRow t r bs).tl = g.tl := rfl
@[simp] theorem Group.tsetRow_returns : (g.tsetRow t r bs).returns = g.returns := rfl
@[simp] theorem Group.tsetRow_stores : (g.tsetRow t r bs).stores = g.stores := rfl
@[simp] theorem Group.tsetRow_ages : (g.tsetRow t r bs).ages = g.ages := rfl
@[simp] theorem Group.tsetRow_handler : (g.tsetRow t r bs).handler = g.handler := rfl
@[simp] theorem Group.tsetRow_heldTraps : (g.tsetRow t r bs).heldTraps = g.heldTraps := rfl
@[simp] theorem Group.tsetRow_hold : (g.tsetRow t r bs).hold = g.hold := rfl
@[simp] theorem Group.tsetRow_batches : (g.tsetRow t r bs).batches = g.batches := rfl
@[simp] theorem Group.tsetRow_sealNext : (g.tsetRow t r bs).sealNext = g.sealNext := rfl
@[simp] theorem Group.tsetRow_copies : (g.tsetRow t r bs).copies = g.copies := rfl
@[simp] theorem Group.tsetRow_crateSeq : (g.tsetRow t r bs).crateSeq = g.crateSeq := rfl
@[simp] theorem Group.tsetRow_guest : (g.tsetRow t r bs).guest = g.guest := rfl
@[simp] theorem Group.tsetRow_call : (g.tsetRow t r bs).call = g.call := rfl
@[simp] theorem Group.tsetRow_seq : (g.tsetRow t r bs).seq = g.seq := rfl
@[simp] theorem Group.tsetRow_ended : (g.tsetRow t r bs).ended = g.ended := rfl
@[simp] theorem Group.tsetRow_wasReady : (g.tsetRow t r bs).wasReady = g.wasReady := rfl
@[simp] theorem Group.tsetRow_readySince : (g.tsetRow t r bs).readySince = g.readySince := rfl
@[simp] theorem Group.tsetRow_poisonDue : (g.tsetRow t r bs).poisonDue = g.poisonDue := rfl

end

/-! ### Group.pset -/

section
variable (g : Group) (l i : Nat) (b : Bool)

@[simp] theorem Group.pset_kind : (g.pset l i b).kind = g.kind := rfl
@[simp] theorem Group.pset_width : (g.pset l i b).width = g.width := rfl
@[simp] theorem Group.pset_ctx : (g.pset l i b).ctx = g.ctx := rfl
@[simp] theorem Group.pset_tid : (g.pset l i b).tid = g.tid := rfl
@[simp] theorem Group.pset_role : (g.pset l i b).role = g.role := rfl
@[simp] theorem Group.pset_number : (g.pset l i b).number = g.number := rfl
@[simp] theorem Group.pset_place : (g.pset l i b).place = g.place := rfl
@[simp] theorem Group.pset_slot : (g.pset l i b).slot = g.slot := rfl
@[simp] theorem Group.pset_vAlloc : (g.pset l i b).vAlloc = g.vAlloc := rfl
@[simp] theorem Group.pset_sAlloc : (g.pset l i b).sAlloc = g.sAlloc := rfl
@[simp] theorem Group.pset_tAlloc : (g.pset l i b).tAlloc = g.tAlloc := rfl
@[simp] theorem Group.pset_v : (g.pset l i b).v = g.v := rfl
@[simp] theorem Group.pset_sregs : (g.pset l i b).sregs = g.sregs := rfl
@[simp] theorem Group.pset_tiles : (g.pset l i b).tiles = g.tiles := rfl
@[simp] theorem Group.pset_lx : (g.pset l i b).lx = g.lx := rfl
@[simp] theorem Group.pset_fpmode : (g.pset l i b).fpmode = g.fpmode := rfl
@[simp] theorem Group.pset_fpflags : (g.pset l i b).fpflags = g.fpflags := rfl
@[simp] theorem Group.pset_ld : (g.pset l i b).ld = g.ld := rfl
@[simp] theorem Group.pset_st : (g.pset l i b).st = g.st := rfl
@[simp] theorem Group.pset_cp : (g.pset l i b).cp = g.cp := rfl
@[simp] theorem Group.pset_tl : (g.pset l i b).tl = g.tl := rfl
@[simp] theorem Group.pset_returns : (g.pset l i b).returns = g.returns := rfl
@[simp] theorem Group.pset_stores : (g.pset l i b).stores = g.stores := rfl
@[simp] theorem Group.pset_ages : (g.pset l i b).ages = g.ages := rfl
@[simp] theorem Group.pset_handler : (g.pset l i b).handler = g.handler := rfl
@[simp] theorem Group.pset_heldTraps : (g.pset l i b).heldTraps = g.heldTraps := rfl
@[simp] theorem Group.pset_hold : (g.pset l i b).hold = g.hold := rfl
@[simp] theorem Group.pset_batches : (g.pset l i b).batches = g.batches := rfl
@[simp] theorem Group.pset_sealNext : (g.pset l i b).sealNext = g.sealNext := rfl
@[simp] theorem Group.pset_copies : (g.pset l i b).copies = g.copies := rfl
@[simp] theorem Group.pset_crateSeq : (g.pset l i b).crateSeq = g.crateSeq := rfl
@[simp] theorem Group.pset_guest : (g.pset l i b).guest = g.guest := rfl
@[simp] theorem Group.pset_call : (g.pset l i b).call = g.call := rfl
@[simp] theorem Group.pset_seq : (g.pset l i b).seq = g.seq := rfl
@[simp] theorem Group.pset_ended : (g.pset l i b).ended = g.ended := rfl
@[simp] theorem Group.pset_wasReady : (g.pset l i b).wasReady = g.wasReady := rfl
@[simp] theorem Group.pset_readySince : (g.pset l i b).readySince = g.readySince := rfl
@[simp] theorem Group.pset_poisonDue : (g.pset l i b).poisonDue = g.poisonDue := rfl

end

end Sys2Proof.Machine
end

