-- ==== Sys2Proof/Laws/Ops.lean ====
section
/-! SUPPORT. What the shared operations of instructions do: checks, register writes, the end of an instruction. -/
namespace Sys2Proof
open Machine

/-! ### Checks -/

theorem Machine.State.poisonTrap_none {s : State} {rs : List Ref} (h : ∀ r ∈ rs, s.poisonOf r = []) : s.poisonTrap rs = none := by
  unfold State.poisonTrap
  induction rs with
  | nil => rfl
  | cons r rs ih =>
    have e : leastPair (s.poisonOf r) = none := by rw [h r List.mem_cons_self]; rfl
    simp only [firstSome, e, Option.map_none]
    exact ih fun q hq => h q (List.mem_cons_of_mem _ hq)

theorem Machine.State.badRefs_nil {s : State} {rs : List Ref} (h : ∀ r ∈ rs, r.cls ≠ 5 → ∀ i ∈ s.refIdx r, i < s.allocOf r.cls) :
    s.badRefs rs = [] := by
  simp only [State.badRefs, List.flatMap_eq_nil_iff]
  intro r hr
  split
  · rfl
  · next hc =>
    simp only [List.map_eq_nil_iff, List.filter_eq_nil_iff, decide_eq_true_eq, not_le]
    exact h r hr hc

theorem Machine.State.pendingRefs_nil {s : State} {rs : List Ref} (h : ∀ r ∈ rs, ∀ i ∈ s.refIdx r, s.g.pending { cls := r.cls, idx := i } = false) :
    s.pendingRefs rs = [] := by
  simp only [State.pendingRefs, List.flatMap_eq_nil_iff, List.filter_eq_nil_iff, List.mem_map]
  rintro r hr q ⟨i, hi, rfl⟩
  simp [h r hr i hi]

theorem RunsHere.checkKind {s : State} {av : Avail} (h : RunsHere s av) : s.checkKind av = .ok () := by
  obtain ⟨hk, hg⟩ := h
  unfold State.checkKind
  simp only [hk]
  by_cases hq : s.g.isGuest = true
  · simp [hq, hg hq]
  · simp [hq]

theorem Ready.checkRegs {s : State} {av : Avail} {rs : List Ref} (h : Ready s av rs) : s.checkRegs av rs = .ok () := by
  simp [State.checkRegs, h.runs.checkKind, State.badRefs_nil h.allocated]

theorem Ready.checkData {s : State} {av : Avail} {rs : List Ref} (h : Ready s av rs) : s.checkData rs = .ok () := by
  simp [State.checkData, State.pendingRefs_nil h.free, State.poisonTrap_none h.clean]

/-- Registers that are ready pass the checks before an instruction. -/
theorem Ready.passes {s : State} {av : Avail} {rs : List Ref} (h : Ready s av rs) : s.passes av rs = .ok () := by
  simp [State.passes, h.checkRegs, h.checkData]

/-- An instruction whose registers are ready takes its effect. -/
theorem Ready.runOk {s : State} {av : Avail} {rs : List Ref} (h : Ready s av rs) (e : Bool) (t : State) :
    s.runOk av rs e t = .next (t.retire e) := by
  simp [State.runOk, h.passes]

/-- An instruction whose registers are ready takes its body's effect. -/
theorem Ready.run {s : State} {av : Avail} {rs : List Ref} (h : Ready s av rs) (e : Bool) {t : State} {body : Except Stop State}
    (hb : body = .ok t) : s.run av rs e body = .next (t.retire e) := by
  simp [State.run, h.passes, hb]

/-- An instruction that moves its fibres itself takes its body's effect. -/
theorem Ready.runEnd {s : State} {av : Avail} {rs : List Ref} (h : Ready s av rs) {t : State} {body : Except Stop State} (hb : body = .ok t) :
    s.runEnd av rs body = .next t := by
  simp [State.runEnd, h.passes, hb]

/-! ### The end of an instruction -/

/-- Two states agree but for ages and readiness of the issuing group, the issue slots of cores, and the issue under way. -/
structure SameBut (s t : State) : Prop where
  rest : { t with groups := s.groups, cores := s.cores, cur := s.cur } = s
  others : ∀ k, k ≠ s.cur.gid → t.grp k = s.grp k
  own : { t.grp s.cur.gid with ages := s.g.ages, readySince := s.g.readySince } = s.g
  slots : ∀ c, { t.core c with slots := (s.core c).slots } = s.core c

theorem SameBut.of_cur (s : State) (i : Issue) : SameBut s { s with cur := i } := ⟨rfl, fun _ _ => rfl, rfl, fun _ => rfl⟩

theorem Machine.State.setC_slots (s : State) (n : Nat) (f : Tab Run → Tab Run) (c : Nat) :
    { (s.setC n fun k => { k with slots := f k.slots }).core c with slots := (s.core c).slots } = s.core c := by
  by_cases h : c = n
  · subst h; simp
  · rw [State.setC_core_other _ _ _ _ h]

/-- A group's slot freed changes no more than the slot. -/
theorem Machine.State.leaveSlot_same (s : State) : SameBut s s.leaveSlot ∧ s.leaveSlot.cur = {} := by
  unfold State.leaveSlot
  simp only
  split
  · exact ⟨⟨rfl, fun _ _ => rfl, rfl, fun c => State.setC_slots _ _ (fun t => t.filter fun e => e.2.gid != s.cur.gid) c⟩, rfl⟩
  · exact ⟨SameBut.of_cur s {}, rfl⟩

theorem SameBut.trans {s t u : State} (h : SameBut s t) (hc : t.cur.gid = s.cur.gid) (k : SameBut t u) : SameBut s u := by
  refine ⟨?_, fun n hn => ?_, ?_, fun c => ?_⟩
  · have := k.rest; have := h.rest
    rw [← h.rest, ← k.rest]
  · rw [k.others n (by rw [hc]; exact hn), h.others n hn]
  · have h1 := k.own
    have h2 := h.own
    rw [← h2]
    simp only [State.g] at *
    rw [hc] at h1
    rw [← h1]
  · rw [← h.slots c, ← k.slots c]

/-- A run's end changes no more than ages, readiness and the slot. -/
theorem Machine.State.endRun_same (s : State) : SameBut s s.endRun ∧ s.endRun.cur = {} := by
  unfold State.endRun
  simp only
  split
  · refine ⟨SameBut.trans (t := s.modG fun g => { g with ages := _, readySince := s.now }) ⟨rfl, fun k hk => State.setG_grp_other _ _ _ _ hk, ?_, fun _ => rfl⟩
      rfl (State.leaveSlot_same _).1, (State.leaveSlot_same _).2⟩
    exact congrArg (fun g : Group => { g with ages := s.g.ages, readySince := s.g.readySince }) (State.setG_grp_same _ _ _)
  · exact State.leaveSlot_same s

/-- The run going on, or ending, changes no more than ages, readiness and the slot. -/
theorem Machine.State.goOn_same (s : State) (e : Bool) : SameBut s (s.goOn e) ∧ (s.goOn e).cur = {} := by
  unfold State.goOn
  simp only
  split
  · split
    · exact State.endRun_same s
    · refine ⟨⟨rfl, fun _ _ => rfl, rfl, fun c => ?_⟩, rfl⟩
      exact State.setC_slots _ _ (fun t => tput t _ _) c
  · exact State.endRun_same s

/-! ### Register writes of a group -/

theorem Machine.Group.vput_vlane (g : Group) (l p k q : Nat) (x : VLane) (hp : p < 256) (hq : q < 256) :
    (g.vput l p x).vlane k q = if k = l ∧ q = p then x else g.vlane k q := by
  simp only [Group.vlane, Group.vput, tget_tput]
  exact if_congr (by omega) rfl rfl

/-- Consecutive V registers of a lane written: what each register reads. -/
theorem Machine.Group.vsets_vlane (g : Group) (l p : Nat) (ws : List Word) (k q : Nat) (hp : p + ws.length ≤ 256) (hq : q < 256) :
    (g.vsets l p ws).vlane k q = if k = l ∧ p ≤ q ∧ q < p + ws.length then { val := ws.getD (q - p) 0 } else g.vlane k q := by
  induction ws generalizing g p with
  | nil => rw [if_neg (by simp only [List.length_nil]; omega)]; rfl
  | cons w ws ih =>
    simp only [List.length_cons] at hp ⊢
    rw [Group.vsets, ih _ (p + 1) (by omega)]
    unfold Group.vset
    rw [Group.vput_vlane _ _ _ _ _ _ (by omega) hq]
    by_cases hk : k = l
    · by_cases h1 : q = p
      · subst h1
        rw [if_neg (by omega), if_pos ⟨hk, rfl⟩, if_pos (by omega)]
        simp
      · rw [if_neg (c := k = l ∧ q = p) (by omega)]
        by_cases h2 : p + 1 ≤ q ∧ q < p + 1 + ws.length
        · rw [if_pos ⟨hk, h2⟩, if_pos (by omega)]
          obtain ⟨n, hn⟩ : ∃ n, q - p = n + 1 := ⟨q - p - 1, by omega⟩
          have : q - (p + 1) = n := by omega
          rw [hn, this, List.getD_cons_succ]
        · rw [if_neg (by omega), if_neg (by omega)]
    · rw [if_neg (by omega), if_neg (by omega), if_neg (by omega)]

theorem Machine.Group.vsets_rest (g : Group) (l p : Nat) (ws : List Word) : { g.vsets l p ws with v := g.v } = g := by
  induction ws generalizing g p with
  | nil => rfl
  | cons w ws ih =>
    have h := ih (g.vset l p w) (p + 1)
    exact congrArg (fun h : Group => { h with v := g.v }) h

theorem nodup_lanesOf (w m : Nat) : (lanesOf w m).Nodup := List.nodup_range.filter _

/-- V registers of several lanes written: what each register reads. -/
theorem Machine.Group.forLanes_vsets (g : Group) (ls : List Nat) (ph : Nat → Nat) (f : Nat → List Word) (hn : ls.Nodup)
    (hb : ∀ l ∈ ls, ph l + (f l).length ≤ 256) (k q : Nat) (hq : q < 256) :
    (g.forLanes ls fun g l => g.vsets l (ph l) (f l)).vlane k q =
      if k ∈ ls ∧ ph k ≤ q ∧ q < ph k + (f k).length then { val := (f k).getD (q - ph k) 0 } else g.vlane k q := by
  induction ls generalizing g with
  | nil => simp [Group.forLanes]
  | cons l ls ih =>
    obtain ⟨hl, hn⟩ := List.nodup_cons.1 hn
    have h := ih (g.vsets l (ph l) (f l)) hn fun x hx => hb x (by simp [hx])
    simp only [Group.forLanes, List.foldl_cons] at h ⊢
    rw [h, Group.vsets_vlane _ _ _ _ _ _ (hb l (by simp)) hq]
    by_cases hk : k = l
    · subst hk
      simp [hl]
    · simp [hk]

theorem Machine.Group.forLanes_vsets_rest (g : Group) (ls : List Nat) (ph : Nat → Nat) (f : Nat → List Word) :
    { (g.forLanes ls fun g l => g.vsets l (ph l) (f l)) with v := g.v } = g := by
  induction ls generalizing g with
  | nil => rfl
  | cons l ls ih =>
    have h := ih (g.vsets l (ph l) (f l))
    have h2 := Group.vsets_rest g l (ph l) (f l)
    rw [← h] at h2
    exact h2

theorem Machine.setBit16_getLsbD (w : BitVec 16) (i k : Nat) (b : Bool) (hi : i < 16) (hk : k < 16) :
    (setBit16 w i b).getLsbD k = if k = i then b else w.getLsbD k := by
  have h2 : (BitVec.ofNat 16 (2 ^ i)).getLsbD k = decide (k = i) := by
    rw [BitVec.getLsbD_ofNat, Nat.testBit_two_pow]
    simp [hk, eq_comm]
  unfold setBit16
  split
  · simp only [BitVec.getLsbD_or, h2]
    by_cases h : k = i <;> simp_all
  · simp only [BitVec.getLsbD_and, BitVec.getLsbD_not, h2, hk]
    by_cases h : k = i <;> simp_all

/-- P register i of several lanes written: the fibres. -/
theorem Machine.Group.forLanes_pset (g : Group) (ls : List Nat) (i : Nat) (f : Nat → Bool) (hn : ls.Nodup) (k : Nat) :
    (g.forLanes ls fun g l => g.pset l i (f l)).fib k = if k ∈ ls then { g.fib k with preds := setBit16 (g.fib k).preds i (f k) } else g.fib k := by
  induction ls generalizing g with
  | nil => simp [Group.forLanes]
  | cons l ls ih =>
    obtain ⟨hl, hn⟩ := List.nodup_cons.1 hn
    have h := ih (g.pset l i (f l)) hn
    simp only [Group.forLanes, List.foldl_cons] at h ⊢
    rw [h]
    by_cases hk : k = l
    · subst hk
      simp [hl, Group.pset, Group.setF, Group.fib]
    · have : (g.pset l i (f l)).fib k = g.fib k := by
        simp only [Group.pset, Group.setF, Group.fib]; exact tget_tmod_other _ _ _ _ _ hk
      simp [hk, this]

theorem Machine.Group.forLanes_fibres_rest (g : Group) (ls : List Nat) (f : Nat → Fibre → Fibre) :
    { (g.forLanes ls fun g l => g.setF l (f l)) with fibres := g.fibres } = g := by
  induction ls generalizing g with
  | nil => rfl
  | cons l ls ih => exact congrArg (fun h : Group => { h with fibres := g.fibres }) (ih (g.setF l (f l)))

/-- The fibres of several lanes changed. -/
theorem Machine.Group.forLanes_setF (g : Group) (ls : List Nat) (f : Nat → Fibre → Fibre) (hn : ls.Nodup) (k : Nat) :
    (g.forLanes ls fun g l => g.setF l (f l)).fib k = if k ∈ ls then f k (g.fib k) else g.fib k := by
  induction ls generalizing g with
  | nil => simp [Group.forLanes]
  | cons l ls ih =>
    obtain ⟨hl, hn⟩ := List.nodup_cons.1 hn
    have h := ih (g.setF l (f l)) hn
    simp only [Group.forLanes, List.foldl_cons] at h ⊢
    rw [h]
    by_cases hk : k = l
    · subst hk
      simp [hl, Group.setF, Group.fib]
    · have : (g.setF l (f l)).fib k = g.fib k := tget_tmod_other _ g.fibres _ _ _ hk
      simp [hk, this]

/-- Consecutive S registers written: what each register reads. -/
theorem Machine.Group.ssets_sreg (g : Group) (d : Nat) (ws : List Word) (i : Nat) :
    (g.ssets d ws).sreg i = if d ≤ i ∧ i < d + ws.length then ws.getD (i - d) 0 else g.sreg i := by
  induction ws generalizing g d with
  | nil => rw [if_neg (by simp only [List.length_nil]; omega)]; rfl
  | cons w ws ih =>
    rw [Group.ssets, ih]
    simp only [List.length_cons, Group.sreg, Group.sset, tget_tput]
    by_cases h1 : i = d
    · subst h1; simp
    · by_cases h2 : d + 1 ≤ i ∧ i < d + 1 + ws.length
      · rw [if_pos h2, if_pos (by omega)]
        obtain ⟨n, hn⟩ : ∃ n, i - d = n + 1 := ⟨i - d - 1, by omega⟩
        have : i - (d + 1) = n := by omega
        rw [hn, this, List.getD_cons_succ]
      · rw [if_neg h2, if_neg h1, if_neg (by omega)]

theorem Machine.Group.ssets_rest (g : Group) (d : Nat) (ws : List Word) : { g.ssets d ws with sregs := g.sregs } = g := by
  induction ws generalizing g d with
  | nil => rfl
  | cons w ws ih => exact congrArg (fun h : Group => { h with sregs := g.sregs }) (ih (g.sset d w) (d + 1))

/-! ### An instruction of the issuing group that completes -/

theorem MemoryKept.of_groups {s t : State} (h : { t with groups := s.groups, cores := s.cores, cur := s.cur } = s) : MemoryKept s t := by
  have hm : t.homeByte = s.homeByte := by rw [← h]; rfl
  refine ⟨fun a => congrFun hm a, fun a => ?_, fun k a => ?_, fun k a => ?_, fun k a => ?_, fun k a => ?_⟩ <;> rw [← h] <;> rfl

/-- The batch stands at PCs given by lane: the rest of the group is as it was. -/
theorem Machine.State.standAt_grp (s : State) (pc : Nat → Dword) :
    (s.standAt pc).grp s.cur.gid =
      s.g.forLanes s.batch fun g l => g.setF l fun f => { f with pc := pc l, wait := .none, refused := none, fellBack := false } :=
  State.setG_grp_same _ _ _

/-- A state whose batch moves on, and which is then left in any way that touches only ages, readiness and slots. -/
theorem movedOn_of {u : State} {pc : Nat → Dword} {leave : State → State} (hl : ∀ u, SameBut u (leave u) ∧ (leave u).cur = {}) :
    MovedOn u (leave (u.standAt pc)) pc := by
  obtain ⟨hs, hc⟩ := hl (u.standAt pc)
  generalize leave (u.standAt pc) = t at *
  have hst := State.standAt_grp u pc
  have hown : ∃ a r, { t.grp u.cur.gid with ages := a, readySince := r } = (u.standAt pc).grp u.cur.gid := ⟨_, _, hs.own⟩
  rw [hst] at hown
  obtain ⟨a, r, hown⟩ := hown
  have hrest := Group.forLanes_fibres_rest u.g u.batch fun l f => { f with pc := pc l, wait := .none, refused := none, fellBack := false }
  refine ⟨?_, fun k hk => ?_, ?_, fun l => ?_, hs.slots, hc⟩
  · exact congrArg (fun x : State => { x with groups := u.groups }) hs.rest
  · exact (hs.others k hk).trans (State.setG_grp_other _ _ _ _ hk)
  · rw [← hrest, ← hown]
  · have := Group.forLanes_setF u.g u.batch (fun l f => { f with pc := pc l, wait := .none, refused := none, fellBack := false }) (nodup_lanesOf _ _) l
    rw [← this, ← hown]; rfl

/-- An instruction that retires has moved on. -/
theorem Machine.State.retire_movedOn (u : State) (e : Bool) : MovedOn u (u.retire e) fun _ => u.cur.npc :=
  movedOn_of fun v => State.goOn_same v e

/-- An instruction that moves its batch to other PCs has moved on. -/
theorem Machine.State.retireAt_movedOn (u : State) (pc : Nat → Dword) : MovedOn u (u.retireAt pc) pc := movedOn_of State.endRun_same

/-- A group changed in its registers alone, then moved on at PCs given by lane and left in any way that touches only ages, readiness and slots. -/
theorem completed_of {s t : State} {g : Group} {pc : Nat → Dword} {leave : State → State}
    (hl : ∀ u, SameBut u (leave u) ∧ (leave u).cur = {})
    (hg : { g with v := s.g.v, sregs := s.g.sregs, fibres := s.g.fibres, fpflags := s.g.fpflags } = s.g)
    (hf : ∀ l, { g.fib l with preds := (s.g.fib l).preds } = s.g.fib l)
    (hp : ∀ l, l ∉ s.batch → g.fib l = s.g.fib l)
    (ht : t = leave ((s.modG fun _ => g).standAt pc)) :
    (OnlyGroup s t ∧ GroupKept s.g (t.grp s.cur.gid) ∧ Stands s t pc ∧ t.cur = {}) ∧
      (∀ l p, (t.grp s.cur.gid).vlane l p = g.vlane l p) ∧ (∀ l i, (t.grp s.cur.gid).pbit l i = g.pbit l i) ∧
      (∀ i, (t.grp s.cur.gid).sreg i = g.sreg i) ∧ (t.grp s.cur.gid).fpflags = g.fpflags := by
  subst ht
  obtain ⟨hs, hc⟩ := hl ((s.modG fun _ => g).standAt pc)
  generalize hu : leave ((s.modG fun _ => g).standAt pc) = u at *
  have hm : (s.modG fun _ => g).g = g := State.setG_grp_same _ _ _
  have hbat : (s.modG fun _ => g).batch = s.batch := by
    unfold State.batch Group.lanes
    rw [hm, ← hg]; rfl
  have hst : ((s.modG fun _ => g).standAt pc).grp s.cur.gid =
      g.forLanes s.batch fun g l => g.setF l fun f => { f with pc := pc l, wait := .none, refused := none, fellBack := false } := by
    have := State.standAt_grp (s.modG fun _ => g) pc
    rw [hbat, hm] at this
    exact this
  have hown : ∃ a r, { u.grp s.cur.gid with ages := a, readySince := r } = ((s.modG fun _ => g).standAt pc).grp s.cur.gid := ⟨_, _, hs.own⟩
  rw [hst] at hown
  obtain ⟨a, r, hown⟩ := hown
  have hrest := Group.forLanes_fibres_rest g s.batch fun l f => { f with pc := pc l, wait := .none, refused := none, fellBack := false }
  have hfib : ∀ l, (u.grp s.cur.gid).fib l =
      if l ∈ s.batch then { g.fib l with pc := pc l, wait := .none, refused := none, fellBack := false } else g.fib l := by
    intro l
    have := Group.forLanes_setF g s.batch (fun l f => { f with pc := pc l, wait := .none, refused := none, fellBack := false }) (nodup_lanesOf _ _) l
    rw [← this, ← hown]; rfl
  generalize hw : (g.forLanes s.batch fun g l => g.setF l fun f => { f with pc := pc l, wait := .none, refused := none, fellBack := false }) = w at *
  refine ⟨⟨⟨?_, fun k hk => ?_, fun c => ?_⟩, ?_, fun l => ?_, hc⟩, fun l p => ?_, fun l i => ?_, fun i => ?_, ?_⟩
  · have := hs.rest
    exact congrArg (fun x : State => { x with groups := s.groups }) this
  · rw [hs.others k hk]
    exact (State.setG_grp_other _ _ _ _ hk).trans (State.setG_grp_other _ _ _ _ hk)
  · exact hs.slots c
  · unfold GroupKept
    rw [← hg, ← hrest, ← hown]
  · rw [hfib]
    split
    · rw [← hf l]
    · next h => exact hp l h
  · rw [← hrest, ← hown]; rfl
  · have : (u.grp s.cur.gid).pbit l i = ((u.grp s.cur.gid).fib l).preds.getLsbD i := rfl
    rw [this, hfib]
    split <;> rfl
  · rw [← hrest, ← hown]; rfl
  · rw [← hrest, ← hown]

theorem mem_refIdx_vdst {s : State} {d : Reg} {n l k : Nat} (hl : l ∈ s.batch) (hk : k < n) : s.g.phys l d + k ∈ s.refIdx (vdst d n) := by
  have hd : ∀ (ls : List Nat) (a : Nat), a ∈ ls → a ∈ distinct ls := by
    intro ls a
    induction ls with
    | nil => intro h; cases h
    | cons b ls ih =>
      intro h
      unfold distinct
      by_cases hb : a = b
      · simp [hb]
      · simp only [List.mem_cons, hb, false_or] at h
        simp [hb, ih h]
  simp only [State.refIdx, List.mem_flatMap, List.mem_range, List.mem_map]
  refine ⟨k, hk, s.g.phys l d, ?_, rfl⟩
  exact hd _ _ (List.mem_map.2 ⟨l, hl, rfl⟩)

/-- Registers written by lane lie within the V file. -/
theorem Ready.fits {s : State} {av : Avail} {rs : List Ref} {d : Reg} {n : Nat} (h : Ready s av (rs ++ [vdst d n])) (hh : Housed s)
    (l : Nat) (hl : l ∈ s.batch) : n = 0 ∨ s.g.phys l d + n ≤ 256 := by
  cases n with
  | zero => exact .inl rfl
  | succ n =>
    have := h.allocated (vdst d (n + 1)) (by simp) (by simp [vdst]) _ (mem_refIdx_vdst hl (Nat.lt_succ_self n))
    have h2 := hh.vfile
    simp only [State.allocOf, vdst] at this
    right
    omega

/-- The flags of a batch are gathered into FPFLAGS; nothing else changes. -/
theorem Machine.State.orFlags_modG (s : State) (g : Group) (fl : Nat) :
    (s.modG fun _ => g).orFlags fl = s.modG fun _ => { g with fpflags := g.fpflags ||| w32 (fl % 64) } := by
  have h : ∀ (t : Tab Group) (k : Nat) (a b : Group), tput (tput t k a) k b = tput t k b := by
    intro t k a b
    induction t with
    | nil => simp [tput]
    | cons e t ih =>
      obtain ⟨j, c⟩ := e
      by_cases h1 : k < j
      · simp [tput, h1]
      · by_cases h2 : k = j
        · simp [tput, h2]
        · simp only [tput, h1, h2, if_false, ih]
  simp only [State.orFlags, State.modG, State.setG, tmod, tget_tput_same, h]

/-- An instruction that writes V registers lane by lane, its registers ready, completes (06 R102). -/
theorem vecOp_done {s : State} {av : Avail} {rs : List Ref} {d : Reg} {n : Nat} {f : Nat → List Word × Nat}
    (h : Ready s av (rs ++ [vdst d n])) (hh : Housed s) (hn : ∀ l ∈ s.batch, (f l).1.length = n) (e : Bool) :
    ∃ t, s.vecOp av rs d n e f = .next t ∧ VecDone s t d f := by
  refine ⟨_, h.runOk e _, ?_⟩
  let g1 := s.g.forLanes s.batch fun g l => g.vsets l (s.g.phys l d) (f l).1
  let fl := s.batch.foldl (fun m l => m ||| (f l).2) 0
  let g := { g1 with fpflags := g1.fpflags ||| w32 (fl % 64) }
  have hrest : { g1 with v := s.g.v } = s.g := Group.forLanes_vsets_rest s.g s.batch (fun l => s.g.phys l d) fun l => (f l).1
  have hw : s.writeV d f = s.modG fun _ => g := by
    have h1 : (s.modG fun g => g.forLanes s.batch fun g l => g.vsets l (s.g.phys l d) (f l).1) = s.modG fun _ => g1 := rfl
    unfold State.writeV
    simp only
    rw [h1, State.orFlags_modG]
  have hfl : g1.fpflags = s.g.fpflags := by rw [← hrest]
  have hfib : ∀ l, g.fib l = s.g.fib l := fun l => by
    have : g.fib l = g1.fib l := rfl
    rw [this, ← hrest]; rfl
  have hb : ∀ l ∈ s.batch, s.g.phys l d + (f l).1.length ≤ 256 ∨ (f l).1 = [] := fun l hl => by
    rcases h.fits hh l hl with h0 | h0
    · right; exact List.eq_nil_of_length_eq_zero (by rw [hn l hl, h0])
    · left; rw [hn l hl]; exact h0
  rw [hw]
  obtain ⟨⟨h1, h2, h3, h4⟩, hv, hp, hs, hF⟩ := completed_of (s := s) (t := (s.modG fun _ => g).retire e) (g := g) (pc := fun _ => s.cur.npc)
    (leave := fun u => u.goOn e) (fun u => State.goOn_same u e) (by rw [← hrest]) (fun l => by rw [hfib]) (fun l _ => hfib l) rfl
  refine ⟨⟨h1, .of_groups h1.rest, h2, h3, h4⟩, fun l p hp' => ?_, fun l i hi => ?_, fun i => ?_, ?_⟩
  · rw [hv]
    have : g.vlane l p = g1.vlane l p := rfl
    rw [this]
    by_cases hn0 : n = 0
    · have hnil : ∀ l ∈ s.batch, (f l).1 = [] := fun l hl => List.eq_nil_of_length_eq_zero (by rw [hn l hl, hn0])
      have hg1 : ∀ (ls : List Nat) (g : Group), (∀ l ∈ ls, (f l).1 = []) → (g.forLanes ls fun g l => g.vsets l (s.g.phys l d) (f l).1) = g := by
        intro ls
        induction ls with
        | nil => intros; rfl
        | cons a ls ih =>
          intro g hls
          simp only [Group.forLanes, List.foldl_cons, hls a (by simp), Group.vsets]
          exact ih g fun l hl => hls l (by simp [hl])
      have : g1 = s.g := hg1 _ _ hnil
      rw [this, if_neg]
      rintro ⟨hl, h1, h2⟩
      simp only [hnil l hl, List.length_nil] at h2
      omega
    · refine Group.forLanes_vsets s.g s.batch (fun l => s.g.phys l d) (fun l => (f l).1) (nodup_lanesOf _ _) (fun l hl => ?_) l p hp'
      rcases hb l hl with h0 | h0
      · exact h0
      · exfalso; apply hn0; rw [← hn l hl, h0]; rfl
  · rw [hp, if_neg (by omega)]
    simp only [Group.pbit, hfib]
  · rw [hs, if_neg (by simp)]
    have : g.sreg i = g1.sreg i := rfl
    rw [this, ← hrest]; rfl
  · rw [FlagsOr, hF, hfl.symm]

/-- An instruction that writes Pd lane by lane, its registers ready, completes (06 R110, R119, R130). -/
theorem writeP_done {s : State} {av : Avail} {rs : List Ref} {d : PReg} {f : Nat → Bool × Nat} (h : Ready s av rs) (e : Bool) :
    ∃ t, s.runOk av rs e (s.writeP d f) = .next t ∧ PredDone s t d.toNat f := by
  refine ⟨_, h.runOk e _, ?_⟩
  let g1 := s.g.forLanes s.batch fun g l => g.pset l d.toNat (f l).1
  let fl := s.batch.foldl (fun m l => m ||| (f l).2) 0
  let g := { g1 with fpflags := g1.fpflags ||| w32 (fl % 64) }
  have hrest : { g1 with fibres := s.g.fibres } = s.g :=
    Group.forLanes_fibres_rest s.g s.batch fun l k => { k with preds := setBit16 k.preds d.toNat (f l).1 }
  have hw : s.writeP d f = s.modG fun _ => g := by
    have h1 : (s.modG fun g => g.forLanes s.batch fun g l => g.pset l d.toNat (f l).1) = s.modG fun _ => g1 := rfl
    unfold State.writeP
    simp only
    rw [h1, State.orFlags_modG]
  have hfl : g1.fpflags = s.g.fpflags := by rw [← hrest]
  have hfib : ∀ l, g.fib l = if l ∈ s.batch then { s.g.fib l with preds := setBit16 (s.g.fib l).preds d.toNat (f l).1 } else s.g.fib l :=
    fun l => Group.forLanes_pset s.g s.batch d.toNat (fun l => (f l).1) (nodup_lanesOf _ _) l
  rw [hw]
  obtain ⟨⟨h1, h2, h3, h4⟩, hv, hp, hs, hF⟩ := completed_of (s := s) (t := (s.modG fun _ => g).retire e) (g := g) (pc := fun _ => s.cur.npc)
    (leave := fun u => u.goOn e) (fun u => State.goOn_same u e) (by rw [← hrest])
    (fun l => by rw [hfib]; split <;> rfl) (fun l hl => by rw [hfib, if_neg hl]) rfl
  refine ⟨⟨h1, .of_groups h1.rest, h2, h3, h4⟩, fun l p hp' => ?_, fun l i hi => ?_, fun i => ?_, ?_⟩
  · rw [hv, if_neg (by simp only [List.length_nil]; omega)]
    have : g.vlane l p = g1.vlane l p := rfl
    rw [this, ← hrest]; rfl
  · rw [hp]
    simp only [Group.pbit, hfib]
    by_cases hl : l ∈ s.batch
    · simp only [hl, if_true, true_and]
      exact setBit16_getLsbD _ _ _ _ d.isLt hi
    · simp [hl]
  · rw [hs, if_neg (by simp)]
    have : g.sreg i = g1.sreg i := rfl
    rw [this, ← hrest]; rfl
  · rw [FlagsOr, hF, hfl.symm]

/-- An instruction that writes S registers, its registers ready, completes (02 R34; 06 R102). -/
theorem writeS_done {s : State} {av : Avail} {rs : List Ref} {d : Reg} {ws : List Word} (h : Ready s av rs) (e : Bool) :
    ∃ t, s.runOk av rs e (s.writeS d ws) = .next t ∧ ScalarDone s t d ws := by
  refine ⟨_, h.runOk e _, ?_⟩
  let g := s.g.ssets d.toNat ws
  have hrest : { g with sregs := s.g.sregs } = s.g := Group.ssets_rest s.g d.toNat ws
  have hw : s.writeS d ws = s.modG fun _ => g := rfl
  have hfib : ∀ l, g.fib l = s.g.fib l := fun l => by rw [← hrest]; rfl
  rw [hw]
  obtain ⟨⟨h1, h2, h3, h4⟩, hv, hp, hs, hF⟩ := completed_of (s := s) (t := (s.modG fun _ => g).retire e) (g := g) (pc := fun _ => s.cur.npc)
    (leave := fun u => u.goOn e) (fun u => State.goOn_same u e) (by rw [← hrest]) (fun l => by rw [hfib]) (fun l _ => hfib l) rfl
  refine ⟨⟨h1, .of_groups h1.rest, h2, h3, h4⟩, fun l p hp' => ?_, fun l i hi => ?_, fun i => ?_, ?_⟩
  · rw [hv, if_neg (by simp only [List.length_nil]; omega), ← hrest]; rfl
  · rw [hp, if_neg (by omega)]
    simp only [Group.pbit, hfib]
  · rw [hs]; exact Group.ssets_sreg s.g d.toNat ws i
  · rw [FlagsOr, hF, ← hrest]
    have : ∀ l : List Nat, l.foldl (fun m _ => m ||| 0) 0 = 0 := fun l => by
      induction l with
      | nil => rfl
      | cons a l ih => simp
    rw [this]
    simp [w32]

end Sys2Proof
end

