-- ==== Sys2Proof/Tests/Slice0.lean ====
section
/-! SUPPORT. The model's own tests: well-formedness, decoding of words written out from 03's tables, one step of an instruction on small states
with results worked out by hand, and for every statement with hypotheses a state and operands that meet them. -/
namespace Sys2Proof.Tests

set_option Elab.async false
open Sys2Proof Sys2Proof.Machine

/-! ### Small states -/

/-- A grid whose launch names a user handler at 0x4000. -/
def handled : Grid := { teams := 1, launch := List.replicate 0x80 0 ++ leBytes 8 0x4000 }

/-- One group of a kind in lanes 0 and 1 of a batch of its own, under way at the address at which the loader places a program; context 0's table maps
every page to itself; a registers by lane and index, and S registers, as given. -/
def at_ (k : Kind) (mask : Nat) (v : Tab VLane) (sr : Tab Word) : State :=
  { (State.reset.placeWord 0) with
    cur := { gid := 1, mask := mask, pc := placePc, npc := placePc + 4 }
    groups := [(1, { placeGroup k placePc with
      fibres := if k = .core then [(0, { life := .live, pc := placePc }), (1, { life := .live, pc := placePc })] else [(0, { life := .live, pc := placePc })]
      v := v, sregs := sr, tid := 1 })] }

/-- A core group: V1 and V2 of lanes 0 and 1, S3. -/
def core : State :=
  at_ .core 3 [(1, { val := 5 }), (2, { val := 0xFFFFFFFF }), (257, { val := 9 }), (258, { val := 0x80000000 })] [(3, 7)]
/-- A core group of one fibre. -/
def one : State := at_ .core 1 [(1, { val := 5 }), (2, { val := 0xFFFFFFFF })] [(3, 7)]
/-- A sequencer context. -/
def seqr : State := at_ .sequencer 1 [] [(3, 7)]
/-- A group of a cellar call. -/
def cell : State := at_ .cellar 1 [(1, { val := 5 })] [(3, 7)]
/-- The core group of one fibre, whose launch has a user handler. -/
def trapped : State := { one with grids := [(1, handled)] }
/-- A state whose die 0 has an empty fault buffer that is on. -/
def buffered (s : State) : State := { s with dies := [(0, { fbbase := 1 })] }

/-- The V registers d of lanes 0 and 1 after a step. -/
def vs (d : Nat) (o : Out) : List Word := match o with | .next t => [(t.grp 1).vval 0 d, (t.grp 1).vval 1 d] | _ => []
/-- S register d after a step. -/
def sr (d : Nat) (o : Out) : Option Word := match o with | .next t => some ((t.grp 1).sreg d) | _ => none
/-- P register d of lanes 0 and 1 after a step. -/
def ps (d : Nat) (o : Out) : List Bool := match o with | .next t => [(t.grp 1).pbit 0 d, (t.grp 1).pbit 1 d] | _ => []
/-- The PC of lane 0 after a step. -/
def pc0 (o : Out) : Option Dword := match o with | .next t => some ((t.grp 1).fib 0).pc | _ => none
/-- A value of the state after a step. -/
def after {α : Type} (o : Out) (f : State → α) : Option α := match o with | .next t => some (f t) | _ => none

/-- A check of what `Ready` asks. -/
def readyB (s : State) (av : Avail) (rs : List Ref) : Bool :=
  av.runs s.g.kind && (!s.g.isGuest || av.guest) &&
    rs.all fun r => (r.cls == 5 || (s.refIdx r).all fun i => decide (i < s.allocOf r.cls)) &&
      ((s.refIdx r).all fun i => !s.g.pending { cls := r.cls, idx := i }) && (s.poisonOf r).isEmpty

/-- The check says that the references are ready. -/
theorem ready {s : State} {av : Avail} {rs : List Ref} (h : readyB s av rs = true) : Ready s av rs := by
  simp only [readyB, Bool.and_eq_true, Bool.or_eq_true, List.all_eq_true, Bool.not_eq_true', List.isEmpty_iff, beq_iff_eq, decide_eq_true_eq] at h
  obtain ⟨⟨h1, h2⟩, h3⟩ := h
  exact ⟨⟨h1, fun g => h2.resolve_left (by simp [g])⟩, fun r hr h5 i hi => ((h3 r hr).1.1.resolve_left h5) i hi, fun r hr i hi => (h3 r hr).1.2 i hi,
    fun r hr => (h3 r hr).2⟩

/-- A team without mapped windows. -/
theorem no_window {t : Team} (h : t.lmap = []) (line : Nat) : t.window line = none := by
  simp [Team.window, h, tget, firstSome, LWindow.covers, LWindow.len, LWindow.off, bitsOf]

/-! ### Well-formedness: a term that each check refuses -/

theorem test_wf_cvt : (Instr.cvt .dflt .f32 .f32 1 (.v 2 .straight) false).wf = false := by decide
theorem test_wf_cvt_round : (Instr.cvt .rz .i32 .n32 1 (.v 2 .straight) false).wf = false := by decide
theorem test_wf_tload : (Instr.tload false 0 1 2 3 false).wf = false := by decide
theorem test_wf_bstat : (Instr.bstat 5 1 false).wf = false := by decide
theorem test_wf_stores : (Instr.stg .s8 0 0 1 2 false).wf = false ∧ (Instr.stl .s16 0 1 2 false).wf = false ∧ (Instr.sto .s8 0 1 2 false).wf = false := by decide
theorem test_wf_fence : (Instr.fence .module .plain false).wf = false := by decide
theorem test_wf_launch : (Instr.launch false 1 0 2 false).wf = false := by decide
theorem test_wf_system : (Instr.sysr 0x3FF 1 false).wf = false ∧ (Instr.sysw 0x23 1 false).wf = false ∧ (Instr.sysrV 0x3FF 1 false).wf = false := by decide
theorem test_wf_units : (Instr.issueSlotArbitration 1024 0).wf = false ∧ (Instr.matrixSumUnit 128).wf = false ∧ (Instr.copyLineWrite 32).wf = false ∧
    (Instr.faultRecordDeferred 8).wf = false ∧ (Instr.cellarCallStart 16).wf = false ∧ (Instr.ctxcreate 256).wf = false ∧ (Instr.msiXMessage 9).wf = false := by decide
theorem test_wf_packet : (Instr.read { kind := 1, port := 32 }).wf = false := by decide
theorem test_wf_host : (Instr.cxlMemRead (2 ^ 64) 1).wf = false ∧ (Instr.registerWrite 65536 0).wf = false ∧
    (Instr.configPendingApply (.hmaskCh 16)).wf = false ∧ (Instr.linkDown (.port 32)).wf = false := by decide

/-! ### Decoding: words written out field by field from 03 Tables 3.1, 3.3, 3.6, 3.7, highest field first -/

theorem test_decode_iadd : decode {} 0b000_10000010_00000001_00011_000000_1_1 = .ok (.iadd .i32 3 (.v 1 .straight) (.s 2) true) := rfl
theorem test_decode_isub : decode {} 0b111_01111101_00111110_11111_000001_0_1 = .ok (.isub .satN8x4 31 (.v 30 .rot) (.v 29 .bc) false) := rfl
theorem test_decode_imul : decode {} 0b011_10011111_01000101_00100_000010_0_1 = .ok (.imul .wideI32 4 (.v 5 .xor) (.s 31) false) := rfl
theorem test_decode_icmp : decode {} 0b100_00000011_00000010_01001_000111_0_1 = .ok (.icmp .ltN 9 (.v 2 .straight) (.v 3 .straight) false) := rfl
theorem test_decode_imad : decode {} 0b0000_00100_00011_00010_00001_001001_0_1 = .ok (.imad .loI32 1 2 3 4 false) := rfl
theorem test_decode_iaddi : decode {} 0b11111111111_00001000_00111_001100_0_1 = .ok (.iaddi 7 (.v 8 .straight) 0x7FF false) := rfl
theorem test_decode_shi : decode {} 0b000_011_11111_10000101_00110_001110_0_1 = .ok (.shi .rol 6 (.s 5) 31 false) := rfl
theorem test_decode_fmax : decode {} 0b111_00000110_00000100_00010_010011_0_1 = .ok (.fmax .f64 2 (.v 4 .straight) (.v 6 .straight) false) := rfl
theorem test_decode_fma : decode {} 0b0010_00100_00011_00010_00001_011000_1_1 = .ok (.fma .bf16x2 1 2 3 4 true) := rfl
theorem test_decode_rdlane : decode {} 0b000_10000111_00000110_00101_011001_0_1 = .ok (.rdlane 5 6 7 false) := rfl
theorem test_decode_wait : decode {} 0b000001_000010_000011_111111_011010_0_1 = .ok (.wait 1 2 3 63 false) := rfl
theorem test_decode_cvt : decode {} 0b010_0000_0110_00001010_01001_011100_0_1 = .ok (.cvt .rz .f32 .i32 9 (.v 10 .straight) false) := rfl
theorem test_decode_qnt : decode {} 0b0011_00_101_00110_00111_01000_011101_0_1 = .ok (.qnt 3 5 6 7 8 false) := rfl
theorem test_decode_pack : decode {} 0b001_00000011_00000010_00001_011110_0_1 = .ok (.pack .b 1 (.v 2 .straight) (.v 3 .straight) false) := rfl
theorem test_decode_xchRot : decode {} 0b000_10000011_00000010_00001_100000_0_1 = .ok (.xchRot 1 2 (.s 3) false) := rfl
theorem test_decode_voteBallot : decode {} 0b000010_000_00000_00101_00100_100001_0_1 = .ok (.voteBallot 4 5 false) := rfl
theorem test_decode_scanl : decode {} 0b101_00000000_00000100_00011_100011_0_1 = .ok (.scanl .maxI32 true 3 (.v 4 .straight) false) := rfl
theorem test_decode_sadd : decode {} 0b000_10000011_10000010_00001_100101_0_1 = .ok (.sadd 1 2 3 false) := rfl
theorem test_decode_tload : decode {} 0b000_11111_111111_00101_00_111_101000_0_1 = .ok (.tload true 31 63 5 7 false) := rfl
theorem test_decode_mmaq : decode {} 0b0101_001_1111111_1000000_010_101100_0_1 = .ok (.mmaq true 1 127 64 2 false) := rfl
theorem test_decode_zrd : decode {} 0b000000_000_00100_00101_00110_101101_0_1 = .ok (.zrd 4 5 6 false) := rfl
theorem test_decode_qpop : decode {} 0b000001_000_00000_00111_01001_101110_0_1 = .ok (.qpop 7 9 false) := rfl
theorem test_decode_ldg : decode {} 0b110_11111_111111_00101_00110_110000_0_1 = .ok (.ldg .s16 31 63 5 6 false) := rfl
theorem test_decode_stl : decode {} 0b011_10000000000_00101_00110_110100_0_1 = .ok (.stl .b64 0x400 5 6 false) := rfl
theorem test_decode_lopXadd : decode {} 0b000101_010_00001_00010_00000_110111_0_1 = .ok (.lopXadd .bf16 1 2 false) := rfl
theorem test_decode_atomxCas : decode {} 0b001_00001_000010_00011_00100_111001_0_1 = .ok (.atomxCas 1 2 3 4 false) := rfl
theorem test_decode_fence : decode {} 0b000000_100_00000_00000_00011_111010_0_1 = .ok (.fence .module .acqRel false) := rfl
theorem test_decode_cpy : decode {} 0b000000_000_00001_00010_00011_111011_0_1 = .ok (.cpy 1 2 3 false) := rfl
theorem test_decode_brCond : decode {} 0b111111111111111111_0_1_0100_111100_0_1 = .ok (.brCond 0x3FFFF true 4 false) := rfl
theorem test_decode_call : decode {} 0b0000000000000000001_000_11_111101_0_1 = .ok (.call 1 3 false) := rfl
theorem test_decode_trap : decode {} 0b010110_000_111111111111111_111110_0_1 = .ok (.trap 0x7FFF false) := rfl
theorem test_decode_sysr : decode {} 0b011001_000_0000110001_00100_111110_0_1 = .ok (.sysr 0x31 4 false) := rfl
theorem test_decode_rdclk : decode {} 0b011101_000_00000_00000_00010_111110_0_1 = .ok (.rdclk 2 false) := rfl
theorem test_decode_lit : decode {} 0b1111111111111111111111_00_111111_0_1 = .ok (.lit 0x3FFFFF) := rfl
theorem test_decode_mod : decode {} 0b0000000000000000000101_01_111111_0_1 = .ok (.mod 5) := rfl
theorem test_decode_c16 : decode {} 0b1_00011_00100_0000_0 = .ok (.iaddC16 true 3 4) ∧ decode {} 0b0_00111_11111_1110_0 = .ok (.ldlC16 7 31) := ⟨rfl, rfl⟩
/-- The 16-bit parcel 0x0000 is IADD.I32 V0, V0, V0 (03 R51). -/
theorem test_decode_zero : decode {} 0 = .ok (.iaddC16 false 0 0) := rfl
/-- FPFLAGS, LMAP2.A and the immediate form of SETFPM have rows of their own (18 R352, R354). -/
theorem test_decode_system : decode {} 0b011010_000_0000000010_00101_111110_0_1 = .ok (.fpflagsClear 5 false) ∧
    decode {} 0b011010_000_0000110100_00101_111110_0_1 = .ok (.lmapWrite 2 5 false) ∧
    decode {} 0b011011_001_00101_10011_00000_111110_0_1 = .ok (.setfpmImm 0b10110011 false) := ⟨rfl, rfl, rfl⟩
theorem test_decode_unassigned : decode {} 0b000_00000000_00000000_00000_011011_0_1 = .error .unassignedMajor ∧
    decode {} 0b011110_000_00000_00000_00000_111110_0_1 = .error (.unassignedMinor 26 31) := ⟨rfl, rfl⟩
theorem test_decode_reserved : decode {} 0b000000_001_00000_00000_00000_111110_0_1 = .error (.reservedField 23 25 .instr) ∧
    decode {} 0b000_00000000_10100001_00011_000000_0_1 = .error (.reservedCode 18 19 .instr) ∧
    decode {} 0b111_00000_000000_00101_00110_110000_0_1 = .error (.reservedCode 29 31 .instr) := ⟨rfl, rfl, rfl⟩
/-- The prefix checks of 03 R57, in the order of its list. -/
theorem test_decode_prefixes : decode {} 0b0000000000000000000000_10_111111_0_1 = .error (.prefixKind 0) ∧
    decode {} 0b0000000000000000000000_00_111111_1_1 = .error (.prefixE 0) ∧
    decode { lit := some 1 } 0b0000000000000000000000_00_111111_0_1 = .error (.prefixRepeated 1) ∧
    decode { lit := some 1 } 0b1_00011_00100_0000_0 = .error (.prefixBeforeC16 0) ∧
    decode { lit := some 1 } 0b000_00000011_00000010_00001_000000_0_1 = .error (.prefixRefused 0) := ⟨rfl, rfl, rfl, rfl, rfl⟩
/-- LDG takes an acquire and no release (03 Table 3.5). -/
theorem test_decode_mod_order : decode { mod := some 0b01_001 } 0b010_00000_000000_00101_00110_110000_0_1 = .ok (.ldg .b32 0 0 5 6 false) ∧
    decode { mod := some 0b10_001 } 0b010_00000_000000_00101_00110_110000_0_1 = .error (.reservedCode 13 14 .mod) := ⟨rfl, rfl⟩

/-! ### One step: registers -/

theorem test_iadd_wraps : vs 4 (exec (.iadd .i32 4 (.v 2 .straight) (.s 3) false) core) = [6, 0x80000007] := by decide
theorem test_iadd_saturates : vs 4 (exec (.iadd .satI32 4 (.v 2 .straight) (.v 2 .straight) false) core) = [0xFFFFFFFE, 0x80000000] := by decide
theorem test_isub : vs 4 (exec (.isub .i32 4 (.v 1 .straight) (.s 3) false) core) = [0xFFFFFFFE, 2] := by decide
theorem test_imul_hi : vs 4 (exec (.imul .hiI32 4 (.v 2 .straight) (.v 2 .straight) false) core) = [0, 0x40000000] := by decide
theorem test_imin_signed : vs 4 (exec (.imin .i32 4 (.v 1 .straight) (.v 2 .straight) false) core) = [0xFFFFFFFF, 0x80000000] := by decide
theorem test_imax_signed : vs 4 (exec (.imax .i32 4 (.v 1 .straight) (.v 2 .straight) false) core) = [5, 9] := by decide
theorem test_imin_unsigned : vs 4 (exec (.imin .n32 4 (.v 1 .straight) (.v 2 .straight) false) core) = [5, 9] := by decide
/-- 0x8000_0000 stays (06 R106). -/
theorem test_iabs : vs 4 (exec (.iabs 4 (.v 2 .straight) false) core) = [1, 0x80000000] := by decide
/-- Exact: 9 - (-2^31) (06 R106). -/
theorem test_iabsd : vs 4 (exec (.iabsd 4 (.v 1 .straight) (.v 2 .straight) false) core) = [6, 0x80000009] := by decide
theorem test_andn : vs 4 (exec (.andn 4 (.v 2 .straight) (.v 1 .straight) false) core) = [0xFFFFFFFA, 0x80000000] := by decide
theorem test_shl : vs 4 (exec (.shl 4 (.v 1 .straight) (.s 3) false) core) = [640, 1152] := by decide
theorem test_sar : vs 4 (exec (.sar 4 (.v 2 .straight) (.s 3) false) core) = [0xFFFFFFFF, 0xFF000000] := by decide
theorem test_popc : vs 4 (exec (.popc 4 (.v 2 .straight) false) core) = [32, 1] := by decide
theorem test_clz : vs 4 (exec (.clz 4 (.v 1 .straight) false) core) = [29, 28] := by decide
theorem test_ctz : vs 4 (exec (.ctz 4 (.v 2 .straight) false) core) = [0, 31] := by decide
theorem test_brev : vs 4 (exec (.brev 4 (.v 1 .straight) false) core) = [0xA0000000, 0x90000000] := by decide
theorem test_icmp_signed : ps 1 (exec (.icmp .ltI 1 (.v 1 .straight) (.v 2 .straight) false) core) = [false, false] := by decide
theorem test_icmp_unsigned : ps 1 (exec (.icmp .ltN 1 (.v 1 .straight) (.v 2 .straight) false) core) = [true, true] := by decide
/-- P0 is false, so the second source (06 R111). -/
theorem test_sel : vs 4 (exec (.sel 0 4 (.v 1 .straight) (.v 2 .straight) false) core) = [0xFFFFFFFF, 0x80000000] := by decide
theorem test_imad : vs 4 (exec (.imad .loI32 4 1 1 1 false) core) = [30, 90] := by decide
theorem test_lea : vs 4 (exec (.lea 2 4 (.v 1 .straight) (.v 1 .straight) false) core) = [25, 45] := by decide
theorem test_iaddi : vs 4 (exec (.iaddi 4 (.v 1 .straight) 0x7FF false) core) = [4, 8] := by decide
theorem test_movi : vs 4 (exec (.movi 4 0x400 false) core) = [0xFFFFFC00, 0xFFFFFC00] := by decide
theorem test_shi_rol : vs 4 (exec (.shi .rol 4 (.v 1 .straight) 31 false) core) = [0x80000002, 0x80000004] := by decide
theorem test_lea64_carries : vs 4 (exec (.shlI64 4 (.v 1 .straight) (.s 3) false) core) = [640, 1152] ∧
    vs 5 (exec (.shlI64 4 (.v 1 .straight) (.s 3) false) core) = [0xFFFFFF80, 0] := by decide
/-- A source that is also the destination is read first, in every lane (02 R41). -/
theorem test_source_is_destination : vs 1 (exec (.xchRot 1 1 (.s 4) false) { core with groups := [(1, (core.g.ssets 4 [1]))] }) = [9, 0] := by decide

/-- Lanes with 1.0 and 2.5, 4.0 and -0.0. -/
def floats : State := at_ .core 3 [(1, { val := 0x3F800000 }), (2, { val := 0x40200000 }), (257, { val := 0x40800000 }), (258, { val := 0x80000000 })] [(3, 7)]

theorem test_fadd : vs 4 (exec (.fadd .f32 4 (.v 1 .straight) (.v 2 .straight) false) floats) = [0x40600000, 0x40800000] := by decide +kernel
theorem test_fsub : vs 4 (exec (.fsub .f32 4 (.v 1 .straight) (.v 2 .straight) false) floats) = [0xBFC00000, 0x40800000] := by decide +kernel
theorem test_fmul : vs 4 (exec (.fmul .f32 4 (.v 1 .straight) (.v 2 .straight) false) floats) = [0x40200000, 0x80000000] := by decide +kernel
theorem test_fma : vs 4 (exec (.fma .f32 4 1 2 1 false) floats) = [0x40600000, 0x40800000] := by decide +kernel
theorem test_fmax : vs 4 (exec (.fmax .f32 4 (.v 1 .straight) (.v 2 .straight) false) floats) = [0x40200000, 0x40800000] := by decide +kernel
theorem test_fneg : vs 4 (exec (.fneg 4 (.v 2 .straight) false) floats) = [0xC0200000, 0] := by decide +kernel
theorem test_fcmp : ps 2 (exec (.fcmp .lt 2 (.v 1 .straight) (.v 2 .straight) false) floats) = [true, false] := by decide +kernel
/-- 2.5 rounds to 2 under RNE, inexact (05 R87). -/
theorem test_frndn : vs 4 (exec (.frndn 4 (.v 2 .straight) false) floats) = [0x40000000, 0x80000000] := by decide +kernel
theorem test_cvt : vs 4 (exec (.cvt .rz .f32 .i32 4 (.v 2 .straight) false) floats) = [2, 0] := by decide +kernel

theorem test_redl : vs 4 (exec (.redl .addI32 4 (.v 1 .straight) false) core) = [14, 14] := by decide
theorem test_scanl_inclusive : vs 4 (exec (.scanl .addI32 false 4 (.v 1 .straight) false) core) = [5, 14] := by decide
theorem test_scanl_exclusive : vs 4 (exec (.scanl .addI32 true 4 (.v 1 .straight) false) core) = [0, 5] := by decide
theorem test_vote_ballot : sr 5 (exec (.voteBallot 5 0 false) { core with groups := [(1, core.g.setF 1 fun f => { f with preds := 1 })] }) = some 2 := by decide
theorem test_sadd : sr 5 (exec (.sadd 5 3 3 false) core) = some 14 := by decide
theorem test_ssub_wraps : sr 5 (exec (.ssub 5 4 3 false) core) = some 0xFFFFFFF9 := by decide
theorem test_smovi : sr 5 (exec (.smovi 5 0x7FF false) core) = some 0xFFFFFFFF := by decide
theorem test_sclz : sr 5 (exec (.sclz 5 3 false) core) = some 29 := by decide
/-- The worked example of 02: LX = 0x0001_47C3 rotates by 3 and mirrors by 31, so lane 30 adds V2 of lane 1 to itself. -/
theorem test_crossbar : (match exec (.iadd .i32 1 (.v 2 .rot) (.v 2 .xor) false)
      { at_ .core (2 ^ 30) [(258, { val := 21 })] [] with
        groups := [(1, { placeGroup .core placePc with fibres := [(30, { life := .live, pc := placePc })], lx := 0x147C3, v := [(258, { val := 21 })] })] } with
    | .next t => (t.grp 1).vval 30 1 | _ => 0) = 42 := by decide

/-! ### One step: control flow, traps, memory -/

theorem test_nop : pc0 (exec (.nop false) one) = some 0xFFFFE00000001004 := by decide
theorem test_br : pc0 (exec (.br 4 false) one) = some 0xFFFFE00000001008 := by decide
theorem test_br_back : pc0 (exec (.br 0x3FFFF false) one) = some 0xFFFFE00000000FFE := by decide
/-- P0 is false, so BR.P0 falls through and BR.NP0 is taken (15 R284). -/
theorem test_br_cond : pc0 (exec (.brCond 4 true 0 false) one) = some 0xFFFFE00000001004 ∧
    pc0 (exec (.brCond 4 false 0 false) one) = some 0xFFFFE00000001008 := by decide
/-- A slide of 8: the link stands in V8 and V9, the caller's window base in V10 (15 R285). -/
theorem test_call : pc0 (exec (.call 8 1 false) one) = some 0xFFFFE00000001010 ∧ vs 8 (exec (.call 8 1 false) one) = [0x1004, 0] ∧
    vs 9 (exec (.call 8 1 false) one) = [0xFFFFE000, 0] ∧ after (exec (.call 8 1 false) one) (fun t => ((t.grp 1).fib 0).wb8) = some 1 := by decide
theorem test_fend : after (exec (.fend false) one) (fun t => ((t.grp 1).fib 0).life) = some .free := by decide
/-- TRAP 9 enters the handler at 0x4000, its window 16 registers on; the record of group 0 stands 128 bytes below the larder's end (17 R333). -/
theorem test_trap : pc0 (exec (.trap 9 false) trapped) = some 0x4000 ∧
    after (exec (.trap 9 false) trapped) (fun t => ((t.grp 1).fib 0).wb8) = some 2 ∧
    after (exec (.trap 9 false) trapped) (fun t => (t.team 1).lread 65408 8) = some (leBytes 8 0xFFFFE00000001000) ∧
    after (exec (.trap 9 false) trapped) (fun t => mread (t.team 1).larder (65408 + 0x1D)) = some 0x11 ∧
    after (exec (.trap 9 false) trapped) (fun t => mread (t.team 1).larder (65408 + 0x28)) = some 9 := by decide +kernel
/-- Without a user handler the group is held, and a record of KIND 0x02, CODE 0x11 stands in the die's fault buffer (17 R331, R336). -/
theorem test_trap_held : after (exec (.trap 9 false) (buffered one)) (fun t => t.homeRead 0 3) = some [2, 0x11, 0] ∧
    after (exec (.trap 9 false) (buffered one)) (fun t => (t.die 0).widx) = some 1 := by decide
theorem test_lit : after (exec (.lit 5) one) (fun t => (t.cur.pre.lit, t.cur.mid)) = some (some 5, true) := by decide
theorem test_setfpm : after (exec (.setfpmImm 0xFF false) one) (fun t => (t.grp 1).fpmode) = some 0xFF := by decide
theorem test_sysr_width : sr 5 (exec (.sysr 0x15 5 false) one) = some 32 := by decide

/-- The group of one fibre with one store of four bytes queued at a place. -/
def storing (x : Target) (a : Action) (m : Memory := [(0x2000, 0x1F)]) : State :=
  { one with mem := m, groups := [(1, { one.g with stores := [{ ret := 7, lane := 0, dst := 256, tgt := x, act := a }], st := 1
                                                   returns := [{ id := 7, kind := .store, ctr := some .st, left := 1 }] })] }

theorem test_store_larder : after (exec (.storePerformed 1) (storing (.larder 0x40) (.bytes [1, 2, 3, 4]))) (fun t => (t.team 1).lread 0x3F 6) =
    some [0, 1, 2, 3, 4, 0] := by decide
theorem test_store_device : after (exec (.storePerformed 1) (storing (.dev 0x3000 2) (.bytes [1, 2, 3, 4]))) (fun t => (t.homeRead 0x3000 4, (t.grp 1).st)) =
    some ([1, 2, 3, 4], 0) := by decide
/-- An ADD of 5 at a word of 7 (11 R218). -/
theorem test_atomic_add : after (exec (.storePerformed 1) (storing (.dev 0x3000 2) (.atom .add false 5 0) [(0x2000, 0x1F), (0x3000, 7)]))
    (fun t => t.homeRead 0x3000 4) = some [12, 0, 0, 0] := by decide
/-- MIN.I of -1 at a word of 7 (11 R218). -/
theorem test_atomic_min_signed :
    after (exec (.storePerformed 1) (storing (.dev 0x3000 2) (.atom .minI false 0xFFFFFFFF 0) [(0x2000, 0x1F), (0x3000, 7)]))
      (fun t => t.homeRead 0x3000 4) = some [0xFF, 0xFF, 0xFF, 0xFF] := by decide
/-- The group of one fibre with a load whose value has arrived. -/
def returning : State :=
  { one with groups := [(1, { one.g with returns := [{ id := 7, kind := .load, ctr := some .ld, lanes := [{ lane := 0, ready := true, ws := [.v 0 4 { val := 42, pois := true }] }] }]
                                         ld := 1 })] }
/-- A lane's value lands with its poison (02 R42, R44). -/
theorem test_return : after (exec (.asynchronousReturn 1 7 0) returning) (fun t => ((t.grp 1).vlane 0 4, (t.grp 1).ld)) = some ({ val := 42, pois := true }, 0) := by decide
theorem test_ldl_begins : after (exec (.ldl .b32 0 5 4 false) one) (fun t => ((t.grp 1).ld, (t.grp 1).returns.map (·.regs))) =
    some (1, [[{ cls := 0, idx := 4 }]]) := by decide
theorem test_qpsh : after (exec (.qpsh 3 0 false) one) (fun t => ((t.team 1).queue 0).map (·.val)) = some [7] := by decide
theorem test_swinit : after (exec (.swinit 3 4 false) one) (fun t => (t.team 1).lread 0 16) = some (leBytes 4 7 ++ List.replicate 12 0) := by decide +kernel
theorem test_bclm : sr 5 (exec (.bclm 1 5 false) one) = some 0 ∧ after (exec (.bclm 1 5 false) one) (fun t => (t.team 1).claimed) = some [0, 1] := by decide
theorem test_tclr : after (exec (.tclr 2 false) { one with groups := [(1, { one.g with tiles := [(64, List.replicate 32 9)] })] })
    (fun t => (t.grp 1).trow 2 0) = some (List.replicate 32 0) := by decide

/-! ### One step of the module -/

/-- A write of NODEID is taken while no port is enabled, and refused with HERR otherwise (19 R360 and its example). -/
def ready_ : State := { State.reset with bootstat := 2 }
theorem test_nodeid : after (exec (.nodeidWrite 0x4D2) ready_) (fun t => t.nodeid) = some 0x4D2 := by decide
theorem test_nodeid_refused : after (exec (.nodeidWrite 1) { ready_ with porten := 1 }) (fun t => (t.nodeid, t.herr)) = some (0x7FFFF, true) := by decide
/-- The example's Q0CTL = 0x8000_000A makes a queue of 1,024 entries (19 R362's first bring-up). -/
theorem test_q0ctl : after (exec (.q0ctlWrite 0x8000000A) ready_) (fun t => ((t.queue 0).entries, (t.queue 0).priv, (t.queue 0).used)) =
    some (1024, true, true) := by decide
theorem test_q0ctl_refused : after (exec (.q0ctlWrite 0x80000005) ready_) (fun t => (t.q0ctl, t.herr)) = some (0, true) := by decide
theorem test_wcage_limits : after (exec (.wcageWrite 63) ready_) (fun t => t.wcage) = some 1000 ∧
    after (exec (.wcageWrite 64) ready_) (fun t => t.wcage) = some 64 := by decide
theorem test_pwrcap_refused : after (exec (.pwrcapWrite ⟨false, 1999⟩) ready_) (fun t => (t.pwrcap, t.herr)) = some (8000, true) := by decide
/-- The management path writes PWRCAP while the host link is down (19 R365). -/
theorem test_pwrcap_managed : after (exec (.pwrcapWrite ⟨true, 2000⟩) { ready_ with down := [.cxl] }) (fun t => t.pwrcap) = some 2000 ∧
    after (exec (.pwrcapWrite ⟨false, 2000⟩) { ready_ with down := [.cxl] }) (fun t => (t.pwrcap, t.hostWaits.length)) = some (8000, 1) := by decide
theorem test_hstat_clears : after (exec .hstatRead { ready_ with herr := true, hstatWidth := 16 }) (fun t => (t.hostOut, t.herr)) =
    some ([(1, 0x10010)], false) := by decide
theorem test_not_ready : after (exec (.nodeidWrite 1) State.reset) (fun t => t.nodeid) = some 0x7FFFF ∧
    after (exec (.cxlMemRead 0 4) State.reset) (fun t => t.hostOut) = some [(3, 4)] := by decide
theorem test_cxl : after (exec (.cxlMemWrite 0x100 [1, 2]) ready_) (fun t => t.homeRead 0xFF 4) = some [0, 1, 2, 0] ∧
    after (exec (.cxlMemRead 0x100 2) { ready_ with mem := [(0x100, 5), (0x101, 1)] }) (fun t => t.hostOut) = some [(2, 261)] := by decide
/-- Over 95 degrees the clock steps down by 125 MHz, and the host is told (19 R361, R364). -/
theorem test_step_down : after (exec .powerStepDown { ready_ with temp := 95, now := 40000 }) (fun t => (t.clock, t.msiDue)) = some (3875, [8]) := by decide
theorem test_step_up : after (exec .powerStepUp { ready_ with clock := 3875, now := 4000000, clearSince := some 0 }) (fun t => t.clock) = some 4000 := by decide
theorem test_thermal : after (exec .thermalStop { ready_ with temp := 105 }) (fun t => t.thermalStop) = some true ∧
    after (exec .thermalResume { ready_ with temp := 90, thermalStop := true }) (fun t => t.thermalStop) = some true ∧
    after (exec .thermalResume { ready_ with temp := 89, thermalStop := true }) (fun t => t.thermalStop) = some false := by decide
theorem test_msi : after (exec (.msiXMessage 8) { ready_ with msiDue := [8], msiAt := [(8, 1)], now := 4000 }) (fun t => t.hostOut) = some [] ∧
    after (exec (.msiXMessage 8) { ready_ with msiDue := [8], msiAt := [(8, 1)], now := 4001 }) (fun t => t.hostOut) = some [(0, 8)] := by decide
/-- A core onto its pair's spare: hardware event 1 with the spare and the core (01 R14; 17 Table 17.6). -/
theorem test_core_retired : after (exec (.coreRetirement 17) (buffered ready_)) (fun t => (t.homeRead 0 4, t.homeRead 0x18 4, (t.core 17).out)) =
    some ([6, 1, 0, 0], [1, 17, 0, 0], false) := by decide
theorem test_core_without_spare : after (exec (.coreRetirement 17) { ready_ with dies := [(0, { fbbase := 1, spares := [(1, 3)] })] })
    (fun t => (t.homeRead 0 2, (t.core 17).out)) = some ([6, 2], true) := by decide
theorem test_get_version : after (exec .getVersion ready_) (fun t => t.mgmtOut) = some [[0x10, 4, 0, 0, 0, 1, 0, 0x12]] := by decide
theorem test_fused_minimum : after (exec (.fusedMinimumRaise 3) { ready_ with fusedMin := 5 }) (fun t => t.fusedMin) = some 5 := by decide
/-- The word at the program counter runs: MOVI V1, 5 placed at 0x1000 (03 R46). -/
theorem test_step : vs 1 (step (State.reset.withFetchWord 32 0b00000000101_00000000_00001_001111_0_1)) = [5, 0] := by decide

/-- An S register with an uncorrectable error: the instruction that reads it takes POISON, class D, with class 1 and index 3 (02 R44; 17 R344). -/
theorem test_file_error :
    let s : State := { buffered one with agenda := [{ act := .fileError 1 placePc { cls := 1, idx := 3 } 0 }] }
    pc0 (step s) = some placePc ∧ after (step s) (fun t => (t.homeField 0 2, t.homeField 0x18 8)) = some (0xB02, 0x300000100) := by decide +kernel

/-- FIPS 180-4's example: the digest of "abc" begins with these bytes (19 R362). -/
theorem test_sha512 : (sha512 [0x61, 0x62, 0x63]).take 8 = [0xDD, 0xAF, 0x35, 0xA1, 0x93, 0x61, 0x7A, 0xBA] := by decide +kernel

/-! ### The statements' hypotheses are met: for each statement, states and operands that meet what its clauses ask -/

/-- Bytes as the cells of a memory from an address. -/
def cellsAt (a : Nat) : List Byte → Memory
  | [] => []
  | b :: bs => if b = 0 then cellsAt (a + 1) bs else (a, b) :: cellsAt (a + 1) bs
/-- A check has passed. -/
def okB (x : Except Stop Unit) : Bool := match x with | .ok _ => true | .error _ => false
/-- A check that has passed answers nothing. -/
theorem ok_of {x : Except Stop Unit} (h : okB x = true) : x = .ok () := by
  cases x with
  | error => cases h
  | ok => rfl
/-- A check that every memory is canonical. -/
def canonB (s : State) : Bool :=
  s.mem.wf && rising s.l2 && s.hostMem.wf && (s.teams.all fun e => e.2.larder.wf) && (s.memStacks.all fun e => e.2.scratch.wf) &&
    (s.dies.all fun e => e.2.loft.wf) && (s.clusters.all fun e => e.2.bins.wf) &&
    (s.cores.all fun e => decide ((e.2.l1.map (·.1)).Pairwise (· < ·)))
/-- The check says so. -/
theorem canon_of {s : State} (h : canonB s = true) : MemoryCanonical s := by
  simp only [canonB, Bool.and_eq_true] at h
  obtain ⟨⟨⟨⟨⟨⟨⟨h1, h2⟩, h3⟩, h4⟩, h5⟩, h6⟩, h7⟩, h8⟩ := h
  exact ⟨h1, h2, h3, h4, h5, h6, h7, h8⟩
/-- A core whose L1 is empty has room for some lines. -/
theorem room_of {s : State} {gid n : Nat} (h : (s.core (s.grp gid).place).l1Lines.length + n ≤ l1Capacity) : L1Room s gid n := fun _ => h
/-- The core group's one-fibre form is housed. -/
theorem housed_one : Housed one := ⟨by decide, by decide, by decide⟩
/-- The core group of two fibres is housed. -/
theorem housed_core : Housed core := ⟨by decide, by decide, by decide⟩
/-- A sequencer context in its handler. -/
def seqHandler : State := at_ .sequencer 1 [] [(3, 7)] |>.modG fun g => { g with seq := { g.seq with inHandler := true, stvec := 0x5000, stpc := 0x1000 } }
/-- The two-fibre group of a launch with a handler. -/
def trapped2 : State := { core with grids := [(1, handled)] }
/-- The one-fibre group in its handler, the PC of its record even. -/
def inHandler : State := trapped.modG fun g => { g with handler := 1 }
/-- Without mapped windows every line of the larder holds its bytes. -/
theorem held_none {t : Team} (h : t.lmap = []) {p q : Nat → Prop} :
    ∀ line k w, p line → q line → t.window line = some (k, w) → line ∈ w.valid := by
  intro line k w _ _ hw
  rw [no_window h] at hw
  cases hw
/-- No store is queued, no handler runs: the launch with a handler. -/
theorem free_trapped : HandlerFree trapped :=
  ⟨by decide, by decide, by decide, by decide, by decide, by decide, by decide, held_none (by decide)⟩

/-- A check of what `InFiles` asks. -/
def filesB (s : State) (n : Needs) : Bool :=
  n.av.runs s.g.kind && (!s.g.isGuest || n.av.guest) && n.refs.all fun r => r.cls == 5 || (s.refIdx r).all fun i => decide (i < s.allocOf r.cls)
/-- The check says that the kind runs it and its registers are there. -/
theorem in_files {s : State} {n : Needs} (h : filesB s n = true) : InFiles s n := by
  simp only [filesB, Bool.and_eq_true, Bool.or_eq_true, List.all_eq_true, Bool.not_eq_true', beq_iff_eq, decide_eq_true_eq] at h
  obtain ⟨⟨h1, h2⟩, h3⟩ := h
  exact ⟨⟨h1, fun g => h2.resolve_left (by simp [g])⟩, fun r hr h5 i hi => (h3 r hr).resolve_left h5 i hi⟩
/-- A fault buffer that is on and whose die reaches it. -/
def roomB (s : State) (die n : Nat) : Bool :=
  (s.die die).fbbase.getLsbD 0 && decide ((s.die die).widx < 65536) && decide ((s.die die).ridx < 65536) &&
    decide (((s.die die).widx + 65536 - (s.die die).ridx) % 65536 + n ≤ 4096) && !s.fbCut die && s.mem.wf
/-- The check says that a record finds room. -/
theorem room_at {s : State} {die n : Nat} (h : roomB s die n = true) : FaultRoom s die n := by
  simp only [roomB, Bool.and_eq_true, Bool.not_eq_true', decide_eq_true_eq] at h
  obtain ⟨⟨⟨⟨⟨h1, h2⟩, h3⟩, h4⟩, h5⟩, h6⟩ := h
  exact ⟨h1, h2, h3, h4, h5, h6⟩

theorem witness_IntegerResults :
    (∃ v, intSpec core (.iadd .i64 30 (.v 1 .straight) (.s 3) false) = some v ∧ v.cond ∧ Ready core v.av (v.srcs ++ [vdst v.d v.n])) ∧
    (∃ v, intSpec core (.imad .wideN32 4 1 2 3 false) = some v ∧ v.cond ∧ Ready core v.av (v.srcs ++ [vdst v.d v.n])) ∧ Housed core :=
  ⟨⟨_, rfl, trivial, ready (by decide)⟩, ⟨_, rfl, trivial, ready (by decide)⟩, housed_core⟩
theorem witness_FloatResults :
    (∃ v, fpSpec core (.fadd .f64 4 (.v 1 .straight) (.v 2 .straight) false) = some v ∧ v.cond ∧ Ready core v.av (v.srcs ++ [vdst v.d v.n])) ∧
    (∃ v, fpSpec core (.frcp 4 (.v 1 .straight) false) = some v ∧ v.cond ∧ Ready core v.av (v.srcs ++ [vdst v.d v.n])) ∧ Housed core :=
  ⟨⟨_, rfl, trivial, ready (by decide)⟩, ⟨_, rfl, trivial, ready (by decide)⟩, housed_core⟩
theorem witness_LaneAndCompactResults :
    (∃ v, laneSpec core (.xchRot 4 1 (.s 3) false) = some v ∧ v.cond ∧ Ready core v.av (v.srcs ++ [vdst v.d v.n])) ∧
    (∃ v, compactSpec core (.iaddC16 true 3 31) = some v ∧ v.cond ∧ Ready core v.av (v.srcs ++ [vdst v.d v.n])) ∧ Housed core :=
  ⟨⟨_, rfl, ⟨by decide, fun _ _ hx _ _ _ _ => by cases hx; rfl⟩, ready (by decide)⟩, ⟨_, rfl, trivial, ready (by decide)⟩, housed_core⟩
theorem witness_PredicateResults : ∃ rs d f, predSpec core (.icmp .ltN 15 (.v 2 .straight) (.v 31 .straight) false) = some (rs, d, f) ∧
    Ready core avVec (rs ++ [pref d.toNat]) := ⟨_, _, _, rfl, ready (by decide)⟩
theorem witness_ScalarResults :
    (∃ v, scalarSpec core (.sadd 31 3 0 false) = some v ∧ v.cond ∧ Ready core v.av (v.srcs ++ [sref v.d v.words.length])) ∧
    (∃ v, scalarSpec core (.rdlane 4 2 3 false) = some v ∧ v.cond ∧ Ready core v.av (v.srcs ++ [sref v.d v.words.length])) :=
  ⟨⟨_, rfl, trivial, ready (by decide)⟩, ⟨_, rfl, rfl, ready (by decide)⟩⟩

theorem witness_ModeWrites :
    RunsHere core avCore ∧ Ready core avHome [sref 3] ∧ (core.g.sreg 3).toNat < 256 ∧ RunsHere core avHome ∧
    Ready core (sysAvail 2 false) [sref 3] ∧ (∀ r ∈ core.g.returns, r.kind ≠ .qnt) ∧ Ready core (sysAvail 0 false) [sref 31] ∧
    Ready core (sysAvail 1 false) [sref 3] ∧ (∀ m : Fin 4, Ready core (sysAvail (0x31 + 2 * m) false) [sref 3]) ∧
    (∀ n ∈ [0x80, 0x81, 0x82, 0x83], Ready seqr (sysAvail n false) [sref 3]) :=
  ⟨⟨by decide, by decide⟩, ready (by decide), by decide, ⟨by decide, by decide⟩, ready (by decide), by decide, ready (by decide),
    ready (by decide), fun m => ready (by revert m; decide), fun n h => ready (by revert n; decide)⟩
theorem witness_SystemReads :
    (∀ r ∈ core.g.returns, r.kind ≠ .qnt) ∧ Ready core (sysAvail 2 true) [sref 31] ∧ Ready core (sysAvail 4 true) [vdst 31] ∧
    Ready seqr (sysAvail 0x8D true) [sref 3] ∧ Housed core :=
  ⟨by decide, ready (by decide), ready (by decide), ready (by decide), housed_core⟩
/-- A guest of the core of group 9 on this module. -/
def guestInfo : GuestInfo := { homeNode := 5, homeGid := 9, homeCore := 1023, homeSlot := 63, hops := 1, khandle := 1, seq := 3 }
theorem witness_SystemReadsValues : core.g.guest = none ∧ core.g.kind = .core ∧ (core.modG fun g => { g with guest := some guestInfo }).g.guest.isSome = true :=
  ⟨by decide, by decide, by decide⟩

theorem witness_BranchAndSkipTargets :
    RunsHere core avAll ∧ Ready core avAll [pref 15] ∧ (core.g.kind ≠ .sequencer ∧ Ready core avAll [{ cls := 0, field := 248, n := 3 }]) ∧
    (seqr.g.kind = .sequencer ∧ Ready seqr avAll [sref 30 2] ∧ (seqr.g.sreg 30).getLsbD 0 = false) ∧
    (Ready core avAll [{ cls := 0, field := 0, n := 3, read := true }] ∧ ∀ l ∈ core.batch, (core.g.vval l (core.g.wb l)).getLsbD 0 = false) ∧
    (Ready core avScalar [vsrc 6 2] ∧ ∀ l ∈ core.batch, (core.g.vval l (core.g.phys l 6)).getLsbD 0 = false) ∧
    (Ready seqr avScalar [sref 4 2] ∧ (seqr.g.sreg 4).getLsbD 0 = false) ∧ RunsHere core avCore ∧
    (∃ u, core.passOver 1 = .ok u) :=
  ⟨⟨by decide, by decide⟩, ready (by decide), ⟨by decide, ready (by decide)⟩, ⟨by decide, ready (by decide), by decide⟩,
    ⟨ready (by decide), by decide⟩, ⟨ready (by decide), by decide⟩, ⟨ready (by decide), by decide⟩, ⟨by decide, by decide⟩, ⟨_, rfl⟩⟩

/-- A group with loads under way in LD and S4 held by one. -/
def loading : State := core.modG fun g => { g with ld := 63, returns := [{ id := 7, kind := .load, ctr := some .ld, regs := [{ cls := 1, idx := 4 }] }] }

theorem witness_HintsWaitsAndPrefixes :
    RunsHere core avAll ∧ (RunsHere core avScalar ∧ core.g.kind ≠ .sequencer) ∧ (RunsHere seqr avScalar ∧ seqr.g.kind = .sequencer) ∧
    (core.g.tl ≤ 0 ∧ core.g.cp ≤ 0 ∧ core.g.st ≤ 0 ∧ core.g.ld ≤ 0) ∧ (Ready core avAll [sref 30 2] ∧ Ready cell avAll [sref 4 2] ∧ cell.g.kind = .cellar) ∧
    (RunsHere loading avAll ∧ 62 < loading.g.ld) ∧
    (∃ n, needs loading (.sadd 5 4 31 false) = some n ∧ InFiles loading n ∧ n.first ∧ loading.pendingRefs n.refs = [{ cls := 1, idx := 4 }]) :=
  ⟨⟨by decide, by decide⟩, ⟨⟨by decide, by decide⟩, by decide⟩, ⟨⟨by decide, by decide⟩, by decide⟩, by decide,
    ⟨ready (by decide), ready (by decide), by decide⟩, ⟨⟨by decide, by decide⟩, by decide⟩, _, rfl, in_files (by decide), trivial, by decide⟩

/-- A trap of class U; one of class D, of U without a handler, and one that freezes the context. -/
theorem witness_Traps : HandlerFree trapped ∧ (userClass 0x11 = true ∧ userClass 0xB = false) ∧
    (let s := buffered one
     s.g.kind = .core ∧ s.g.guest = none ∧ s.g.call = none ∧ s.g.handler = 0 ∧ FaultRoom s s.g.die 1 ∧ (s.grid s.tm.grid).trapvec = 0 ∧ s.mem.wf = true ∧
      (s.die s.g.die).waiting = [] ∧ (s.ctx s.g.ctx).phase = .active) :=
  ⟨free_trapped, by decide, by decide, by decide, by decide, by decide, room_at (by decide), by decide⟩
/-- The guest form of the core group; one with eight S registers, so that S8 is the first beyond them; one whose V1 is poisoned. -/
def visitor : State := core.modG fun g => { g with guest := some guestInfo }
def few : State := core.modG fun g => { g with sAlloc := 8 }
def tainted : State := one.modG fun g => { g with v := [(1, { val := 5, pois := true })] }
theorem witness_UnavailableAndRegisterTraps :
    (∃ n, needs core (.nret false) = some n ∧ core.g.guest = none ∧ n.av.runs core.g.kind = false) ∧
    (∃ n, needs visitor (.setfpm 3 false) = some n ∧ visitor.g.guest.isSome = true ∧ n.av.guest = false) ∧
    (∃ n, needs few (.sadd 8 3 3 false) = some n ∧ RunsHere few n.av ∧ ∃ r ∈ n.refs, r.cls ≠ 5 ∧ ∃ x ∈ few.refIdx r, few.allocOf r.cls ≤ x) ∧
    (∃ n pre ps post, needs tainted (.iadd .i32 4 (.v 1 .straight) (.s 3) false) = some n ∧ InFiles tainted n ∧ n.first ∧
      tainted.pendingRefs n.refs = [] ∧ n.reads tainted = pre ++ ps :: post ∧ (∀ x ∈ pre, ∀ e ∈ x, (tainted.g.vlane e.2 e.1).pois = false) ∧
      LowestPoison tainted ps 1 0) :=
  ⟨⟨_, rfl, by decide, by decide⟩, ⟨_, rfl, by decide, by decide⟩, ⟨_, rfl, ⟨by decide, by decide⟩, by decide⟩,
    _, [[]], [(1, 0)], _, rfl, in_files (by decide), trivial, by decide, rfl, by decide,
    by decide, by decide, fun q k h _ => by simp at h; omega⟩
theorem witness_HandlerReturns :
    (let s := inHandler
     s.g.kind = .core ∧ s.g.guest = none ∧ s.g.stores = [] ∧ s.tm.lbad (s.recordAt s.cur.gid) 128 = false ∧ s.g.handler &&& s.cur.mask = s.cur.mask ∧
      fieldAt (mreads s.tm.larder (s.recordAt s.cur.gid) 128) 0 8 % 2 = 0 ∧ fieldAt (mreads s.tm.larder (s.recordAt s.cur.gid) 128) 8 8 % 2 = 0) ∧
    Unmapped inHandler ∧ Unmapped trapped ∧ HandlerFree trapped ∧ trapped.cur.mask ≠ 0 ∧ trapped.tm.lbad (trapped.recordAt trapped.cur.gid) 128 = false :=
  ⟨by decide, no_window (by decide), no_window (by decide), free_trapped, by decide, by decide⟩
theorem witness_SequencerTraps :
    (seqr.g.kind = .sequencer ∧ seqr.g.guest = none ∧ seqr.g.call = none ∧ seqr.g.handler = 0 ∧ seqr.batch = [0] ∧ seqr.g.seq.inHandler = false ∧
      (seqr.modG fun g => { g with seq := { g.seq with stvec := 0x5000 } }).g.seq.stvec ≠ 0) ∧
    (seqHandler.g.kind = .sequencer ∧ seqHandler.batch = [0] ∧ seqHandler.g.seq.inHandler = true ∧ seqHandler.g.seq.stpc.getLsbD 0 = false) := by decide

/-- A core group of one fibre whose V1 and V2 name device memory at 0x3000, whose V3 and V4 are zero, and whose context has a loft window. -/
def mems : State :=
  let s := at_ .core 1 [(1, { val := 0x3000 }), (2, { val := 0xFFFFE000 }), (5, { val := 9 })] [(3, 7)]
  { s with ctxs := [(0, { placeCtx with loft := [(0, (0, 65536))] })], mem := [(0x2000, 0x1F), (0x3000, 7)] }
/-- A cellar group of one fibre. -/
def mailer : State :=
  { at_ .cellar 1 [(1, { val := 8 })] [(3, 0)] with
    memStacks := [(0, { ways := 1 })], cellars := [(0, { gid := 1 })]
    calls := [(1, { gid := 2, tid := 1, cores := 1, started := true, members := [0], msg := List.replicate 0x14 0 ++ leBytes 4 1 })] }

theorem witness_LoadsBegin :
    (mems.g.ld < 63 ∧ mems.g.queuesOps = false ∧ MemoryCanonical mems) ∧
    (∃ as xs, Ready mems avVec [vsrc 1 (addrRegs (mems.poolIdx 0)), vdst 30 2] ∧ mems.formAddrs 1 (mems.poolIdx 0) (mems.immM 31 * 8) 8 false = .ok as ∧
      mems.locateAll as 8 .read = .ok xs ∧ mems.touching xs = [] ∧ (∀ x ∈ xs, x.tgt.isRemote = false) ∧ mems.raceScope mems.cur.gid = none ∧
      L1Room mems mems.cur.gid (2 * xs.length)) ∧
    (∃ as xs zero, Ready mems avCore [vsrc 1 (addrRegs (mems.poolIdx 0)), vdst 30 1, pref 15] ∧ mems.formAddrs 1 (mems.poolIdx 0) 0 4 false = .ok as ∧
      mems.locateProbe 4 as = .ok (xs, zero) ∧ mems.touching xs = [] ∧ (∀ x ∈ xs, x.tgt.isRemote = false) ∧
      L1Room mems mems.cur.gid (2 * xs.length) ∧ ∀ l ∈ zero, l ∈ mems.batch) ∧
    (∃ xs, Ready mems avHomeCellar [vsrc 3, vdst 4 2] ∧ mems.g.kind = .core ∧ mems.larderLanes 3 (mems.immML 0x3FF * 8) 8 = .ok xs) ∧
    (∃ xs, Ready mailer avHomeCellar [vsrc 1, vdst 4 2] ∧ mailer.g.kind = .cellar ∧ mailer.larderLanes 1 (mailer.immML 1 * 8) 8 = .ok xs) ∧
    (∃ xs, Ready mems avHomeCellar [vsrc 3, vdst 4] ∧ mems.larderLanes 3 0 4 = .ok xs) ∧
    (∃ xs, Ready mems avHome [vsrc 3, vdst 4 2] ∧ mems.loftLanes 3 (mems.immML 1 * 8) 8 = .ok xs) ∧ Unmapped mems :=
  ⟨⟨by decide, by decide, canon_of (by decide)⟩, ⟨_, _, ready (by decide), rfl, rfl, by decide, by decide, by decide, room_of (by decide)⟩,
    ⟨_, _, _, ready (by decide), rfl, rfl, by decide, by decide, room_of (by decide), by decide⟩,
    ⟨_, ready (by decide), by decide, rfl⟩, ⟨_, ready (by decide), by decide, rfl⟩, ⟨_, ready (by decide), rfl⟩, ⟨_, ready (by decide), rfl⟩,
    no_window (by decide)⟩

theorem witness_StoresBegin :
    mems.g.st < 63 ∧
    (∃ as xs, Ready mems avVec [vsrc 1 (addrRegs (mems.poolIdx 0)), vsrc 4 1] ∧ mems.formAddrs 1 (mems.poolIdx 0) (mems.immM 0 * 4) 4 true = .ok as ∧
      mems.locateAll as 4 .write = .ok xs ∧ mems.touching xs = [] ∧ mems.raceScope mems.cur.gid = none) ∧
    (∃ xs, Ready mems avHomeCellar [vsrc 3, vsrc 4 2] ∧ mems.larderLanes 3 (mems.immML 0x3FF * 8) 8 = .ok xs) ∧
    (∃ xs, Ready mailer avHomeCellar [vsrc 1, vsrc 4] ∧ mailer.g.kind ≠ .core ∧ mailer.larderLanes 1 0 4 = .ok xs) ∧
    (∃ xs, Ready mems avHome [vsrc 3, vsrc 4 2] ∧ mems.loftLanes 3 (mems.immML 1 * 8) 8 = .ok xs) ∧ Unmapped mems :=
  ⟨by decide, ⟨_, _, ready (by decide), rfl, rfl, by decide, by decide⟩, ⟨_, ready (by decide), rfl⟩, ⟨_, ready (by decide), by decide, rfl⟩,
    ⟨_, ready (by decide), rfl⟩, no_window (by decide)⟩

theorem witness_AtomicsBegin : ∃ op av v p r d as xs, atomOf (.atomxCas 5 0 1 7 false) = some (op, av, v, p, r, d) ∧
    Ready mems av ([vsrc r (addrRegs (mems.poolIdx p)), vsrc v 2] ++ [vdst d 1]) ∧ mems.g.ctr .ld < 63 ∧ NoAcquire mems ∧
    mems.formAddrs r (mems.poolIdx p) 0 4 true = .ok as ∧ mems.locateAll as 4 .write = .ok xs ∧ mems.touching xs = [] ∧
    ∀ x ∈ xs, x.tgt.isRemote = false :=
  ⟨_, _, _, _, _, _, _, _, rfl, ready (by decide), by decide, by unfold NoAcquire; decide, rfl, rfl, by decide, by decide⟩

theorem witness_BankOperationsBegin : ∃ op c a b xs, lopOf (.lopXchr 5 3 7 false) = some (op, c, b, a) ∧
    Ready mems avHome [vsrc b, vsrc 5, vdst 7] ∧ mems.g.ctr .ld < 63 ∧ NoAcquire mems ∧ mems.loftLanes b 0 (lopBytes op) = .ok xs :=
  ⟨_, _, _, _, _, rfl, ready (by decide), by decide, by unfold NoAcquire; decide, rfl⟩

/-- V1 and V2 hold the offsets 1, not aligned, and 65536, the first beyond the larder, V3 zero; larder line 0 lies in a read-only window. -/
def offsets : State :=
  let s := at_ .core 1 [(1, { val := 1 }), (2, { val := 65536 })] []
  { s with teams := [(1, { s.tm with lmap := [(0, { a := 0x800 })] })] }
/-- A core group whose V1 and V2 name 0x3001, V5 holds 64, V6 one; pool record 1 of its launch has 64 bytes from 0x3000, record 2 is read-only; pages may not
be written. -/
def pooled (leaf : Byte) : State :=
  let s := at_ .core 1 [(1, { val := 0x3001 }), (2, { val := 0xFFFFE000 }), (5, { val := 64 }), (6, { val := 1 }), (8, { val := 0x3000 }), (9, { val := 0xFFFFE000 })] []
  { s with grids := [(1, { teams := 1, launch := padTo 0xB8 (List.replicate 0x88 0 ++ leBytes 8 0xFFFFE00000006000) ++ leBytes 4 3 })]
           dies := [(0, { fbbase := 0x20001 })]
           mem := (0x2000, leaf) :: cellsAt 0x6020 (record [(8, 0xFFFFE00000003000), (8, 64), (16, 0), (8, 0xFFFFE00000003000), (8, 64), (16, 1)]) }
/-- A page was found refused. -/
def protB (x : Xl) : Bool := match x with | .prot u => !u | _ => false
theorem prot_of {x : Xl} (h : protB x = true) : x = .prot false := by
  cases x with
  | prot u => cases u with
    | false => rfl
    | true => cases h
  | _ => cases h

/-- Which address a refused record would report does not matter to one that is there. -/
theorem pool_any {s : State} {n : Nat} {p : Pool} (h : (match s.poolRec n fun _ => 0 with | .ok q => decide (q = p) | .error _ => false) = true) (a : Nat → Nat) :
    s.poolRec n a = .ok p := by
  cases hq : s.poolRec n fun _ => 0 with
  | error => simp [hq] at h
  | ok q =>
    obtain rfl : q = p := by simpa [hq] using h
    unfold State.poolRec at hq ⊢
    split at hq
    · exact hq
    · split at hq
      · cases hq
      · split at hq
        · cases hq
        · rename_i hc hn
          rw [if_neg ‹_›, if_neg hn]
          split at hq
          · cases hq
          · split at hq
            · cases hq
            · rename_i hk; rw [if_neg hk]; exact hq

/-- A page was not found. -/
def replayB (x : Xl) (r k : Nat) : Bool := match x with | .replay a b => a == r && b == k | _ => false
theorem replay_of {x : Xl} {r k : Nat} (h : replayB x r k = true) : x = .replay r k := by
  cases x with
  | replay a b => simp only [replayB, Bool.and_eq_true, beq_iff_eq] at h; rw [h.1, h.2]
  | _ => cases h

theorem witness_AddressChecksTrap :
    (∃ f g h, offsetForm offsets (.ldl .b32 0 1 4 false) = some f ∧ offsetForm offsets (.stlC16 2 4) = some g ∧
      offsetForm offsets (.stl .b64 0 3 4 false) = some h ∧ Ready offsets f.av f.refs ∧ Ready offsets g.av g.refs ∧ Ready offsets h.av h.refs ∧
      offsets.g.ctr .ld < 63 ∧ offsets.g.ctr .st < 63 ∧ (offsets.g.kind = .cellar ↔ offsets.g.call.isSome = true) ∧
      FirstLane offsets (fun l => (((offsets.g.vval l (offsets.g.phys l 1)).toNat : Int) + f.disp) % 4 ≠ 0) 0 ∧
      FirstLane offsets (fun l => ¬ (0 ≤ ((offsets.g.vval l (offsets.g.phys l 2)).toNat : Int) + g.disp ∧
        ((offsets.g.vval l (offsets.g.phys l 2)).toNat : Int) + g.disp + 4 ≤ g.limit)) 0 ∧
      (0 + 8 : Int) ≤ h.limit ∧ ∃ w, offsets.tm.window 0 = some w ∧ w.2.wb = false) ∧
    (∃ f, offsetForm mailer (.ldl .b64 1 1 4 false) = some f ∧ Ready mailer f.av f.refs ∧ f.limit = 65536 ∧ (mailer.g.kind = .cellar ↔ mailer.g.call.isSome = true)) ∧
    (∃ f, offsetForm mems (.sto .b32 0 3 4 false) = some f ∧ Ready mems f.av f.refs ∧ f.limit = 65536) ∧
    (let s := pooled 0x1F
     (∃ f, globalForm s (.ldg .b32 0 0 1 4 false) = some f ∧ Ready s f.av f.refs ∧ s.g.ctr f.ctr < 63 ∧ f.pool = 0 ∧
        FirstLane s (fun l => ((s.g.vpair l (s.g.phys l f.reg)).toNat + f.disp) % 2 ^ 64 % 4 ≠ 0) 0) ∧
      (∃ f, globalForm s (.stg .b32 0 3 5 4 false) = some f ∧ Ready s f.av f.refs ∧ s.g.ctr f.ctr < 63 ∧ f.pool ≠ 0 ∧ s.g.call = none ∧ s.foreign = false ∧
        s.launch.fld 0xB8 4 ≤ f.pool) ∧
      (∃ f p, globalForm s (.stg .b32 0 2 5 4 false) = some f ∧ Ready s f.av f.refs ∧ f.pool ≠ 0 ∧ s.batch ≠ [] ∧ (∀ a, s.poolRec f.pool a = .ok p) ∧
        p.ro = true ∧ f.write = true) ∧
      (∃ f p, globalForm s (.ldp .b32 1 1 6 4 false) = some f ∧ Ready s f.av f.refs ∧ f.pool ≠ 0 ∧ (∀ a, s.poolRec f.pool a = .ok p) ∧
        ¬ (p.ro = true ∧ f.write = true) ∧ FirstLane s (fun l => (p.base + (s.g.vval l (s.g.phys l f.reg)).toNat + f.disp) % 2 ^ 64 % 4 ≠ 0) 0) ∧
      (∃ f p, globalForm s (.stg .b32 0 1 5 4 false) = some f ∧ Ready s f.av f.refs ∧ f.pool ≠ 0 ∧ (∀ a, s.poolRec f.pool a = .ok p) ∧
        ¬ (p.ro = true ∧ f.write = true) ∧ (∀ k ∈ s.batch, (p.base + (s.g.vval k (s.g.phys k f.reg)).toNat + f.disp) % 2 ^ 64 % 4 = 0) ∧
        FirstLane s (fun l => p.size < (s.g.vval l (s.g.phys l f.reg)).toNat + f.disp + 4) 0)) ∧
    (∃ f va, globalForm (pooled 0x1B) (.stg .b32 0 0 8 4 false) = some f ∧
      (pooled 0x1B).formAddrs f.reg f.pool f.disp 4 f.write = .ok ([] ++ (0, va) :: []) ∧ (pooled 0x1B).g.call = none ∧ (pooled 0x1B).g.kind = .core ∧
      (pooled 0x1B).isLocal va = true ∧
      (pooled 0x1B).xlateSince 0 0 va .write true ((pooled 0x1B).stallStart 1 0 va) (pooled 0x1B).g.tlbCore = .prot false) ∧
    (∃ f va, globalForm (pooled 0) (.ldg .b32 0 0 8 4 false) = some f ∧
      (pooled 0).formAddrs f.reg f.pool f.disp 4 f.write = .ok ([] ++ (0, va) :: []) ∧ f.replays = true ∧
      ∃ r k, (pooled 0).xlateSince 0 0 va .read true ((pooled 0).stallStart 1 0 va) (pooled 0).g.tlbCore = .replay r k) := by
  refine ⟨⟨_, _, _, rfl, rfl, rfl, ready (by decide), ready (by decide), ready (by decide), by decide, by decide, by decide, by unfold FirstLane; decide,
      by unfold FirstLane; decide, by decide, _, rfl, by decide⟩, ⟨_, rfl, ready (by decide), by decide, by decide⟩, ⟨_, rfl, ready (by decide), by decide⟩,
    ⟨⟨_, rfl, ready (by decide), by decide, rfl, by unfold FirstLane; decide⟩, ⟨_, rfl, ready (by decide), by decide, by decide, by decide, by decide, by decide +kernel⟩,
      ⟨_, { base := 0xFFFFE00000003000, size := 64, ro := true }, rfl, ready (by decide), by decide, by decide, pool_any (by decide +kernel), rfl, rfl⟩,
      ⟨_, { base := 0xFFFFE00000003000, size := 64, ro := false }, rfl, ready (by decide), by decide, pool_any (by decide +kernel), by decide,
        by unfold FirstLane; decide +kernel⟩,
      ⟨_, { base := 0xFFFFE00000003000, size := 64, ro := false }, rfl, ready (by decide), by decide, pool_any (by decide +kernel), by decide,
        by decide +kernel, by unfold FirstLane; decide +kernel⟩⟩,
    ⟨_, _, rfl, rfl, by decide, by decide, by decide, prot_of (by decide +kernel)⟩, _, _, rfl, rfl, rfl, 1, 1, replay_of (by decide +kernel)⟩

theorem witness_ReturnsLand :
    let r : Return := { id := 7, kind := .load, ctr := some .ld, lanes := [{ lane := 0, ready := true, ws := [.v 0 4 { val := 42, pois := true }] }] }
    let x : LaneRet := { lane := 0, ready := true, ws := [.v 0 4 { val := 42, pois := true }] }
    thas returning.groups 1 = true ∧ (returning.grp 1).ret? 7 = some r ∧ r.kind ≠ .waitw ∧ r.stall = false ∧
      (r.lanes.find? fun x => x.lane == 0) = some x ∧ x.ready = true ∧ x.ws = vWrites 0 4 true [42] ∧ ((returning.grp 1).fib 0).life ≠ .free ∧
      4 + [(42 : Word)].length ≤ 256 ∧ (∀ y ∈ r.lanes, y.lane = 0) ∧ r.left = 0 := by decide

/-- The queued store. -/
def headOp (x : Target) (a : Action) : StoreOp := { ret := 7, lane := 0, dst := 256, tgt := x, act := a }
/-- The state with one queued store is canonical, and its core's L1 has room. -/
theorem storing_canon (x : Target) (a : Action) : MemoryCanonical (storing x a) ∧ L1Room (storing x a) 1 2 :=
  ⟨⟨rfl, rfl, rfl, rfl, rfl, rfl, rfl, rfl⟩, room_of (by show 0 + 2 ≤ l1Capacity; decide)⟩
theorem witness_StoresPerform :
    (∀ x ∈ [Target.larder 0, .scratch 15 0, .loft 7 0, .host 0, .dev 0x3000 0, .dev 0x3000 2, .dev 0x3000 3],
      let s := storing x (.bytes [1, 2, 3, 4])
      thas s.groups 1 = true ∧ (s.grp 1).stores = [headOp x (.bytes [1, 2, 3, 4])] ∧ s.placeOpen 1 (headOp x (.bytes [1, 2, 3, 4])) = true ∧
        State.placeOpen { s with down := [.ucie 2] } 1 (headOp (.dev 0x7000000000 2) (.bytes [1])) = false ∧ (s.grp 1).hasL1 = true ∧
        ((s.grp 1).ret? 7).map (·.neg) = some []) ∧
    ∀ x a, MemoryCanonical (storing x a) ∧ L1Room (storing x a) 1 2 := ⟨by decide, storing_canon⟩
theorem witness_AtomicsPerform :
    (∀ pol ∈ [0, 2, 3],
      let o := headOp (.dev 0x3000 pol) (.atom .add false 5 0)
      let s := storing o.tgt o.act
      thas s.groups 1 = true ∧ (s.grp 1).stores = [o] ∧ s.placeOpen 1 o = true ∧ o.order = .plain ∧ ((s.grp 1).ret? 7).map (·.neg) = some [] ∧
        (s.l1Flush (s.grp 1).place (0x3000 / 256)).homePoison 0x3000 4 = false) ∧
    ∀ x a, MemoryCanonical (storing x a) ∧ L1Room (storing x a) 1 2 := ⟨by decide, storing_canon⟩
/-- A dirty byte in core 1023's L1; an entry of core 0's write-combining buffer that has aged 1000 ns. -/
def buffers : State :=
  { one with now := 5000, cores := [(1023, { l1 := [(0x3001, { val := 9, dirty := true, va := 0xFFFFE00000003001 })] }),
                                    (0, { wc := [{ line := 0x30, cells := [(0, 1)], ctx := 0, age := 1000, opened := 0 }] })] }
theorem witness_BuffersDrain :
    MemoryCanonical buffers ∧ (∀ x ∈ (buffers.core 1023).l1, buffers.l1Fate 1023 false x.1 x.2 = .goes) ∧ ((buffers.core 1023).l1.map (·.1)).Nodup ∧ (buffers.core 0).wc = [{ line := 0x30, cells := [(0, 1)], ctx := 0, age := 1000, opened := 0 }] ∧
      0 + 4 * 1000 < buffers.now := ⟨canon_of (by decide), by decide +kernel, by decide⟩

theorem witness_TileMoves : Housed one ∧ Ready one avHome [tref 7, vdst 24 8] ∧ Ready one avHome [{ cls := 0, field := 1, n := 8 }, tref 0] ∧
    (∀ r ∈ one.tileRows, ∀ w, w < 8 → (one.g.vlane r.2 (one.g.phys r.2 1 + w)).pois = false) ∧ Ready one avHome [tref 0, tref 7] ∧ Ready one avHome [tref 7] :=
  ⟨housed_one, ready (by decide), ready (by decide), by decide, ready (by decide), ready (by decide)⟩
theorem witness_TileTransfersBegin :
    mems.g.tl < 63 ∧ mems.g.queuesOps = false ∧ Unmapped mems ∧ Ready mems avHome [vsrc 3, tref 7] ∧
    (∃ xs, mems.rowAccs true (mems.poolIdx 0) (mems.immM 0 * 32) 3 false = .ok xs) ∧ mems.tm.larderPoison = [] ∧
    (∃ xs, mems.rowAccs true (mems.poolIdx 0) (mems.immM 0 * 32) 3 true = .ok xs) :=
  ⟨by decide, by decide, no_window (by decide), ready (by decide), ⟨_, rfl⟩, by decide, ⟨_, rfl⟩⟩

/-- One group of a kind whose team claims bins 0 to 3 and 127; slot 0 is I8, slot 7 Q8; S3 and S4 are 0, S5 to S7 resume the operation placed at
0x1000: MMA on slot 0, bins 0 and 1, Z0. -/
def array (k : Kind) : State :=
  let s := at_ k 1 [(1, { val := 5 })] [(5, 0x80000000), (6, 0x1000), (7, 0xFFFFE000)]
  { s with teams := [(1, { s.tm with claimed := [0, 1, 2, 3, 127], queues := [(7, [{ val := 9, by_ := 1 }])] })]
           grids := [(1, { teams := 1, slots := leBytes 64 5 ++ List.replicate 384 0 ++ leBytes 64 7 })]
           mem := (0x2000, 0x1F) :: cellsAt 0x1000 (leBytes 4 0b0000_000_0000001_0000000_000_101100_0_1) }
/-- The sequencer's operation stopped at its first step. -/
def stoppedOp : State := (array .sequencer).modG fun g => { g with seq := { g.seq with stopped := some { id := 20, gid := 1, ret := 21, kind := .mma 0 0 0 1 0 } } }

/-- Four bins are free from bin 4 on; 121 are not, since bin 127 is claimed. -/
theorem witness_BinInstructions :
    let s := array .core
    Ready s avHomeSeq [sref 31] ∧ (∃ n, 8 ≤ s.tm.binQuota ∧ s.tm.freeRun 8 = some n) ∧ s.g.tl < 63 ∧ s.g.kind ≠ .sequencer ∧
      (∀ n, n < 4 → s.tm.owns ((s.g.sreg 3).toNat + n) = true) ∧
      (State.modT s fun t => { t with binQuota := 8, claimed := [0] }).tm.freeRun 8 = none :=
  ⟨ready (by decide), ⟨4, by decide, by decide⟩, by decide, by decide, by decide, by decide⟩
theorem witness_MatrixOperationsIssue :
    (∀ k ∈ [Kind.core, .sequencer], Ready (array k) avHomeSeq [zref 7]) ∧ (∀ k ∈ [Kind.core, .sequencer], (array k).g.tl < 63) ∧
    (∀ k ∈ [Kind.core, .sequencer], (array k).checkHeld = .ok () ∧ (array k).checkBins (mmaBins (mshape ((array k).slotBytes 0)) 0 127) = .ok () ∧
      (array k).checkBins (mmaBins (mshape ((array k).slotBytes 7)) 0 2) = .ok ()) ∧
    (∀ m ∈ [0, 1, 2, 3, 6], (array .sequencer).checkSlot 0 (minorTakes m) = .ok () ∧
      (array .sequencer).checkMmas (mshape ((array .sequencer).slotBytes 0)) ⟨m, 0, 0, 127, 7⟩ = .ok ()) ∧
    (∀ m ∈ [2, 3, 4, 5], (array .sequencer).checkSlot 7 (minorTakes m) = .ok () ∧
      (array .sequencer).checkMmas (mshape ((array .sequencer).slotBytes 7)) ⟨m, 7, 0, 2, 7⟩ = .ok ()) := by
  refine ⟨fun k h => ready (by revert k; decide +kernel), by decide +kernel, fun k h => ⟨?_, ?_, ?_⟩, fun m h => ⟨?_, ?_⟩, fun m h => ⟨?_, ?_⟩⟩ <;>
    exact ok_of (by first | (revert k; decide +kernel) | (revert m; decide +kernel))
/-- Offset 31744 is the last at which a tile of 1024 bytes fits, 24800 the last at which its rows fit. -/
theorem witness_ArrayTransfersIssue :
    let s (o : Word) := (array .core).modG fun g => g.ssets 4 [o]
    (s 31744).g.tl < 63 ∧ okB (s 31744).checkHeld = true ∧ Ready (s 31744) avHome [sref 3, sref 4, tref 7] ∧ Ready (s 31744) avHomeSeq [sref 3, zref 7] ∧
      (s 31744).tm.owns 0 = true ∧ (s 31744).tm.owns 1 = true ∧ ((s 31744).g.sreg 4).toNat + 1024 ≤ 32768 ∧ ((s 24800).g.sreg 4).toNat % 32 = 0 ∧
      ((s 24800).g.sreg 4).toNat + 7968 ≤ 32768 ∧ zldBad ((s 0).cluster (s 0).g.cluster) 0 = none :=
  ⟨by decide, by decide, ready (by decide), ready (by decide), by decide, by decide, by decide, by decide, by decide, by decide +kernel⟩
theorem witness_AccumulatorReadsAndResumes :
    (mems.g.width ≠ 64 ∧ Ready mems avHome [sref 30 2, zref 7, vdst 28 4] ∧ mems.g.tl < 63) ∧ Ready seqr avHomeSeq [sref 31] ∧
    (Ready seqr avSeq [sref 28 4] ∧ seqr.g.seq.stopped = none) ∧
    (Ready stoppedOp avSeq [sref 5 4] ∧ ∃ o k x, stoppedOp.g.seq.stopped = some o ∧ o.kind.mma? = some k ∧ stoppedOp.mresOp 5 = .ok x) ∧
    (let s := array .sequencer
     Ready s avSeq [sref 5 4] ∧ s.g.seq.stopped = none ∧ s.g.tl < 63 ∧ s.checkHeld = .ok () ∧ ∃ x, s.mresOp 5 = .ok x) :=
  ⟨⟨by decide, ready (by decide), by decide⟩, ready (by decide), ⟨ready (by decide), by decide⟩, ⟨ready (by decide), _, _, _, rfl, rfl, rfl⟩,
    ready (by decide), by decide, by decide, ok_of (by decide), _, rfl⟩
theorem witness_QueueInstructions :
    (Ready (array .core) avHomeSeq [sref 3, qref 0] ∧ Drained (array .core) ∧ ((array .core).tm.queue 0).length < 32) ∧
    (Ready (array .core) avHome [vsrc 1, qref 7] ∧ (array .core).batch.length ≤ 32 ∧ ((array .core).tm.queue 7).length + (array .core).batch.length ≤ 32) ∧
    ((array .core).g.kind = .core ∧ Ready (array .core) avHomeSeq [qref 7, sref 31] ∧ (array .core).g.ld < 63 ∧
      takeable ((array .core).tm.queue 7) = [0] ∧ ((array .core).tm.queue 7)[0]? = some { val := 9, by_ := 1 }) ∧
    ((array .sequencer).g.kind = .sequencer ∧ Ready (array .sequencer) avHomeSeq [qref 7, sref 31] ∧ takeable ((array .sequencer).tm.queue 7) = [0]) ∧
    (Ready (array .core) avHomeSeq [qref 7, sref 31, pref 15] ∧ Ready (array .core) avHomeSeq [qref 0, sref 31, pref 15] ∧
      takeable ((array .core).tm.queue 0) = []) ∧ (array .core).checkSlot 7 (fun _ => true) = .ok () :=
  ⟨⟨ready (by decide), by decide⟩, ⟨ready (by decide), by decide⟩, ⟨by decide, ready (by decide), by decide⟩, ⟨by decide, ready (by decide), by decide⟩,
    ⟨ready (by decide), ready (by decide), by decide⟩, rfl⟩
/-- A lane of zeros has codes for all its elements; 2^31 with a zero scale has none, and the slot's list holds no entry. -/
theorem witness_QuantResults :
    let s := array .core
    let t := s.modG fun g => { g with v := [(8, { val := 0x4F000000 }), (1, { val := 0x3F80 })] }
    Housed s ∧ s.batch ≠ [] ∧ s.checkSlot 7 takesQ = .ok () ∧ s.g.st < 63 ∧
      Ready s avVec [vsrc 8 (s.slotFmt 7).elems, vsrc 1, { cls := 1, field := 15 }, vdst 31] ∧
      Ready s avVec ([vsrc 2, vsrc 1] ++ [vdst 28 (s.slotFmt 7).elems]) ∧ s.qntGranted (s.slotBytes 7) = .ok () ∧
      (t.quantBatch (t.slotFmt 7) (t.slotBytes 7) (t.g.sreg 15) 1 16).outs = [] ∧
      (t.quantBatch (t.slotFmt 7) (t.slotBytes 7) (t.g.sreg 15) 1 8).outs ≠ [] ∧ slotCap (t.slotBytes 7) = 0 :=
  ⟨⟨by decide, by decide, by decide⟩, by decide, rfl, by decide, ready (by decide), ready (by decide), rfl, by decide +kernel, by decide +kernel, by decide⟩

/-- Cluster 0's array with operations that wait and one that runs. -/
def arrayOps (ops : List MatOp) (run : Option MatOp) : State :=
  { array .core with cur := {}, clusters := [(0, { ops := ops, running := run, bins := [(5, 1)] })] }
/-- A matrix operation of group 1 on slot 0. -/
def mmaOp : MatOp := { id := 20, gid := 1, ret := 21, kind := .mma 0 0 0 1 0 }
/-- A sequencer context between instructions whose trap is due. -/
def seqDue : State :=
  { (array .sequencer).modG fun g => { g with seq := { g.seq with stvec := 0x5000, due := some (tMMETA, 0x55, 0x1000) } } with cur := {} }
/-- A core group between instructions with poison due. -/
def poisonDue : State := { (array .core).modG fun g => { g with poisonDue := some (0x20, 0x1000) } with cur := {} }

theorem witness_ArrayEvents :
    ((arrayOps [mmaOp] none).cluster 0).running = none ∧ (arrayOps [mmaOp] none).nextOp 0 = some mmaOp ∧ minorZ 0 = false ∧
    (let s := arrayOps [] (some mmaOp)
     let slot := sliceAt (s.grid (s.team (s.grp mmaOp.gid).tid).grid).slots 0 64
     (s.team (s.grp mmaOp.gid).tid).zStops ⟨0, 0, 0, 1, 0⟩ 0 0 0 = [] ∧ (s.cluster 0).stopsAt (mshape slot) ⟨0, 0, 0, 1, 0⟩ 0 0 0 ((s.grp mmaOp.gid).kind == .sequencer) = [] ∧ 0 + 1 < (mshape slot).units) ∧
    (let o : MatOp := { id := 20, gid := 1, ret := 21, kind := .release 127 1 }
     ((arrayOps [o] none).nextOp 0 = some o ∧ ((arrayOps [o] none).cluster 0).bins.wf = true)) ∧
    (let s := array .core
     thas s.teams 1 = true ∧ (∀ x ∈ s.groups, x.2.tid = 1 → s.agentOps x.1 = []) ∧ (s.team 1).savedRun = none ∧ (s.team 1).savedOps = []) ∧
    (let s := seqDue
     (s.grp 1).kind = .sequencer ∧ (s.grp 1).guest = none ∧ (s.grp 1).call = none ∧ (s.grp 1).seq.inHandler = false ∧ (s.grp 1).handler = 0 ∧
      (s.grp 1).seq.stvec ≠ 0 ∧ s.cur.gid ≠ 1 ∧ s.stopped 1 = false ∧ (s.grp 1).liveLanes = [0] ∧ (s.grp 1).seq.due = some (tMMETA, 0x55, 0x1000)) ∧
    (let s := poisonDue
     (s.grp 1).kind = .core ∧ (s.grp 1).guest = none ∧ (s.grp 1).call = none ∧ (s.grp 1).handler = 0 ∧ s.cur.gid ≠ 1 ∧ s.stopped 1 = false ∧
      (s.nextBatch 1).1 ≠ 0 ∧ (s.grp 1).poisonDue = some (0x20, 0x1000)) := by
  refine ⟨by decide, by decide +kernel, by decide, by decide +kernel, by decide +kernel, by decide +kernel, by decide +kernel, by decide +kernel⟩

/-- The same group with a dirty byte of die 3 in its core's L1 while the link to that die is down. -/
def stranded : State := { mems with cores := [(0, { l1 := [(0x7000000000, { val := 1, dirty := true, va := 0xFFFFE07000000000 })] })], down := [.ucie 2] }
theorem witness_FencesComplete : RunsHere mems avCore ∧ Scope.beyond .team = false ∧ Scope.beyond .system = true ∧ Drained mems ∧
    (∀ k ∈ [Scope.cluster, .die, .module, .system],
      let u := mems.releaseCore mems.g.place k
      (u.l1Dirty mems.g.place fun _ _ => true) = false ∧ u.coreWaits mems.g.place = false) ∧
    (RunsHere stranded avCore ∧ Drained stranded ∧ ((stranded.releaseCore 0 .module).l1Dirty 0 fun _ _ => true) = true ∧ stranded.g.place = 0 ∧
      thas stranded.groups stranded.cur.gid = true) :=
  ⟨⟨by decide, by decide⟩, by decide, by decide, by decide, by decide +kernel, ⟨by decide, by decide⟩, by decide +kernel⟩

theorem witness_DrainsComplete :
    (Drained mems ∧ RunsHere mems avHome ∧ mems.g.st < 63 ∧ (∀ r ∈ mems.g.returns, r.id ≠ mems.nextId) ∧ (mems.core mems.g.place).wc = []) ∧
    (Drained buffers ∧ RunsHere buffers avHome ∧ (buffers.core buffers.g.place).wc = [{ line := 0x30, cells := [(0, 1)], ctx := 0, age := 1000, opened := 0 }]) ∧
    (Ready mems avHome [sref 30 2, sref 3] ∧ mems.g.sreg 3 ≠ 0 ∧ mems.g.sreg 0 = 0 ∧ (∀ m, (tget {} mems.tm.lmap m).dirty = []) ∧
      ((mems.core mems.g.place).l1.map (·.1)).Nodup ∧ MemoryCanonical mems ∧ (mems.l1BackAll mems.g.place).l1Dirty mems.g.place (fun _ _ => true) = false) ∧
    (let s := stranded
     let lines := (s.core 0).l1Lines.filter (s.rangeLine 0 s.g.ctx 0xFFFFE07000000000 7)
     let mine := fun (p : Nat) (_ : L1Byte) => lines.contains (p / 256)
     lines ≠ [] ∧ (s.l1Back 0 mine).l1Dirty 0 mine = true ∧ MemoryCanonical s) ∧
    (∀ m ∈ [(0 : BitVec 2), 3], Ready mems (sysAvail (0x30 + 2 * m.toNat) false) [sref 4] ∧ (tget {} mems.tm.lmap m.toNat).dirty = [] ∧
      LWindow.len { a := mems.g.sreg 4 &&& 0x803FFFFF, b := (tget {} mems.tm.lmap m.toNat).b } = 0) :=
  ⟨⟨by decide, ⟨by decide, by decide⟩, by decide, by decide, by decide⟩, ⟨by decide, ⟨by decide, by decide⟩, by decide⟩,
    ⟨ready (by decide), by decide, by decide, fun _ => rfl, by decide, canon_of (by decide), by decide +kernel⟩,
    ⟨by decide +kernel, by decide +kernel, canon_of (by decide)⟩, fun m h => ⟨ready (by revert m; decide), by revert m; decide, by revert m; decide⟩⟩

/-- A core group of one fibre whose V5 is a larder slot of 16 and whose team watches the word at 0x3000 there; a push waits. -/
def watcher (subs : List Sub) : State :=
  let s := at_ .core 1 [(1, { val := 0x3000 }), (2, { val := 0xFFFFE000 }), (5, { val := 16 })] [(3, 7)]
  { s with teams := [(1, { s.tm with subs := subs })], pushes := [{ tid := 1, slot := 16, q := 1, val := 7 }] }
/-- The subscription of that slot. -/
def subAt : Sub := { slot := 16, va := 0xFFFFE00000003000, live := true }

theorem witness_Watches :
    (let s := watcher []
     let xs := s.batch.map fun l => (l, (s.g.vval l (s.g.phys l 5)).toNat)
     s.g.ld < 63 ∧ Ready s avHome [vsrc 5, vsrc 1 2, pref 15] ∧ Drained s ∧ (∀ l ∈ s.batch, (s.g.vval l (s.g.phys l 5)).toNat % 16 = 0) ∧
      (∀ l ∈ s.batch, (s.g.vpair l (s.g.phys l 1)).toNat % 8 = 0) ∧ s.checkSlots xs true = .ok () ∧ s.checkFreeSlots xs = .ok () ∧
      (∃ x pa pol, s.locateAll (s.batch.map fun l => (l, (s.g.vpair l (s.g.phys l 1)).toNat)) 8 .read = .ok [x] ∧ x.tgt = .dev pa pol ∧
        s.cutTo s.g.die x.tgt = false ∧ pteBit x.pte 10 = false ∧ s.pegRoom pa = true) ∧ s.batch = [0] ∧ s.coreSubs s.g.place < 512 ∧ s.tm.larder.wf = true ∧
      (∀ r ∈ s.g.returns, r.id ≠ s.nextId) ∧ s.batch ≠ [] ∧ (∀ l ∈ s.batch, s.tm.sub? (s.g.vval l (s.g.phys l 5)).toNat = none) ∧
      Ready s avHome [vsrc 5, vsrc 3, vdst 28 4] ∧ Unmapped s ∧ s.checkSlots xs false = .ok ()) ∧
    (let s := watcher [subAt]
     Ready s avHome [vsrc 5] ∧ s.batch = [0] ∧ s.tm.sub? (s.g.vval 0 (s.g.phys 0 5)).toNat = some subAt ∧ subAt.live = true ∧ subAt.remote = false ∧
      subAt.ending = [] ∧ s.pushes[0]? = some { tid := 1, slot := 16, q := 1, val := 7 } ∧ thas s.teams 1 = true ∧ (s.team 1).phase = .resident ∧
      (s.team 1).larder.wf = true ∧ (s.teams.map (·.1)).Nodup ∧ ∀ x ∈ s.teams, (x.2.subs.map (·.slot)).Nodup) :=
  ⟨⟨by decide, ready (by decide), by decide, by decide, by decide, rfl, rfl, ⟨_, _, _, rfl, rfl, by decide, by decide, by decide⟩, by decide, by decide, by decide,
    by decide, by decide, by decide, ready (by decide), no_window (by decide), rfl⟩, ⟨ready (by decide), by decide⟩⟩

/-- The bytes of a context descriptor: page table at 0x2000, swap area at 0x100000, tables of one entry at 0x6000 to 0xC000, key 0x77, a permitted
range that holds every local address; aggregation entries and swap bytes as given. -/
def descOf (agg swap : Nat) : List Byte :=
  padTo 256 (record [(8, 0x2000), (8, 0x100000), (8, swap), (8, 0), (4, 0), (4, agg), (8, if agg = 0 then 0 else 0x9000), (8, 0x6000), (8, 0x8000), (8, 0xA000),
    (8, 0xC000), (2, 1), (2, 1), (2, 1), (2, 1), (2, 0x77), (6, 0), (8, 0), (8, 2 ^ 45)])
/-- Module n with that context, one enabled port, a group of nodes 1 and 2, and a core group whose S registers name group 0, line 0x3000, larder lines
0 and 0x100. -/
def peer (n : BitVec 19) : State :=
  let s := at_ .core 1 [(1, { val := 0x3000 }), (2, { val := 0x8000 })] [(10, 0x3000), (11, 0x8000), (13, 0x100)]
  { s with nodeid := n, porten := 1, ctxs := [(0, { phase := .active, desc := descOf 0 0 })]
           mem := [(0x2000, 0x1F), (0x8002, 2), (0x8020, 1), (0x8024, 2), (0xA030, 2)] }
/-- The decidable part of what MCST's statement asks of that state. -/
def mcstB (s : State) : Bool :=
  decide (Drained s) && decide (s.g.st < 63) && decide (preOrder s.cur.pre = .plain) && !s.routeHeld && decide (s.g.returns = []) && s.tm.larder.wf &&
    decide ((s.g.sreg 8).toNat = 0) && decide (s.groupRecord s.g.ctx 0 = some (s.homeRead 0x8000 288)) && decide ((s.g.spair 10).toNat % 256 = 0) &&
    decide ((s.g.sreg 12).toNat = 0) && decide ((s.g.sreg 13).toNat = 0x100) && decide (0x100 + 32 ≤ s.tm.larderSize) && !s.tm.lbad 0 256
theorem witness_MulticastSends : mcstB (peer 4) = true ∧ mcstB (peer 0x7FFFF) = true ∧ (peer 0x7FFFF).nodeid = 0x7FFFF ∧ (peer 4).nodeid ≠ 0x7FFFF ∧
    ((peer 4).ctx 0).skey ≠ 0 ∧ (peer 4).mcastPort 0 0 = some 0 ∧ (groupMembers ((peer 4).homeRead 0x8000 288)).contains 4 = false ∧
    PortSends (peer 4) 0 (mcastPayload ((peer 4).tm.lread 0 256) ((peer 4).homeRead 0x8000 288)).length ∧ Unmapped (peer 4) ∧
    Ready (peer 4) avHome [sref 8, sref 10 2, sref 12 2] ∧ Ready (peer 0x7FFFF) avHome [sref 8, sref 10 2, sref 12 2] :=
  ⟨by decide +kernel, by decide +kernel, by decide, by decide, by decide +kernel, by decide +kernel, by decide +kernel,
    ⟨by decide +kernel, by decide +kernel⟩, no_window (by decide), ready (by decide), ready (by decide)⟩

/-- A packet of a kind for address 0x3000 of module 4, from node 7 with key 0x77 and tag 9. -/
def pkt (k : Nat) (aux : Nat) (payload : List Byte) : Packet :=
  { kind := k, src := 7, ckey := 0x77, tag := 9, va := 0x800000003000, aux := BitVec.ofNat 64 aux, port := 0, payload := payload }
/-- The packets keep the header's rules. -/
theorem arrives_pkt (k aux : Nat) (b : List Byte) : Arrives (peer 4) (pkt k aux b) := by
  refine ⟨by show (0 : Nat) < 32; decide, ?_, by decide⟩
  simp [Packet.bad, pkt]

/-- Module 4's port 0 has room for a packet. -/
theorem sends_peer {n : Nat} (h : n ≤ 300) : PortSends (peer 4) 0 n := ⟨by decide +kernel, by show 0 + 0 + (32 + n + 255) / 256 ≤ 2 ^ 48; omega⟩
/-- Module 4 is canonical. -/
theorem canon_peer : MemoryCanonical (peer 4) := canon_of (by decide +kernel)

/-- A request was translated to a place of device memory. -/
def placedB (x : Except (Served × State) (Nat × Target × Nat)) (c pa pol pte : Nat) : Bool :=
  match x with | .ok (a, .dev b d, e) => a == c && b == pa && d == pol && e == pte | _ => false
theorem placed_of {x : Except (Served × State) (Nat × Target × Nat)} {c pa pol pte : Nat} (h : placedB x c pa pol pte = true) :
    x = .ok (c, .dev pa pol, pte) := by
  cases x with
  | error => cases h
  | ok y =>
    obtain ⟨a, t, e⟩ := y
    cases t with
    | dev b d => simp only [placedB, Bool.and_eq_true, beq_iff_eq] at h; obtain ⟨⟨⟨rfl, rfl⟩, rfl⟩, rfl⟩ := h; rfl
    | _ => cases h

theorem witness_RequestsServed :
    (∀ k aux b, Arrives (peer 4) (pkt k aux b)) ∧ MemoryCanonical (peer 4) ∧ (∀ n ≤ 300, PortSends (peer 4) 0 n) ∧
    (∃ c pa pol pte, (peer 4).servePlace { pkt 1 256 [] with kind := 1 } 0 256 (spanOf 0 256) .read (peer 4).now = .ok (c, .dev pa pol, pte) ∧
      (peer 4).homePoison pa 256 = false) ∧
    (let p := pkt 2 0 (leBytes 32 6 ++ List.replicate 256 3)
     ∃ c pa pol pte, (peer 4).servePlace { p with kind := 2 } 1 2 ((maskedBytes p.payload).map (·.1)) .write (peer 4).now = .ok (c, .dev pa pol, pte) ∧
      (maskedBytes p.payload).map (·.1) = [1, 2] ∧ 1 ≤ pa ∧ pol ≤ 2 ∧
      partPoison (peer 4).poison ((maskedBytes p.payload).map fun w => (pa + w.1 - 1, w.2)) = false) ∧
    (let p := pkt 3 8 (leBytes 16 5)
     ∃ c pa pol pte, (peer 4).servePlace { p with kind := 3 } (p.va.toNat % 256) 8 (spanOf (p.va.toNat % 256) 8) .write (peer 4).now = .ok (c, .dev pa pol, pte) ∧
      atomOfCode p.op = some .add ∧ pol ≤ 2 ∧ (peer 4).homePoison pa 8 = false) ∧
    (let p := pkt 4 8 (252 :: leBytes 16 5)
     ∃ c pa pol pte, (peer 4).servePlace { p with kind := 4 } (fieldAt p.payload 0 1) 4 (spanOf (fieldAt p.payload 0 1) 4) .write (peer 4).now = .ok (c, .dev pa pol, pte) ∧ pol ≤ 2) ∧
    (let p := pkt 4 8 (248 :: leBytes 16 5)
     ∃ c pa pol pte, (peer 4).servePlace { p with kind := 4 } (fieldAt p.payload 0 1) 8 (spanOf (fieldAt p.payload 0 1) 8) .write (peer 4).now = .ok (c, .dev pa pol, pte) ∧
      p.payload.length = 1 + 2 * 8 ∧ pol ≤ 2 ∧ (peer 4).homePoison (pa / 256 * 256 + fieldAt p.payload 0 1) 8 = false) ∧
    (let p := pkt 5 0 (List.replicate 256 3)
     ∃ c pa pol pte, (peer 4).servePlace { p with kind := 5, payload := leBytes 32 (2 ^ 256 - 1) ++ p.payload.take 256 } 0 256 (List.range 256) .write (peer 4).now =
        .ok (c, .dev pa pol, pte) ∧ 256 ≤ p.payload.length ∧ pol ≤ 2 ∧
      partPoison (peer 4).poison ((List.range 256).map fun i => (pa + i, p.payload.getD i 0)) = false) ∧
    (let p := pkt 6 3 []
     ∃ c pa pol pte, (peer 4).servePlace { p with kind := 6 } (p.va.toNat % 256) 8 (spanOf (p.va.toNat % 256) 8) .read (peer 4).now = .ok (c, .dev pa pol, pte) ∧
      pteBit pte 10 = false ∧ (peer 4).pegRoom pa = true) ∧
    (let p := pkt 7 3 []
     ∃ c tgt pte, (peer 4).servePlace { p with kind := 7 } (p.va.toNat % 256) 8 (spanOf (p.va.toNat % 256) 8) .read (peer 4).now = .ok (c, tgt, pte)) := by
  refine ⟨arrives_pkt, canon_peer, fun n h => sends_peer h, ⟨0, 0x3000, 0, 31, placed_of (by decide +kernel), by decide +kernel⟩,
    ⟨_, _, _, _, rfl, by decide +kernel, by decide +kernel, by decide +kernel, by decide +kernel⟩,
    ⟨_, _, _, _, rfl, by decide, by decide +kernel, by decide +kernel⟩, ⟨_, _, _, _, rfl, by decide +kernel⟩,
    ⟨_, _, _, _, rfl, by decide +kernel, by decide +kernel, by decide +kernel⟩,
    ⟨0, 0x3000, 0, 31, placed_of (by decide +kernel), by decide +kernel, by decide +kernel, by decide +kernel⟩, ⟨_, _, _, _, rfl, by decide +kernel, by decide +kernel⟩, _, _, _, rfl⟩

/-- Module 4 whose team subscribes to a word of node 5 with tag 3, and whose group awaits one load of four bytes under tag 9. -/
def awaiting (use : ReqUse) (hold : ReqHold) : State :=
  { peer 4 with
    now := 5000000, teams := [(1, { (peer 4).tm with subs := [{ slot := 16, va := 0x800000003000, tag := 3, remote := true }] })]
    groups := [(1, { (peer 4).g with returns := [{ id := 7, kind := .load, ctr := some .ld, left := 1, lanes := [{ lane := 0, dst := 4 }] }], ld := 1 })]
    reqs := [{ tag := 9, pkt := {}, use := use, gid := 1, hold := hold }], cur := {} }
theorem witness_AnswersArrive :
    (let s := awaiting (.load 7 [0] .b32 none) .sent
     (∀ k aux b, (pkt k aux b).port < 32 ∧ (pkt k aux b).bad = false) ∧ s.inbox = [] ∧ s.keyCtx (pkt 8 3 []).ckey = some 0 ∧
      (s.pushed 0 (pkt 8 3 [])).map (fun x => (x.1, x.2.slot, x.2.live)) = some (1, 16, true) ∧
      thas s.groups 1 = true ∧ (pkt 11 0 []).op = 0 ∧ bitOf (pkt 11 0 []).flags 2 = false ∧
      ((s.grp 1).ret? 7).map (fun q => (q.neg, q.lanes)) = some ([], [{ lane := 0, dst := 4 }]) ∧
      ((s.grp 1).ret? 7).map (fun q => preOrder q.issue.pre) = some .plain ∧ (s.grp 1).stores = [] ∧ s.cut 0 (dieOfPort 0) = false) ∧
    (let s := awaiting (.mcst 7 0x100 [1, 2] none) .sent
     let whole := leBytes 4 2 ++ leBytes 4 0
     (mackNeg (pkt 12 2 whole).payload).any (fun x => x.2 == 6) = false ∧ [1, 2].length ≤ fieldAt whole 0 4 + fieldAt whole 4 4 ∧
      (s.team (s.grp 1).tid).larder.wf = true ∧ (∀ line, (s.team (s.grp 1).tid).window line = none) ∧
      fieldAt (leBytes 4 1 ++ leBytes 4 0) 0 4 + fieldAt (leBytes 4 1 ++ leBytes 4 0) 4 4 < [1, 2].length ∧ s.cut 0 (dieOfPort 0) = false) ∧
    (let p := pkt 10 0 (List.replicate 64 0)
     (peer 4).keyCtx p.ckey = some 0 ∧ (∃ k, (peer 4).crateIn { p with kind := 10 } (peer 4).now = .ok k) ∧
      (peer 4).crateIn { p with kind := 10, ckey := 0x78 } (peer 4).now = .error (some (6, false)) ∧ PortSends (peer 4) 0 0) ∧
    (((buffered (peer 4)).die 0).fbFull = false ∧ MemoryCanonical (buffered (peer 4)) ∧ PortSends (buffered (peer 4)) 0 0 ∧ (pkt 13 0 []).tagged = true ∧ (pkt 13 0 []).src < 2 ^ 27) ∧
    (let s := awaiting (.drain 7) .sent
     0 + 1000 * usTicks ≤ s.now ∧ s.reqs.map (fun r => (r.sentAt, r.ftmo, r.gid)) = [(0, 1000, 1)] ∧ thas s.groups 1 = true) ∧
    (let s := awaiting (.drain 7) .retry
     s.reqs.map (·.hold) = [.retry] ∧ 0 + 4 * usTicks ≤ s.now ∧ s.routeHeld = false ∧ s.reqs.map (·.die) = [0] ∧ s.down = []) ∧
    (∃ c pa pol pte, (pkt 2 0 []).flow ≠ ({ pkt 1 256 [] with ckey := 0x77, va := 0x800000003100 } : Packet).flow ∧
      (peer 4).servePlace (pkt 1 256 []) 0 256 (spanOf 0 256) .read 0 = .ok (c, .dev pa pol, pte) ∧ (peer 4).homePoison pa 256 = false ∧ PortSends (peer 4) 0 256) := by
  refine ⟨⟨fun k aux b => ⟨by show (0 : Nat) < 32; decide, by simp [Packet.bad, pkt]⟩, by decide, by decide +kernel, by decide +kernel, by decide, by decide,
    by decide, by decide⟩, ⟨by decide, by decide, by decide, no_window (by decide), by decide, by decide⟩, ⟨by decide +kernel, ⟨_, rfl⟩, rfl, sends_peer (by decide)⟩,
    ⟨by decide, canon_of (by decide +kernel), ⟨by decide +kernel, by decide +kernel⟩, by decide⟩, by decide, by decide,
    ⟨0, 0x3000, 0, 31, by decide, placed_of (by decide +kernel), by decide +kernel, sends_peer (by decide)⟩⟩

/-- A core group of one fibre whose team owns queue 3, of 64 slots at 0x10000 of device memory; V8 to V14 describe a copy of 64 bytes from 0x3000 to
0x4000; S4 names the queue, S6 to S14 the operands of CPYM, SDRN and CPYT; the shape table holds a row of 16 bytes. -/
def copier : State :=
  let s := at_ .core 1 [(8, { val := 0x3000 }), (9, { val := 0xFFFFE000 }), (10, { val := 0x4000 }), (11, { val := 0xFFFFE000 }), (12, { val := 64 })]
    [(4, 3), (5, 0xFFFFFFFF), (6, 0x3000), (7, 0xFFFFE000), (9, 32768), (13, 0xFFFFFFFF)]
  { s with queues := [(3, { used := true, ctx := 0, kinds := 7, ring := 0xFFFFE00000010000, entries := 64 })]
           ctxs := [(0, { phase := .active, desc := leBytes 8 0x2000 ++ List.replicate 40 0 ++ leBytes 8 0x6000 ++ List.replicate 24 0 ++ leBytes 2 1 })]
           mem := (0x2000, 0x1F) :: cellsAt 0x6030 (leBytes 2 16 ++ leBytes 2 1 ++ leBytes 2 1 ++ leBytes 2 1) }
/-- Something was answered. -/
def okE {α : Type} (x : Except Stop α) : Bool := match x with | .ok _ => true | .error _ => false
/-- What was answered. -/
theorem ok_some {α : Type} {x : Except Stop α} (h : okE x = true) : ∃ v, x = .ok v := by
  cases x with
  | error => cases h
  | ok v => exact ⟨v, rfl⟩

/-- A place was answered. -/
def okT (x : Except Stop Target) (t : Target) : Bool := match x with | .ok y => decide (y = t) | .error _ => false
/-- That place was answered. -/
theorem okT_eq {x : Except Stop Target} {t : Target} (h : okT x t = true) : x = .ok t := by
  cases x with
  | error => cases h
  | ok v => rw [of_decide_eq_true h]

/-- What a lane's copy asks of its ends. -/
def endsB (s : State) (x y : CopyEnd) (n : Nat) : Bool := x.aligned && y.aligned && okB (s.checkEnd x n false) && okB (s.checkEnd y n true)
theorem witness_CopiesIssue :
    (Drained copier ∧ copier.g.cp < 63 ∧ Unmapped copier ∧ (copier.core copier.g.place).wc = [] ∧ (copier.core copier.g.place).l1 = [] ∧
      copier.coreWaits copier.g.place = false ∧ MemoryCanonical copier) ∧
    (Ready copier avHome [vsrc 8 5, sref 4, sref 5] ∧ (copier.g.sreg 4).toNat = 3 ∧ copier.checkCopyQueue 3 = .ok () ∧
      copier.syncOk (copier.g.sreg 5).toNat = true ∧ copier.batch = [0] ∧ copier.g.lane32 0 8 4 ≠ 0 ∧
      endsB copier { space := 0, off := copier.g.lane64 0 8 0, die := 0 } { space := 0, off := copier.g.lane64 0 8 2, die := 0 } (copier.g.lane32 0 8 4) = true) ∧
    (∃ v, (copier.raceTick copier.cur.gid copier.batch.length).postCopies 3
      (copier.batch.map fun l => copier.copyPacket l 0 0 0 0 0xFFFF (copier.g.lane64 l 8 0) (copier.g.lane64 l 8 2) (copier.g.lane32 l 8 4) []) = .ok v) ∧
    (copier.ringWrite (copier.queue 3).ring 64 = .ok (.dev 0x10000 0) ∧ copier.homeField 0x10000 8 = 0 ∧ copier.homeField 0x10008 8 = 0 ∧
      (copier.queue 3).entries = 64 ∧ copier.ringWrite ((copier.queue 3).ring + (copier.queue 3).slotOff 0) 64 = .ok (.dev 0x10040 0) ∧ 0x10000 + 64 ≤ 0x10040 ∧
      copier.cut copier.g.die (dieOfPa 0x10078) = false ∧ copier.recalls 0x10078 8 = false) ∧
    (Ready copier avHome [vsrc 8 7, sref 4, sref 12 2] ∧ (copier.g.sreg 4).toNat < 2 ^ 9 ∧
      copier.shapeRecord copier.g.ctx 0 = some (copier.homeRead 0x6000 64) ∧ copier.syncOk (copier.g.sreg 13).toNat = true ∧
      copier.g.lane64 0 8 0 % 16 = 0 ∧ CopyEnd.aligned { space := 1, off := copier.g.lane32 0 8 6 } = true ∧
      copier.checkEnd { space := 1, off := copier.g.lane32 0 8 6 } (shBytes (copier.homeRead 0x6000 64)) true = .ok () ∧
      ∃ v, (copier.raceTick copier.cur.gid copier.batch.length).postCopies 3
        (copier.batch.map fun l => copier.copyPacket l 1 4 0 0 0xFFFF (copier.g.lane64 l 8 0) (copier.g.lane32 l 8 6) 0
          ((List.range 4).map fun k => copier.g.lane32 l 8 (2 + k))) = .ok v) ∧
    (Ready copier avHome [sref 6 2, sref 8, sref 9] ∧ (copier.g.sreg 8).toNat < 2 ^ 25 ∧ (copier.g.sreg 9).toNat = 32768 ∧
      (copier.g.spair 6).toNat % 16 = 0 ∧ copier.checkEnd { space := 0, off := (copier.g.spair 6).toNat } 32768 false = .ok () ∧
      (copier.cluster copier.g.cluster).shelfUsed < 64 ∧ (copier.cluster copier.g.cluster).parks = []) ∧
    (Ready copier avHome [sref 10, sref 11, sref 5] ∧ (copier.g.sreg 11).toNat % 16 = 0 ∧ (preOrder copier.cur.pre).rel = false ∧
      copier.checkEnd { space := 1, off := (copier.g.sreg 11).toNat } (copier.drainLen 0) true = .ok ()) := by
  refine ⟨⟨by decide, by decide, no_window (by decide), by decide, by decide, by decide, canon_of (by decide +kernel)⟩,
    ⟨ready (by decide), by decide, ok_of (by decide +kernel), by decide, by decide, by decide, by decide⟩, ok_some (by decide +kernel),
    ⟨okT_eq (by decide +kernel), by decide, by decide, by decide, okT_eq (by decide +kernel), by decide, by decide, by decide⟩,
    ⟨ready (by decide), by decide, by decide +kernel, by decide, by decide, by decide, ok_of (by decide +kernel), ok_some (by decide +kernel)⟩,
    ⟨ready (by decide), by decide, by decide, by decide, ok_of (by decide), by decide, by decide⟩, ⟨ready (by decide), by decide, by decide, ok_of (by decide +kernel)⟩⟩

/-- A sync word at 16 whose generation is 5 and whose target is 64. -/
def synced : State :=
  let s := at_ .core 1 [] [(3, 16), (4, 5), (5, 6)]
  { s with teams := [(1, { s.tm with larder := mwrites [] 16 (leBytes 4 64 ++ leBytes 4 32 ++ leBytes 4 5), arrivals := [(1, 16, 32), (1, 16, 8)] })] }
theorem witness_BatchesAndSyncWords :
    RunsHere synced avHome ∧ synced.g.unfinished < 64 ∧ synced.g.unfinished ≤ 0 ∧ Ready synced avHome [sref 3, sref 4] ∧ Ready synced avHome [sref 3, sref 5] ∧
    Unmapped synced ∧ (preOrder synced.cur.pre).rel = false ∧ (synced.g.sreg 3).toNat % 16 = 0 ∧ (synced.g.sreg 3).toNat + 16 ≤ synced.tm.larderSize ∧ Drained synced ∧ synced.tm.larder.wf = true ∧
    genReached (leNat (synced.tm.lread 24 4)) (synced.g.sreg 4).toNat = true ∧ genReached (leNat (synced.tm.lread 24 4)) (synced.g.sreg 5).toNat = false :=
  ⟨⟨by decide, by decide⟩, by decide, by decide, ready (by decide), ready (by decide), no_window (by decide), by decide⟩

/-- The COPY packet of 64 bytes from 0x3000 to 0x4000, without a sync word. -/
def copyPkt : List Byte :=
  record [(1, 1), (1, 0), (1, 0), (1, 0), (2, 0), (2, 0xFFFF), (8, 0xFFFFE00000003000), (8, 0xFFFFE00000004000), (4, 64)] ++ List.replicate 36 0
/-- A queue with one packet in slot 0, of the user or privileged, its header at 0x10000. -/
def queued (q : Nat) (priv : Bool) (b : List Byte) (mid : Memory := []) : State :=
  { State.reset with
    ctxs := [(0, { phase := .active, desc := descOf 0 0 })], mem := (0x2000, 0x1F) :: mid ++ cellsAt 0x10040 b
    queues := [(q, { used := true, priv := priv, kinds := 7, ring := if priv then 0x10000 else 0xFFFFE00000010000, entries := 64 })] }
/-- The packet as it is taken. -/
def taken (b : List Byte) : Taken := { hdr := .dev 0x10000 0, slot := .dev 0x10040 0, idx := 0, bytes := b }
/-- An engine's copy under way. -/
def copyJob : CopyJob := { id := 9, queue := 3, slot := 0, ctx := 0, pkt := copyPkt, tid := 1 }
/-- The state in which engine 31 holds it. -/
def copying : State := { State.reset with ctxs := [(0, placeCtx)], mem := [(0x2000, 0x1F), (0x3000, 9)], engines := [(31, { job := some copyJob })] }

theorem witness_CopyEvents :
    (let s := queued 3 false copyPkt
     s.queueOpen 3 = true ∧ s.headRead 3 = .packet (taken copyPkt) ∧ fieldAt copyPkt 0 1 = 1 ∧ (s.queue 3).allows 1 = true ∧ s.copyOwner 3 0 = none ∧
      copyReserved copyPkt false = none ∧ fieldAt copyPkt 1 1 = 0 ∧ fieldAt copyPkt 2 1 % 4 ≠ 1 ∧ fieldAt copyPkt 2 1 / 4 % 4 ≠ 1 ∧
      s.copyPlaces (s.queue 3).ctx (copyGlobals copyPkt) = .none ∧ s.idleEngine = some 0) ∧
    (let s := copying
     let j := copyJob
     (s.engine 31).job = some j ∧ j.stuck = false ∧ (s.engine 31).withdrawn = false ∧ (s.ctx j.ctx).phase = .active ∧ j.flying = 0 ∧ j.op = 0 ∧
      j.pos < j.total ∧ j.buf = {} ∧ j.f 6 2 = 0xFFFF ∧ j.srcEnd.off + j.pos = 0xFFFFE00000003000 ∧ j.dstEnd.off + j.pos = 0xFFFFE00000004000 ∧
      0x3000 % 256 + min (256 - 0x4000 % 256) (j.total - j.pos) ≤ 256 ∧
      s.engPlace 7 0 j.tid j.srcEnd 0xFFFFE00000003000 false = .at (.dev 0x3000 0) ∧ s.cutTo 7 (.dev 0x3000 0) = false ∧
      s.engPlace 7 0 j.tid j.dstEnd 0xFFFFE00000004000 true = .at (.dev 0x4000 0) ∧ s.cutTo 7 (.dev 0x4000 0) = false ∧ j.srcEnd.space = 0 ∧
      s.poison = []) ∧ MemoryCanonical copying ∧ (∀ x, copying.homePoison x 64 = false) ∧
    ((synced.team 1).arrivals = [(1, 16, 32), (1, 16, 8)] ∧ (synced.team 1).larder.wf = true) ∧
    (let d : Drain := { gid := 1, ret := 7, tag := 5, off := 0x40, sync := 0xFFFFFFFF }
     let z : ShelfSlot := { tag := 5, mask := 1, grid := 1, data := [1, 2, 3, 4] }
     let s : State := { one with clusters := [(0, { drains := [d], shelf := [(63, z)] })] }
     (s.cluster 0).drains = [d] ∧ s.drainSlot 0 d = some (63, z) ∧ (s.team (s.grp d.gid).tid).larder.wf = true ∧
      d.off + z.data.length ≤ (s.team (s.grp d.gid).tid).larderSize) ∧
    (let j : CopyJob := { copyJob with pkt := [1, 0, 4] ++ List.replicate 61 0 }
     let s : State := { one with now := 2000000, engines := [(31, { job := some j })], teams := [(1, { one.tm with saving := some (0, true) })] }
     (s.engine 31).job = some j ∧ (s.team j.tid).saving = some (0, true) ∧ j.dstEnd.space = 1 ∧ 0 + 200 * usTicks ≤ s.now ∧ j.counted = 0 ∧ (s.ctx j.ctx).phase = .active) := by
  refine ⟨by decide +kernel, by decide +kernel, canon_of (by decide), fun _ => by simp [State.homePoison, copying, State.reset], by decide, by decide, by decide⟩

/-- `one` with a fibre in each of its 32 lanes. -/
def crowded : State := one.modG fun g => { g with fibres := (List.range 32).map fun l => (l, { life := .live, pc := placePc }) }
/-- `core` after both fibres have arrived at barrier 7. -/
def arrived : State := core.modG fun g => g.setF 0 (fun f => { f with arrived := [(7, 1)] }) |>.setF 1 (fun f => { f with arrived := [(7, 1)] })
theorem inTeam_core : InTeam core := ⟨by decide, by decide, by decide, by decide, by decide⟩
theorem inTeam_one : InTeam one := ⟨by decide, by decide, by decide, by decide, by decide⟩

theorem witness_FibresAndBarriers :
    (one.batch = [0] ∧ (one.g.fib 0).life = .live ∧ Housed one ∧ Ready one avHome [vsrc 4 2, vsrc 6, vdst 6, pref 15, { cls := 0, field := 0, n := 2 }] ∧
      (one.g.vpair 0 (one.g.phys 0 4)).getLsbD 0 = false ∧ (List.range one.g.width).find? one.g.slotFree = some 2) ∧
    (crowded.batch = [0] ∧ Housed crowded ∧ (List.range crowded.g.width).find? crowded.g.slotFree = none ∧
      Ready crowded avHome [vsrc 4 2, vsrc 6, vdst 6, pref 15, { cls := 0, field := 0, n := 2 }]) ∧
    (one.g.kind = .core ∧ one.g.guest = none ∧ thas one.groups one.cur.gid = true) ∧
    (RunsHere core avHome ∧ InTeam core ∧ Drained core ∧ (∀ l ∈ core.batch, (core.g.fib l).barring ≠ some 7) ∧ AllArrive core 7 ∧
      ∀ l ∈ core.batch, tget 0 (core.g.fib l).arrived 7 ≤ tget 0 core.tm.barriers 7) ∧
    (InTeam one ∧ ¬ AllArrive one 7) ∧ (∀ l ∈ arrived.batch, tget 0 arrived.tm.barriers 7 < tget 0 (arrived.g.fib l).arrived 7) ∧
    (thas core.teams core.g.tid = true ∧ (core.teams.map (·.1)).Nodup ∧ (∀ l ∈ core.batch, (core.g.fib l).bargAt = 0) ∧
      (core.l1BackAll core.g.place).l1Dirty core.g.place (fun _ _ => true) = false ∧ (one.l1BackAll one.g.place).l1Dirty one.g.place (fun _ _ => true) = false ∧
      (∀ x ∈ core.teamFibres core.g.tid, x.1 = core.cur.gid ∧ x.2 ∈ core.batch) ∧ core.gr.unplaced = 0 ∧ core.gr.open_ = false ∧
      ∀ x ∈ core.teams, x.1 = core.g.tid) ∧
    (one.tm.bargArrived ≤ one.gr.bargPhase ∧ ¬ ∀ x ∈ one.teamFibres one.g.tid,
      (x.1 = one.cur.gid ∧ x.2 ∈ one.batch) ∨ (((one.grp x.1).fib x.2).life = .live ∧ ((one.grp x.1).fib x.2).bargAt = one.gr.bargPhase + 1)) :=
  ⟨⟨by decide, by decide, housed_one, ready (by decide), by decide, by decide⟩, ⟨by decide, ⟨by decide, by decide, by decide⟩, by decide, ready (by decide)⟩,
    by decide, ⟨⟨by decide, by decide⟩, inTeam_core, by decide, by decide, by unfold AllArrive; decide, by decide⟩,
    ⟨inTeam_one, by unfold AllArrive; decide⟩, by decide, by decide, by decide⟩

/-- A launch record of gx teams of one role, one group of 16 V, 8 S registers and one tile, its code at 0x5000; flags and a dependence as given. -/
def launchRec (gx flags dep : Nat) (seq : Nat := 0) : List Byte :=
  padTo 256 (record [(8, 0x5000), (8, seq), (8, 0), (4, gx), (2, 1), (2, 1), (1, 32), (1, 1), (2, flags), (4, 0), (4, 4096), (1, 1), (1, 1), (1, 1), (1, 0), (4, 0),
    (1, 0), (3, 0), (8, 0), (1, 1), (1, 8), (2, 16), (1, 1), (3, 0), (4, 0), (4, 0)] ++ List.replicate 48 0 ++
    record [(8, 0), (8, 0), (8, 0), (8, 0), (8, dep), (8, 0), (4, 1), (4, 0), (4, 1)])
/-- A core group whose S6 and S7 name such a record at 0x7000, its context's aggregates of at most agg children. -/
def launcher (b : List Byte) (agg : Nat) (gs : Tab Grid) : State :=
  let s := at_ .core 1 [] [(6, 0x7000), (7, 0xFFFFE000), (10, 2 ^ 31 - 1)]
  { s with ctxs := [(0, { phase := .active, desc := descOf agg 0 })], mem := (0x2000, 0x1F) :: cellsAt 0x7000 b, grids := s.grids ++ gs }
/-- A launch was accepted. -/
def accB (x : Accept) (p : Grid → Bool) : Bool := match x with | .grid g => p g | _ => false
/-- The accepted grid. -/
theorem acc_some {x : Accept} {p : Grid → Bool} (h : accB x p = true) : ∃ g, x = .grid g ∧ p g = true := by
  cases x with
  | grid g => exact ⟨g, rfl, h⟩
  | _ => cases h
/-- A launch was refused with a code and a cause. -/
def refB (x : Accept) (k d : Nat) : Bool := match x with | .refused a b => a == k && b == d | _ => false
/-- The refusal. -/
theorem ref_some {x : Accept} {k d : Nat} (h : refB x k d = true) : x = .refused k d := by
  cases x with
  | refused a b => simp only [refB, Bool.and_eq_true, beq_iff_eq] at h; rw [h.1, h.2]
  | _ => cases h
/-- A grid of group 0's kind that waits for a word of memory, and an open aggregate of one child. -/
def gathering (opened : Nat) : Grid :=
  { teams := 1, launch := launchRec 1 0x80 0, open_ := true, openedAt := opened, children := [(0, 1, 0, 0, 0)], byDie := some 0 }

theorem witness_Launches :
    (let s := launcher (launchRec 1 0 0) 0 []
     Ready s avHome ([sref 6 2] ++ [sref 8 2, sref 10]) ∧ s.g.ld < 63 ∧ s.unplacedGrids s.g.ctx < 4096 ∧ Drained s ∧ (s.core s.g.place).wc = [] ∧
      (let u := (s.raceTick s.cur.gid s.batch.length).l1BackAll s.g.place
       u.l1Dirty s.g.place (fun _ _ => true) = false ∧ u.coreWaits s.g.place = false)) ∧
    (∃ g, (launcher (launchRec 1 0 0) 0 []).acceptLaunch 0 0 0xFFFFE00000007000 none = .grid g ∧
      (!aggregable g.launch && g.deps.all (launcher (launchRec 1 0 0) 0 []).depMet) = true) ∧
    (∃ g, (launcher (launchRec 1 0 0) 0 []).acceptLaunch 0 0 0xFFFFE00000007000 (some (0, 2 ^ 31 - 1)) = .grid g ∧ (g.teams == 2 ^ 31 - 1) = true) ∧
    (∃ g, (launcher (launchRec 1 0 0xFFFFE00000003000) 0 []).acceptLaunch 0 0 0xFFFFE00000007000 none = .grid g ∧
      !g.deps.all (launcher (launchRec 1 0 0xFFFFE00000003000) 0 []).depMet = true) ∧
    (∃ g, (launcher (launchRec 1 0x80 0) 4096 []).acceptLaunch 0 0 0xFFFFE00000007000 none = .grid g ∧
      (aggregable g.launch && g.deps.all (launcher (launchRec 1 0x80 0) 4096 []).depMet && ((launcher (launchRec 1 0x80 0) 4096 []).openFor g).isNone &&
        (launcher (launchRec 1 0x80 0) 4096 []).aggCap g.ctx != 0) = true) ∧
    (∃ g, (launcher (launchRec 1 0x80 0) 4096 [(9, gathering 0)]).acceptLaunch 0 0 0xFFFFE00000007000 none = .grid g ∧
      ((launcher (launchRec 1 0x80 0) 4096 [(9, gathering 0)]).openFor g == some 9 && !(launcher (launchRec 1 0x80 0) 4096 [(9, gathering 0)]).aggDue 9) = true) ∧
    (launcher (launchRec 0 0 0) 0 []).acceptLaunch 0 0 0xFFFFE00000007000 none = .refused 3 1 := by
  refine ⟨⟨ready (by decide), by decide +kernel⟩, acc_some (by decide +kernel), acc_some (by decide +kernel), acc_some (by decide +kernel),
    acc_some (by decide +kernel), acc_some (by decide +kernel), ref_some (by decide +kernel)⟩

/-- A packet of a kind whose RECORD is 0x7000, in slot 0 of queue 255. -/
def queuedRec (kinds : Nat) (kind : Nat) (b : List Byte) (rec_ : List Byte) : State :=
  let s := queued 255 false (record [(1, kind), (7, 0), (8, 0xFFFFE00000007000)] ++ b) (cellsAt 0x7000 rec_)
  { s with queues := [(255, { s.queue 255 with kinds := kinds })] }
/-- Such a packet stands at the head. -/
def packetB (s : State) (q kind : Nat) : Bool :=
  decide (q < 256) && s.queueOpen q && (s.queue q).refuse.isNone && (match s.headRead q with
    | .packet t => decide (t.hdr = .dev 0x10000 (if (s.queue q).priv then 2 else 0)) && decide (t.slot = .dev 0x10040 (if (s.queue q).priv then 2 else 0)) &&
        fieldAt t.bytes 0 1 == kind
    | _ => false) && canonB s
/-- The packet, its header at 0x10000 and its slot at 0x10040. -/
theorem packet_at {s : State} {q kind : Nat} (h : packetB s q kind = true) : ∃ t, PacketAt s q kind 0x10000 0x10040 t ∧ s.headRead q = .packet t := by
  unfold packetB at h
  split at h
  · next t ht =>
    simp only [Bool.and_eq_true, decide_eq_true_eq, beq_iff_eq] at h
    obtain ⟨⟨⟨⟨h1, h2⟩, h7⟩, ⟨h3, h4⟩, h5⟩, h6⟩ := h
    have hp : (if (s.queue q).priv then 2 else 0) ≤ 2 := by split <;> decide
    exact ⟨t, ⟨h1, h2, ht, Option.isNone_iff_eq_none.mp h7, ⟨_, hp, h3⟩, ⟨_, hp, h4⟩, by decide, h5, canon_of h6⟩, ht⟩
  · simp at h

theorem witness_LaunchPackets :
    (∃ t, PacketAt (queuedRec 1 2 (List.replicate 48 0) []) 255 2 0x10000 0x10040 t ∧ (queuedRec 1 2 (List.replicate 48 0) []).headRead 255 = .packet t) ∧
    ((queuedRec 1 2 [] []).queue 255).allows 2 = false ∧ ((queuedRec 1 2 [] []).die (dieOfPa 0x10000)).fbEn = false ∧
    (∃ t, PacketAt (queuedRec 7 2 (List.replicate 48 0) (launchRec 1 0 0)) 255 2 0x10000 0x10040 t ∧
      (queuedRec 7 2 (List.replicate 48 0) (launchRec 1 0 0)).headRead 255 = .packet t) ∧ ((queuedRec 7 2 [] []).queue 255).allows 2 = true ∧
    (let b := record [(1, 2), (7, 0), (8, 0xFFFFE00000007000)] ++ List.replicate 48 0
     firstNonzero b [(1, 7), (0x10, 40), (0x3C, 4)] = none ∧ firstNonzero (b.set 0x3F 1) [(1, 7), (0x10, 40), (0x3C, 4)] = some 0x3C ∧ fieldAt b 8 8 = 0xFFFFE00000007000) ∧
    (∃ g, (queuedRec 7 2 (List.replicate 48 0) (launchRec 1 0 0)).acceptLaunch 0 0 0xFFFFE00000007000 none = .grid g ∧
      g.deps.all (queuedRec 7 2 (List.replicate 48 0) (launchRec 1 0 0)).depMet = true) ∧
    (∃ g, (queuedRec 7 2 (List.replicate 48 0) (launchRec 1 0 0xFFFFE00000003000)).acceptLaunch 0 0 0xFFFFE00000007000 none = .grid g ∧
      !g.deps.all (queuedRec 7 2 (List.replicate 48 0) (launchRec 1 0 0xFFFFE00000003000)).depMet = true) ∧
    (queuedRec 7 2 (List.replicate 48 0) (launchRec 0 0 0)).acceptLaunch 0 0 0xFFFFE00000007000 none = .refused 3 1 := by
  refine ⟨packet_at (by decide +kernel), by decide, by decide, packet_at (by decide +kernel), by decide, by decide +kernel, acc_some (by decide +kernel),
    acc_some (by decide +kernel), ref_some (by decide +kernel)⟩
/-- A grid that waits for the word at 0x3000 to reach 7, or 8; an aggregate opened at 0 is due at 16000. -/
def waitingGrid (v : Nat) : State :=
  { mems with grids := [(2, { teams := 1, waiting := true, byDie := some 0, deps := [(0xFFFFE00000003000, some (.dev 0x3000 0), v)] }), (9, gathering 0)] }
theorem witness_LaunchesWaiting :
    (∀ v, thas (waitingGrid v).grids 2 = true ∧ ((waitingGrid v).grid 2).waiting = true ∧ (∀ d ∈ ((waitingGrid v).grid 2).deps, d.2.1.isSome = true)) ∧
    ((waitingGrid 7).grid 2).deps.all (waitingGrid 7).depMet = true ∧ ((waitingGrid 8).grid 2).deps.all (waitingGrid 8).depMet = false ∧
    thas (waitingGrid 0).grids 9 = true ∧ ((waitingGrid 0).grid 9).open_ = true ∧
    (let s : State := { waitingGrid 0 with ctxs := [(0, { phase := .active, desc := descOf 2 0 })] }
     s.aggDue 9 = false ∧ State.aggDue { s with now := 16000 } 9 = true ∧ State.aggDue { s with now := 15999 } 9 = false) ∧ MemoryCanonical (waitingGrid 0) ∧
    (∀ v, ((waitingGrid v).grid 2).byDie.isSome = true) := by
  refine ⟨fun v => ⟨rfl, rfl, ?_⟩, by decide, by decide, by decide, by decide, by decide +kernel, canon_of (by decide), fun _ => rfl⟩
  intro d hd
  simp only [waitingGrid, State.grid, tget, ↓reduceIte, List.mem_singleton] at hd
  subst hd; rfl

/-- A group whose larder holds the message of a call of one core of stack 15, STATUS at 0x100 with the given STATE, and whose context has a program of
four bytes at 0x3000. -/
def caller (st : Nat) : State :=
  let s := at_ .core 1 [] [(4, 0x100)]
  { s with ctxs := [(0, { phase := .active, desc := descOf 0 0 })], mem := (0x2000, 0x1F) :: cellsAt 0xC008 (leBytes 8 0xFFFFE00000003000 ++ leBytes 8 4)
           teams := [(1, { s.tm with larder := [(4, 15), (5, 1), (0xD, 1)] ++ cellsAt 0x100 [BitVec.ofNat 8 st] })] }
/-- A cellar group whose call of two cores holds it and core 1, mailbox 3 of it full, mailbox 0 empty; its call grants the two words at 0x4000. -/
def mailing : State :=
  let s := at_ .cellar 1 [(1, { val := 8 })] [(4, 1), (5, 0x4000), (6, 0xFFFFE000), (7, 2)]
  { s with cellars := [(0, { gid := 1, wake := 8 }), (1, { gid := 3, wake := 8 })], mem := [(0x2000, 0x1F), (0x4005, 1)]
           calls := [(1, { gid := 2, tid := 1, cores := 2, started := true, members := [0, 1], pages := [(0xFFFFE00000000000, 2 ^ 35, 0)],
                           msg := padTo 256 (List.replicate 0x40 0 ++ leBytes 8 0xFFFFE00000004000 ++ leBytes 8 8) })] }
/-- A call queued at stack 15, its cores given; a call of an ended core, with and without a first fault. -/
def queuedCall (cores : Nat) : State :=
  { State.reset with memStacks := [(15, { callQueue := [7] })], calls := [(7, { gid := 2, stack := 15, cores := cores })] }
def endedCall (first : Option (Nat × Nat × List Byte)) : State :=
  let s := at_ .core 1 [] []
  { s with groups := s.groups ++ [(4, { kind := .cellar, width := 16, ended := true })], cellars := [(0, { gid := 4 })]
           calls := [(7, { gid := 1, tid := 1, cores := 1, statusOff := 0x100, started := true, members := [0], first := first })] }

/-- The scan answered that. -/
def scanB (x : Except Nat (Nat × Bool)) (v : Nat × Bool) : Bool := match x with | .ok y => decide (y = v) | .error _ => false
/-- What the scan answered. -/
theorem scan_eq {x : Except Nat (Nat × Bool)} {v : Nat × Bool} (h : scanB x v = true) : x = .ok v := by
  cases x with
  | error => cases h
  | ok y => rw [of_decide_eq_true h]

theorem witness_CellarCalls :
    (let s := caller 0
     let u := s.setT s.g.tid fun t => t.sees 0 256
     Ready s avHome [sref 3] ∧ Drained s ∧ Unmapped s ∧ s.tm.larder.wf = true ∧ (s.g.sreg 3).toNat = 0 ∧ 256 ≤ s.tm.larderSize ∧ s.tm.lbad 0 256 = false ∧
      ((u.l1BackAll s.g.place).l1Dirty s.g.place fun _ _ => true) = false ∧ ∃ c, u.callOf (s.tm.lread 0 256) = .ok c ∧ u.callsAt c.stack < 64) ∧
    (Ready (caller 0) avHome [sref 5, sref 4] ∧ ((caller 0).g.sreg 4).toNat % 16 = 0 ∧ (caller 0).tm.lbad 0x100 4 = false ∧
      leNat ((caller 0).tm.lread 0x100 4) = 0 ∧ leNat ((caller 1).tm.lread 0x100 4) ≠ 0 ∧ Unmapped (caller 1)) ∧
    (RunsHere mailing avCellar ∧ thas mailing.groups mailing.cur.gid = true) ∧
    (Ready mailing avCellar [sref 4, vsrc 1] ∧ Drained mailing ∧ (mailing.g.sreg 4).toNat < mailing.myCall.cores ∧
      (mailing.cellar ((mailing.myCall.members.drop 1).headD 0)).wake.getLsbD 3 = true ∧
      (mailing.cellar ((mailing.myCall.members.drop 1).headD 0)).wake.getLsbD 0 = false) ∧
    (Housed mailing ∧ Ready mailing avCellar [vdst 31] ∧ (mailing.cellar mailing.g.place).wake.getLsbD 3 = true ∧
      (mailing.cellar mailing.g.place).wake.getLsbD 0 = false ∧ (∀ l ∈ mailing.g.liveLanes, l ∉ mailing.batch → (mailing.g.fib l).wait ≠ .mbxEmpty 0 3)) ∧
    (Ready mailing avCellar [vsrc 1, vdst 31, sref 5 3] ∧ mailing.g.ld < 63 ∧ mailing.batch = [0] ∧ (mailing.g.spair 5).toNat % 4 = 0 ∧
      mailing.skipScan (mailing.g.spair 5).toNat (mailing.g.sreg 7).toNat ((mailing.g.sreg 7).toNat - 8 / 32 + 1) 8 = .ok (40, false)) ∧
    ((State.stack (queuedCall 32) 15).callQueue = [7] ∧ ((State.freeCellars (queuedCall 32) 15).take 32).length = 32 ∧
      ((State.freeCellars (queuedCall 33) 15).take 33).length < 33) ∧
    (∀ f ∈ [none, some (0xB, 0, [])], let s := endedCall f
      thas s.calls 7 = true ∧ s.callOver (s.call 7) = true ∧ (s.call 7).started = true ∧ (s.call 7).aborted = false ∧ thas s.teams (s.call 7).tid = true ∧
        (s.team (s.call 7).tid).phase = .resident ∧ (s.team (s.call 7).tid).larder.wf = true ∧ thas s.groups (s.call 7).gid = true ∧
        (s.call 7).gid ∉ s.callGroups (s.call 7) ∧ (s.team (s.grp (s.call 7).gid).tid).phase = .resident) := by
  refine ⟨⟨ready (by decide), by decide, no_window (by decide), by decide +kernel, by decide, by decide, by decide, by decide +kernel, ?_⟩,
    ⟨ready (by decide), by decide, by decide, by decide +kernel, by decide +kernel, no_window (by decide)⟩, ⟨⟨by decide, by decide⟩, by decide⟩,
    ⟨ready (by decide), by decide +kernel⟩, ⟨⟨by decide, by decide, by decide⟩, ready (by decide), by decide⟩,
    ⟨ready (by decide), by decide, by decide, by decide, ?_⟩, by decide, by decide +kernel⟩
  · have h : okE ((State.setT (caller 0) (caller 0).g.tid fun t => t.sees 0 256).callOf ((caller 0).tm.lread 0 256)) = true := by decide +kernel
    obtain ⟨c, hc⟩ := ok_some h
    exact ⟨c, hc, Nat.lt_of_le_of_lt (List.length_filter_le _ _) (by decide)⟩
  · exact scan_eq (by decide +kernel)

/-- A core group of die 0 whose V8 and V9 name 0x3000 there, V10 and V11 the first byte of die 1; launch flags and fibre 0's refusal as given. -/
def goer (flags : Nat) (r : Option (Nat × Nat)) : State :=
  let s := at_ .core 1 [(8, { val := 0x3000 }), (9, { val := 0xFFFFE000 }), (11, { val := 0xFFFFE020 })] []
  { (s.modG fun g => g.setF 0 fun f => { f with refused := r }) with
    ctxs := [(0, { phase := .active, desc := descOf 0 0 })], mem := [(0x2000, 0x1F), (0x2020, 0x1F), (0x2024, 0x20), (0xA030, 2)]
    grids := [(1, { teams := 1, launch := padTo 0x80 (List.replicate 0x22 0 ++ leBytes 2 flags) ++ leBytes 8 0x4000 })] }
/-- A guest of group 9 on a core. -/
def visiting : State := (goer 0 none).modG fun g => { g with guest := some guestInfo }
/-- A crate of one fibre for lane 31, V1 its one register. -/
def crateOf (hops flags : Nat) : List Byte :=
  padTo 64 (record [(4, 0), (1, 1), (1, hops), (1, flags), (1, 0), (8, 0x5000), (8, 0x7FFFF)]) ++ record [(1, 31), (1, 3), (2, 5), (4, 0), (4, 42)]
/-- The state with a crate under way. -/
def carrying (c : Crate) : State := { goer 0 none with crates := [c], nextId := 9 }
/-- A destination was answered. -/
def destB (x : Except Stop (Option Dest)) (d : Dest) : Bool := match x with | .ok (some y) => decide (y = d) | _ => false
/-- That destination was answered. -/
theorem dest_eq {x : Except Stop (Option Dest)} {d : Dest} (h : destB x d = true) : x = .ok (some d) := by
  cases x with
  | error => cases h
  | ok y => cases y with
    | none => cases h
    | some z => rw [of_decide_eq_true h]

theorem witness_Migrations :
    (let s := goer 0 none
     Ready s avCore [vsrc 8 2, pref 15] ∧ Ready s avCore [vsrc 10 2, pref 15] ∧ s.batch = [0] ∧ (s.g.vpair 0 (s.g.phys 0 8)).toNat % 8 = 0 ∧
      s.goDest 0 (s.g.vpair 0 (s.g.phys 0 8)).toNat = .ok (some {}) ∧ s.g.standsAt {} = true ∧
      s.goDest 0 (s.g.vpair 0 (s.g.phys 0 10)).toNat = .ok (some { unit := 1 }) ∧ s.g.standsAt { unit := 1 } = false ∧ s.g.guest = none ∧
      s.g.kind = .core ∧ s.batch.length ≤ 32 ∧ (s.g.fib 0).refused = none ∧ (s.kernEntry s.g.ctx (s.khandle s.cur.gid)).isSome = true ∧ Drained s ∧
      (s.core s.g.place).wc = [] ∧ (s.l1BackAll s.g.place).coreWaits s.g.place = false ∧
      ((s.l1BackAll s.g.place).l1Dirty s.g.place fun _ _ => true) = false ∧ (∀ r ∈ s.g.returns, ∀ x ∈ r.lanes, x.lane ∉ s.batch) ∧ RunsHere s avHome ∧
      s.g.rejoinWaits = false ∧ (State.modG s fun g => g.setF 5 fun f => { f with life := .away }).g.rejoinWaits = true) ∧
    (∀ fl ∈ [0, 2], let s := goer fl (some (4, 0x3000))
      (s.g.fib 0).refused = some (4, 0x3000) ∧ bitOf (s.launchFlags s.cur.gid) 1 = (fl == 2) ∧ Drained s ∧ (s.core s.g.place).l1 = [] ∧ (s.core s.g.place).wc = [] ∧
        s.coreWaits s.g.place = false) ∧ HandlerFree (goer 2 (some (4, 0x3000))) ∧
    (let s := visiting
     s.g.guest = some guestInfo ∧ guestInfo.homeGid ≠ 0 ∧ guestInfo.homeNode < 2 ^ 19 ∧ guestInfo.homeCore < 1024 ∧ s.g.kind = .core ∧ Drained s ∧
      (s.core s.g.place).l1 = [] ∧ (s.core s.g.place).wc = [] ∧ s.coreWaits s.g.place = false) ∧
    (let c : Crate := { id := 5, bytes := crateOf 8 0, fromGid := 1 }
     let s := carrying c
     s.crates.find? (fun x => x.id == 5) = some c ∧ s.crateCut c = false ∧ c.outbound = true ∧ c.fromGid ≠ s.nextId ∧ s.arrivalCause c = none ∧ s.placeTakes c 127 = true ∧ c.req = none ∧
      (s.grp c.fromGid).guest = none ∧ ((crateBody 2 c.bytes).2.map (·.lane)).Nodup) ∧
    (let c : Crate := { id := 5, bytes := crateOf 9 0, fromGid := 1 }
     let s := carrying c
     c.outbound = true ∧ s.placeTakes c 127 = true ∧ s.arrivalCause c = some 4 ∧ c.req = none ∧ thas s.groups c.fromGid = true) ∧
    (let c : Crate := { id := 5, bytes := crateOf 8 0, fromGid := 1, toCellar := true, stack := 16 }
     let s : State := { carrying c with now := 8000 }
     (∀ place, place < 1024 → s.placeTakes c place = false) ∧ c.sentAt + 2 * usTicks ≤ s.now) ∧
    (let c : Crate := { id := 5, bytes := crateOf 9 0, req := some (pkt 10 0 []) }
     c.outbound = true ∧ (carrying c).arrivalCause c = some 4 ∧ (carrying c).placeTakes c 0 = true ∧
      State.portLive { carrying c with porten := 1 } 0 = true ∧ (State.port { carrying c with porten := 1 } 0).cntOut = 0 ∧ (carrying c).pegs = []) ∧
    (let c : Crate := { id := 5, bytes := crateOf 1 1, ret := true }
     let s := (carrying c).modG fun g => g.setF 31 fun f => { f with life := .away }
     c.ret = true ∧ c.endNotice = false ∧ c.sent = false ∧ c.req = none ∧ s.crateTo c = some 1 ∧
      ((crateBody (s.vmaskOf 1) c.bytes).2.map (·.lane)).Nodup ∧
      ∀ f ∈ (crateBody (s.vmaskOf 1) c.bytes).2, ((s.grp 1).fib f.lane).life = .away) ∧
    (let c : Crate := { id := 5, bytes := crateOf 1 2, ret := true, endNotice := true }
     c.endNotice = true ∧ c.sent = false ∧ c.req = none ∧ (carrying c).crateTo c = some 1) := by
  refine ⟨⟨ready (by decide), ready (by decide), by decide, by decide, dest_eq (by decide +kernel), by decide, dest_eq (by decide +kernel), by decide, by decide,
    by decide, by decide, by decide, by decide +kernel, by decide, by decide, by decide, by decide, by decide, ⟨by decide, by decide⟩, by decide, by decide⟩,
    by decide, ⟨by decide, by decide, by decide, by decide, by decide, by decide, by decide, held_none (by decide)⟩, by decide, by decide +kernel, by decide +kernel,
    by decide +kernel, by decide +kernel, by decide +kernel, by decide +kernel⟩

/-- A module with one grid whose team of launch record b is pending. -/
def pendingTeam (b : List Byte) : State :=
  { State.reset with ctxs := [(0, { phase := .active, desc := descOf 0 0 })], grids := [(2, { teams := 1, unplaced := 1, launch := b })], now := 500000 }
/-- A module whose team 1 is out, its image at 0x100000. -/
def outTeam : State :=
  { State.reset with ctxs := [(0, { phase := .active, desc := descOf 0 0 })], grids := [(2, { teams := 1, launch := launchRec 1 0 0 })]
                     teams := [(1, { phase := .swapped, grid := 2, core := nowhere, larderSize := 4096, image := 0x100000, imageSize := 65536 })] }
/-- A team whose fibres have ended, of a grid of n teams whose DONE is at 0x3000. -/
def idle (n : Nat) : State :=
  { one with groups := [(1, { one.g with fibres := [] })], grids := [(1, { teams := n, launch := padTo 0x98 [] ++ leBytes 8 0xFFFFE00000003000 })] }
/-- A team of class 1 whose fibres have waited for a call since 0, while a team that fits nowhere waits in class 0. -/
def blocked (ops : List MatOp) : State :=
  let w : Fibre := { life := .live, pc := placePc, wait := .nwait 0x100 }
  { one with now := 500000, groups := [(1, { one.g with fibres := [(0, w), (1, w)] })], teams := [(1, { one.tm with cls := 1 })]
             grids := one.grids ++ [(2, { teams := 1, unplaced := 1, noFit := some 0, launch := ((launchRec 1 0 0).set 0x2B 1).set 0x34 0x80 })]
             clusters := [(0, { ops := ops })] }
/-- A team whose save has begun, in a context with a swap area of that size. -/
def saving (size : Nat) : State :=
  { one with ctxs := [(0, { phase := .active, desc := descOf 0 size })], teams := [(1, { one.tm with saving := some (0, true) })] }
/-- A save that is flushed and has its run of the swap area, or none. -/
def runB (s : State) (some_ : Bool) : Bool :=
  let p := (s.countArrivals 1).saveFlush 1
  let u := p.2
  p.1 && ((u.ctx (u.team 1).ctx).swapRun (ceilTo 65536 ((u.gather 1).layout 1).size)).isSome == some_ && canonB (u.gather 1) && thas u.teams 1

theorem witness_TeamsComeAndGo :
    ((pendingTeam (launchRec 1 0 0 0)).nextFor 1023 (pendingTeam (launchRec 1 0 0 0)).candidates).map (·.tid) = some 0 ∧
    ((pendingTeam (launchRec 1 0 0 0x6000)).nextFor 0 (pendingTeam (launchRec 1 0 0 0x6000)).candidates).map (·.tid) = some 0 ∧
    (outTeam.nextFor 0 outTeam.candidates).map (·.tid) = some 1 ∧ outTeam.imgSpoiled 1 (outTeam.layout 1) = false ∧
    State.reset.nextFor 0 State.reset.candidates = none ∧
    (thas one.teams 1 = true ∧ one.teamIdle 1 = false) ∧
    (∀ n ∈ [1, 2], let s := idle n
      thas s.teams 1 = true ∧ s.teamIdle 1 = true ∧ (s.team 1).subs = [] ∧ (s.core 0).wc = [] ∧ ((s.l1BackAll 0).endSubs 1).coreWaits 0 = false ∧ (s.grid 1).children = [] ∧
        (((s.l1BackAll 0).endSubs 1).l1Dirty 0 fun _ _ => true) = false ∧ ((s.grid 1).retired + 1 < (s.grid 1).teams ↔ n = 2)) ∧
    (let u := ((idle 1).l1BackAll 0).endSubs 1
     ∃ pa pol e, u.isLocal 0xFFFFE00000003000 = true ∧ u.xlate 0 0 0xFFFFE00000003000 .write false = .ok (.dev pa pol) e ∧ u.homePoison pa 4 = false ∧ pol ≤ 2 ∧
      u.recalls pa 4 = false ∧ MemoryCanonical u) ∧
    (let s := blocked [mmaOp]
     (∀ x ∈ s.groups, x.2.guest = none) ∧ ((s.core (s.team 1).core).slots.map (·.1)).Nodup ∧ (s.team 1).saving = none ∧ s.swapVictim = some 1 ∧
      s.preemptVictim = some 1 ∧ (s.beginSave 1 true).saveWaits 1 = true ∧ (s.beginSave 1 false).saveWaits 1 = true) ∧
    (one.swapVictim ≠ some 1 ∧ one.preemptVictim ≠ some 1) ∧
    (let s := { saving 0 with ctxs := [(0, { phase := .frozen })] }
     (s.team 1).saving = some (0, true) ∧ (s.ctx (s.team 1).ctx).phase = .frozen) ∧ ((saving 0).ctx 0).phase = .active ∧
    ((saving 0).saveWaits 1 = false ∧ runB (saving 0x1000000) true = true ∧ runB (saving 0) false = true) := by
  refine ⟨by decide +kernel, by decide +kernel, by decide +kernel, by decide +kernel, by decide, by decide, by decide, ⟨_, _, _, by decide, rfl, by decide, by decide, by decide, canon_of (by decide)⟩,
    by decide +kernel, by decide, by decide, by decide, by decide +kernel⟩

/-- A group between issues on core 0, its runs as given. -/
def dispatching (slots : Tab Run) : State := { one with cur := {}, cores := [(0, { slots := slots })] }
/-- A fault buffer of die 7, at 0x20000, whose next index is 65535 and which has the records waiting. -/
def recorder (s : State) (die : Nat) (rs : List FaultRec) : State :=
  { s with dies := [(die, { fbbase := 0x20001, widx := 65535, ridx := 65535, waiting := rs })] }
theorem witness_IssueAndQueues :
    (dispatching [(3, { gid := 1, mask := 1, pc := placePc })]).runGoes 0 3 = true ∧
    (dispatching []).thermalStop = false ∧ ((tget {} ((dispatching []).core 0).slots 3).gid = 0 ∧
      (((dispatching []).coreGroups 0).filter fun g => (((dispatching []).core 0).slotOf g).isNone && !((dispatching []).readyLanes g).isEmpty) = [1]) ∧
    ((tget {} ((dispatching []).core 1023).slots 0).gid = 0 ∧ (dispatching []).coreGroups 1023 = []) ∧
    (let tr : Trap := { code := 0x11, detail := 9 }
     let i : Issue := { gid := 1, mask := 1, pc := placePc, npc := placePc + 4 }
     let s : State := { trapped.modG fun g => { g with heldTraps := [(tr, i)] } with cur := {} }
     (∀ line k w, s.recordAt 1 / 256 ≤ line → line ≤ (s.recordAt 1 + 127) / 256 → (s.team (s.grp 1).tid).window line = some (k, w) → line ∈ w.valid) ∧
      thas s.groups 1 = true ∧ (s.grp 1).heldTraps = [(tr, i)] ∧ (s.grp 1).handler = 0 ∧ s.stopped 1 = false ∧ s.cur.gid ≠ 1 ∧ (s.grp 1).kind = .core ∧
      (s.grp 1).guest = none ∧ (s.grp 1).call = none ∧ (s.grp 1).stores = [] ∧ (s.grid (s.team (s.grp 1).tid).grid).trapvec ≠ 0 ∧ userClass tr.code = true ∧
      tr.freezes = false ∧ (s.team (s.grp 1).tid).larder.wf = true) ∧
    (let r : FaultRec := { die := 7, bytes := List.replicate 32 1 }
     let s := recorder State.reset 7 [r]
     (s.die 7).waiting = [r] ∧ (s.die 7).fbFull = false ∧ FaultRoom s 7 1 ∧ r.bytes.length = 32 ∧ ((State.reset).die 7).fbFull = true) ∧
    (let s := queuedRec 7 3 (List.replicate 48 0) []
     (∃ t, PacketAt s 255 3 0x10000 0x10040 t ∧ s.headRead 255 = .packet t) ∧ (s.queue 255).allows 3 = true ∧ (s.die (dieOfPa 0x10000)).fbEn = false) ∧
    (let b := record [(1, 3), (7, 0), (8, 0xFFFFE00000007000)] ++ List.replicate 48 0
     firstNonzero b [(1, 1), (4, 4), (0x3C, 4)] = none ∧ firstNonzero (b.set 1 9) [(1, 1), (4, 4), (0x3C, 4)] = some 1) ∧
    FaultRoom (recorder (queuedRec 7 3 (List.replicate 48 0) []) 0 []) 0 2 ∧
    (let s : State := { State.reset with queues := [(255, { used := true, held := some (2, 5), entries := 64, poked := true })], now := 400000 }
     (s.queue 255).held = some (2, 5) ∧ (s.queue 255).poked = true ∧ (s.queue 255).heldAt + 100 * usTicks ≤ s.now ∧ (∃ d w, s.headRead 255 = .bad d w)) ∧
    (let s : State := { queued 255 true (record [(1, 6)]) with queues := [(255, { used := true, priv := true, ring := 0x10000, held := some (2, 5), entries := 64 })] }
     (s.queue 255).poked = false ∧ s.now < (s.queue 255).heldAt + 100 * usTicks ∧ ∃ t0, s.headRead 255 = .packet t0) ∧
    (∃ w, State.headRead { queued 255 false (record [(1, 6)]) with mem := (0x2000, 0x9F) :: cellsAt 0x10040 (record [(1, 6)]) } 255 = .moving w) ∧
    State.headRead { queued 255 true (record [(1, 6)]) with queues := [(255, { used := true, priv := true, ring := 2 ^ 37, entries := 64 })], down := [.ucie 0] } 255 = .cut ∧
    ((∃ t, PacketAt (queuedRec 7 127 (List.replicate 48 0) []) 255 127 0x10000 0x10040 t ∧
      (queuedRec 7 127 (List.replicate 48 0) []).headRead 255 = .packet t) ∧ kindReserved? 127 = true) := by
  refine ⟨by decide, by decide, by decide, by decide, ⟨held_none (by decide), by decide⟩, ⟨by decide, by decide, room_at (by decide), by decide, by decide⟩,
    ⟨packet_at (by decide +kernel), by decide, by decide⟩, by decide +kernel, room_at (by decide +kernel),
    ⟨by decide, by decide, by decide, _, _, rfl⟩, ⟨by decide, by decide, _, rfl⟩, ⟨_, rfl⟩, by decide +kernel, packet_at (by decide +kernel), by decide⟩

/-- What a lookup of a port answers, and the state after. -/
theorem from_of {x : Option Nat × State} {p : Option Nat} (h : x.1 = p) : ∃ w, x = (p, w) := ⟨x.2, by rw [← h]⟩
/-- The module with port 31 as given. -/
def ported (k : Port) : State := { peer 4 with ports := [(31, k)], porten := 0xFFFFFFFF }
theorem witness_Links :
    ((ported { up := false }).port 31).up = false ∧ (∀ r ∈ (ported {}).reqs, r.hold ≠ .cut) ∧
    (let k := (ported { pendIn := some ([1], 5), cntIn := 5, pendOut := some ([2], 6), cntOut := 6 }).port 31
     k.up = true ∧ k.pendIn = some ([1], 5) ∧ k.cntIn = 5 ∧ k.pendOut = some ([2], 6) ∧ k.cntOut = 6 ∧ k.fails < 2 ∧ k.cntIn < 2 ^ 48) ∧
    (let k := (ported { pendIn := some ([1], 5), cntIn := 4, fails := 2 }).port 31
     k.up = true ∧ (∀ key sw, k.pendIn = some (key, sw) → k.cntIn ≠ sw) ∧ 2 ≤ k.fails) ∧
    (let k := (ported { cntIn := 2 ^ 48, cntOut := 2 ^ 48 }).port 31
     k.up = true ∧ 2 ^ 48 ≤ k.cntIn ∧ 2 ^ 48 ≤ k.cntOut ∧ k.pendIn = none ∧ k.pendOut = none) ∧
    FaultRoom (recorder State.reset 7 []) (31 / 4) 1 ∧
    (diePair 6 7 = 27 ∧ ∀ x, x < 8 → ∀ y, y < 8 → x < y → diePair x y = 27 → 6 ≤ x) ∧ FaultRoom (recorder State.reset 6 []) 6 1 ∧
    (let q : Push := { remote := true, node := 7, va := 0xE00000003000, ctx := 0, tag := 3, q := 5, val := 9 }
     let s : State := { ported {} with pushes := [q], now := 16000, routeTable := 0x200000, mem := cellsAt 0x20001C (leBytes 4 0x9F9F9F9F) }
     s.pushes[0]? = some q ∧ q.remote = true ∧ q.sentAt + 4 * usTicks ≤ s.now ∧ (∃ w, s.portFrom q.die q.ctx q.node q.va = (some 31, w)) ∧
      PortSends s 31 8 ∧ (∃ w, State.portFrom { s with porten := 0 } q.die q.ctx q.node q.va = (none, w)) ∧ s.hostWaits = [] ∧ (15999 : Nat) < q.sentAt + 4 * usTicks) := by
  refine ⟨by decide, by decide, by decide, ⟨by decide, ?_, by decide⟩, by decide, room_at (by decide), ⟨by decide, by decide⟩,
    room_at (by decide), by decide, by decide, by decide, from_of (by decide +kernel), ⟨by decide +kernel, by decide⟩, from_of (by decide +kernel), by decide, by decide⟩
  intro key sw h
  have : (some ([1], 5) : Option (List Byte × Nat)) = some (key, sw) := h
  cases this; decide

/-- A command's 64 bytes: kind, context, status word at 0x30000, operands. -/
def cmdBytes (k c : Nat) (ops : List Byte) : List Byte := padTo 64 (record [(1, k), (1, c), (6, 0), (8, 0x30000)] ++ ops)
/-- That command at the head of privileged queue 255; context 0 active with key 0x77, descriptors at 0x7000, 0x7100 (key 0x77) and 0x7200 (bad). -/
def commanded (k c : Nat) (ops : List Byte) : State := queued 255 true (cmdBytes k c ops) [(0x7158, 0x77), (0x7200, 1)]
/-- The command as it is taken, and the state after. -/
def takenCmd (k c : Nat) (ops : List Byte) : Taken := { hdr := .dev 0x10000 2, slot := .dev 0x10040 2, idx := 0, bytes := cmdBytes k c ops }
def after_ (k c : Nat) (ops : List Byte) : State := takenFrom (commanded k c ops) 255 (takenCmd k c ops)
/-- What CommandAt asks. -/
def cmdB (s : State) (k c : Nat) (ops : List Byte) (un : List (Nat × Nat)) : Bool :=
  decide (s.headRead 255 = .packet (takenCmd k c ops)) && s.queueOpen 255 && (s.queue 255).refuse.isNone && fieldAt (cmdBytes k c ops) 0 1 == k && canonB s &&
    (s.queue 255).allows k && decide (fieldAt (cmdBytes k c ops) 8 8 % 8 = 0 ∧ fieldAt (cmdBytes k c ops) 8 8 < 2 ^ 40) &&
    decide (fieldAt (cmdBytes k c ops) 1 1 < 64) && (firstNonzero (cmdBytes k c ops) ((2, 6) :: un ++ [(0x3C, 4)])).isNone
/-- The command stands there. -/
theorem command_at {s : State} {k c : Nat} {ops : List Byte} {un : List (Nat × Nat)} (h : cmdB s k c ops un = true) : CommandAt s 255 k un (takenCmd k c ops) := by
  simp only [cmdB, Bool.and_eq_true, decide_eq_true_eq, beq_iff_eq, Option.isNone_iff_eq_none] at h
  obtain ⟨⟨⟨⟨⟨⟨⟨⟨h1, h2⟩, h5⟩, h3⟩, h4⟩, h6⟩, h7⟩, h8⟩, h9⟩ := h
  exact ⟨⟨0x10000, 0x10040, by decide, h2, h1, h5, ⟨2, by decide, rfl⟩, ⟨2, by decide, rfl⟩, by decide, h3, canon_of h4⟩, h6, h7, h8, h9⟩

/-- Operands: CTXCREATE's descriptor; TLBINV's whole range, or nothing; HWRITE of shape 0; LOFTWIN of all of die 7's loft; REPLAY of die 7. -/
def opsHwrite (h : Nat) : List Byte := record [(1, 3), (1, 0), (2, h), (4, 0), (8, 0x7000)]
def opsLoft : List Byte := record [(1, 7), (7, 0), (8, 0), (8, 2 ^ 27)]
def opsReplay (g : Nat) : List Byte := record [(1, 7), (4, g)]

/-- Every command of the table stands at the head of its queue in some state, its unused bytes zero. -/
theorem witness_CommandsAt : ∀ x ∈ [(128, [(0x18, 32)]), (129, [(0x10, 40)]), (130, [(0x10, 40)]), (131, [(0x10, 40)]), (132, [(0x20, 24)]), (133, [(0x21, 23)]),
    (134, [(0x12, 38)]), (135, [(0x11, 1), (0x14, 4), (0x20, 24)]), (136, [(0x11, 7), (0x28, 16)]), (137, [(0x12, 6), (0x28, 16)]), (138, [(0x12, 38)]),
    (139, [(0x10, 40)]), (140, [(0x10, 40)]), (141, [(0x15, 35)]), (142, [(0x28, 16)]), (143, [(0x18, 32)]), (144, [(0x18, 32)])],
    ∀ c ∈ [0, 63], CommandAt (commanded x.1 c []) 255 x.1 x.2 (takenCmd x.1 c []) := by
  intro x hx c hc
  exact command_at (by revert c x; decide +kernel)

/-- The state with context 0 frozen, or a request of it under way. -/
def frozen (s : State) : State := { s with ctxs := [(0, { phase := .frozen, desc := descOf 0 0 })] }
def asking (s : State) : State := { s with reqs := [{ tag := 9, pkt := {}, use := .drain 0, ctx := 0 }] }
/-- A command under way on queue 255. -/
def underWay (s : State) (k pos : Nat) (ops : List Byte) : State :=
  { s with queues := [(255, { used := true, priv := true, ring := 0x10000, entries := 64,
                              cmd := some { kind := k, ctx := 0, status := 0x30000, bytes := cmdBytes k 0 ops, pos := pos } })] }

theorem witness_ContextCommands :
    (let d (a : Nat) := (after_ 128 63 (leBytes 8 a)).homeRead a 256
     ((after_ 128 0 []).ctx 0).phase ≠ .free ∧ ((after_ 128 63 []).ctx 63).phase = .free ∧ descOk (d 0x7000) = true ∧
      (after_ 128 63 []).keyTaken (fieldAt (d 0x7000) 0x58 2) = false ∧ descOk (d 0x7200) = false ∧
      (descOk (d 0x7100) = true ∧ (after_ 128 63 []).keyTaken (fieldAt (d 0x7100) 0x58 2) = true)) ∧
    ((after_ 129 63 []).alive 63 = false ∧ (after_ 129 0 []).alive 0 = true ∧ ((peer 4).rangeOut 0 0 (2 ^ 45)).1 = true ∧
      (stranded.rangeOut 0 0 (2 ^ 45)).1 = false) ∧
    (UnderWay (underWay (asking (peer 4)) 129 0 []) 255 129 { kind := 129, ctx := 0, status := 0x30000, bytes := cmdBytes 129 0 [] } ∧
      (∃ r ∈ (asking (peer 4)).reqs, r.ctx = 0) ∧ ∀ r ∈ (peer 4).reqs, r.ctx ≠ 0) ∧
    ((frozen (after_ 131 0 [])).ctx 0).phase = .frozen ∧ (∀ x ∈ (frozen (after_ 131 0 [])).dies, ∀ r ∈ x.2.records ++ x.2.waiting, r.ctx ≠ 0) ∧
    ((invRange (cmdBytes 132 0 [])).2 = 0 ∧ ((after_ 132 0 (leBytes 16 0)).tlbTry 0 0 (2 ^ 45) true).1 = true ∧
      (State.tlbTry { after_ 132 0 [] with calls := [(1, { ctx := 0, pages := [(0, 65536, 1)] })] } 0 0 (2 ^ 45) true).1 = false) ∧
    ((handleTable 0) = none ∧ (handleTable 3).isSome = true ∧ ((after_ 135 0 (opsHwrite 0)).ctx 0).fld 0x54 2 ≤ 1 ∧ 0 < ((after_ 135 0 (opsHwrite 0)).ctx 0).fld 0x54 2 ∧
      kernOk ((after_ 135 0 (opsHwrite 0)).homeRead 0x7000 128) = true ∧ kernOk ((after_ 135 0 (opsHwrite 0)).homeRead 0x712C 128) = false) ∧
    (fieldAt (cmdBytes 136 0 opsLoft) 0x10 1 = 7 ∧ fieldAt (cmdBytes 136 0 opsLoft) 0x18 8 + fieldAt (cmdBytes 136 0 opsLoft) 0x20 8 = 2 ^ 27 ∧
      (∀ x ∈ (after_ 136 0 opsLoft).ctxs, (tget (0, 0) x.2.loft 7).2 = 0) ∧
      overlaps 0 (2 ^ 27) (tget (0, 0) [(7, (2 ^ 27 - 65536, 65536))] 7).1 65536 = true) ∧
    ((((after_ 139 0 []).preemptAll 0).preemptStep 0).1 = true ∧
      (((State.preemptAll { one with clusters := [(0, { ops := [mmaOp] })] } 0).preemptStep 0).1 = false)) ∧
    (fieldAt (cmdBytes 141 0 (opsReplay 1)) 0x11 4 ≠ ((after_ 141 0 (opsReplay 1)).die 7).gen ∧
      fieldAt (cmdBytes 141 0 (opsReplay 0)) 0x11 4 = ((after_ 141 0 (opsReplay 0)).die 7).gen ∧
      (∀ r ∈ ((after_ 141 0 (opsReplay 0)).die 7).records, r.disp.isSome = true)) ∧
    (let r : FaultRec := { die := 7, bytes := faultBytes 1 8 0 false 0 0 0 0, gid := 1, slot := 0 }
     let s : State := { mems.modG fun g => { g with hold := some .replay } with
                        dies := [(7, { fbbase := 0x20001, widx := 1, records := [r] })], mem := [(0x2000, 0x1F), (0x20000, 1), (0x20001, 8), (0x20003, 1)] }
     (s.die 7).records = [r] ∧ r.disp = none ∧ r.kind = 1 ∧ r.gid ≠ 0 ∧ r.more = [] ∧ r.job = none ∧ r.park = none ∧ thas s.groups r.gid = true ∧
      (s.grp r.gid).hold = some .replay ∧ (s.team (s.grp r.gid).tid).spoiled = false ∧ (s.ctx r.ctx).phase = .active ∧ s.homeField (recordPa s 7 r.slot + 3) 1 = 1) := by
  refine ⟨by decide +kernel, by decide +kernel, ⟨⟨by decide, by decide, rfl⟩, by decide, by decide⟩, by decide, by decide, by decide +kernel,
    by decide +kernel, by decide +kernel, by decide +kernel, by decide +kernel, by decide +kernel⟩

theorem witness_ModuleCommands :
    (∀ x ∈ [Instr.ctxcreate 255, .routeset 255], ∃ q k un, commandOf x = some (q, k, un)) ∧
    (fieldAt (cmdBytes 128 64 []) 1 1 = 64 ∧ firstNonzero ((cmdBytes 128 0 []).set 0x1F 3) [(2, 6), (0x18, 32), (0x3C, 4)] = some 0x18 ∧
      fieldAt ((cmdBytes 128 0 []).set 8 4) 8 8 % 8 ≠ 0 ∧ 2 ^ 40 ≤ fieldAt ((cmdBytes 128 0 []).set 13 1) 8 8) ∧
    (let b := cmdBytes 133 0 (record [(2, 254), (1, 3), (1, 1), (4, 65536), (8, 2 ^ 40 - 64 - 64 * 65536), (1, 7)])
     0 < fieldAt b 0x10 2 ∧ fieldAt b 0x10 2 ≤ 255 ∧ fieldAt b 0x12 1 ≤ 3 ∧ fieldAt b 0x13 1 = 1 ∧ (∃ i, i < 11 ∧ fieldAt b 0x14 4 = 2 ^ (i + 6)) ∧
      fieldAt b 0x18 8 % 64 = 0 ∧ fieldAt b 0x18 8 + 64 + 64 * fieldAt b 0x14 4 ≤ 2 ^ 40 ∧ fieldAt b 0x20 1 < 8 ∧ ((after_ 133 0 []).queue 254).used = false ∧
      ((after_ 133 0 []).queue 255).used = true ∧ (after_ 133 0 []).alive 0 = true) ∧
    (((after_ 134 0 []).queue 255).cmd = none ∧ ((after_ 134 0 []).queue 1).used = false) ∧
    (let b (p : Nat) := cmdBytes 137 0 (record [(1, p), (1, 1), (6, 0), (8, 0x7000), (8, 5)])
     31 < fieldAt (b 32) 0x10 1 ∧ fieldAt (b 31) 0x10 1 ≤ 31 ∧ fieldAt (b 31) 0x11 1 = 1 ∧ fieldAt (cmdBytes 137 0 []) 0x11 1 = 0 ∧ fieldAt (b 31) 0x18 8 + 32 ≤ 2 ^ 40) ∧
    (((after_ 138 0 [15, 8]).stack 15).wayPend = none ∧ (after_ 138 0 [15, 8]).scratchHeld 15 = false ∧
      fieldAt (cmdBytes 138 0 [15, 8]) 0x10 1 ≤ 15 ∧ fieldAt (cmdBytes 138 0 [15, 8]) 0x11 1 ≤ 8 ∧ mailer.scratchHeld 0 = true ∧
      (State.stack { mailer with memStacks := [(0, { wayPend := some (8, 255) })] } 0).wayPend = some (8, 255)) ∧
    (let b := cmdBytes 142 0 (record [(8, 2 ^ 40 - 512), (8, 512), (8, 0x7000)])
     fieldAt b 0x10 8 % 256 = 0 ∧ fieldAt b 0x18 8 % 256 = 0 ∧ fieldAt b 0x10 8 + fieldAt b 0x18 8 ≤ 2 ^ 40 ∧ fieldAt b 0x20 8 % 8 = 0 ∧
      fieldAt b 0x20 8 + (fieldAt b 0x18 8 / 256 + 3) / 4 ≤ 2 ^ 40 ∧ 0 + 1 < fieldAt b 0x18 8 / 256) ∧
    (UnderWay (underWay (peer 4) 142 0 (record [(8, 0), (8, 512), (8, 0x7000)])) 255 142
      { kind := 142, ctx := 0, status := 0x30000, bytes := cmdBytes 142 0 (record [(8, 0), (8, 512), (8, 0x7000)]) } ∧
      MemoryCanonical (underWay (peer 4) 142 0 []) ∧ (peer 4).homePoison 0 256 = false ∧ State.homePoison { peer 4 with poison := [0] } 0 256 = true) ∧
    (fieldAt (cmdBytes 143 0 (leBytes 8 4096)) 0x10 8 % 4096 = 0 ∧ fieldAt (cmdBytes 143 0 (leBytes 8 4095)) 0x10 8 % 4096 ≠ 0 ∧
      (∀ n ∈ [0, 433], ((peer 4).sumEntry n).isSome = true) ∧ ((peer 4).sumEntry 434).isSome = false) ∧
    (fieldAt (cmdBytes 144 0 (leBytes 8 (2 ^ 40 - 2 ^ 21))) 0x10 8 % 2 ^ 21 = 0 ∧ (after_ 144 0 []).routeHeld = false ∧ (after_ 144 0 []).reqs = [] ∧
      (∃ x ∈ (asking (after_ 144 0 [])).reqs, x.hold = .sent) ∧
      UnderWay (underWay (asking (peer 4)) 144 0 (leBytes 8 0)) 255 144
        { kind := 144, ctx := 0, status := 0x30000, bytes := cmdBytes 144 0 (leBytes 8 0) }) := by
  refine ⟨?_, by decide +kernel, ⟨by decide, by decide, by decide, by decide, ⟨10, by decide⟩, by decide +kernel⟩, by decide +kernel, by decide +kernel,
    by decide +kernel, by decide +kernel, ⟨⟨by decide, by decide, rfl⟩, canon_of (by decide +kernel), by decide, by decide⟩, by decide +kernel, by decide +kernel, by decide +kernel, by decide +kernel, by decide +kernel,
    by decide, by decide, rfl⟩
  intro x hx
  simp only [List.mem_cons, List.not_mem_nil, or_false] at hx
  rcases hx with rfl | rfl <;> exact ⟨_, _, _, rfl⟩

/-- A module that runs, with no link down. -/
def booted_ : State := { State.reset with bootstat := 2 }
/-- A team on a core that has no room to leave, one with matrix resources, and a cellar core in a call. -/
def fixed : State := { State.reset with teams := [(1, { phase := .resident, core := 1023, noRoom := true, zAlloc := 8 })] }
/-- A call that runs on cellar core 511. -/
def calledOn : State :=
  { mailer with calls := [(7, { gid := 2, tid := 1, cores := 1, started := true, members := [511], statusOff := 0 })], cellars := [(511, { gid := 2 })]
                dies := [(7, { fbbase := 0x20001, widx := 65535, ridx := 65535 })] }

theorem witness_Retirements :
    ((State.core { State.reset with cores := [(1023, { out := true })] } 1023).out = true ∧
      (fixed.core 1023).out = false ∧ (fixed.core 1023).retiring = none ∧ fixed.guestsOf 1023 = [] ∧
      (∃ e ∈ fixed.teams, e.2.phase = .resident ∧ e.2.core = 1023) ∧ (∀ e ∈ fixed.teams, e.2.noRoom = true ∧ e.2.saving = none)) ∧
    (let s := recorder State.reset 7 []
     (∀ e ∈ s.teams, ¬ (e.2.phase = .resident ∧ e.2.core = 1023)) ∧ dieOfCore 1023 = 7 ∧ FaultRoom s 7 1 ∧ tget 0 (s.die 7).spares 7 = 0 ∧
      tget 0 (State.die { s with dies := [(7, { fbbase := 1, spares := [(7, 16)] })] } 7).spares 7 ≠ 0) ∧
    (let s := recorder State.reset 7 []
     (∀ e ∈ fixed.teams, ¬ (e.2.phase = .resident ∧ clusterOfCore e.2.core = 0 ∧ e.2.hasMatrix = true)) ∧ dieOfCluster 127 = 7 ∧
      (State.cluster { s with clusters := [(127, { matrixOut := true })] } 127).matrixOut = true ∧ (s.cluster 127).matrixOut = false ∧
      ∃ core bytes, clusterOfCore core = 127 ∧ (demandOf bytes).matrix = true) ∧
    ((calledOn.cellar 511).out = false ∧ (calledOn.cellar 511).guests = [] ∧ FaultRoom calledOn (511 / 64) 1 ∧ calledOn.callOn 511 = some 7 ∧
      (∀ g ∈ calledOn.callGroups (calledOn.call 7), (calledOn.grp g).stores = []) ∧ thas calledOn.teams 1 = true ∧
      (calledOn.team 1).phase = .resident ∧ (calledOn.team 1).larder.wf = true ∧ (calledOn.call 7).first = none ∧ calledOn.callOn 510 = none ∧
      (calledOn.cellar 510).guests = []) ∧
    (128 * 31 + 127 ∈ (State.stack { State.reset with memStacks := [(15, { banksOut := [4095] })] } 15).banksOut ∧
      128 * 31 + 127 ∉ ((recorder State.reset 7 []).stack 15).banksOut ∧ FaultRoom (recorder State.reset 7 []) (15 / 2) 2) := by
  refine ⟨⟨by decide, by decide, by decide, by decide, ⟨_, List.mem_cons_self .., by decide⟩, by decide⟩,
    ⟨by decide, by decide, room_at (by decide), by decide, by decide⟩,
    ⟨by decide, by decide, by decide, by decide, 1023, List.replicate 0x2C 0 ++ [8], by decide, by decide +kernel⟩,
    ⟨by decide, by decide, room_at (by decide +kernel), by decide, by decide, by decide, by decide, by decide, by decide, by decide, by decide⟩,
    by decide, by decide, room_at (by decide)⟩

/-- With the link up and nothing waiting, an access of the host goes on. -/
theorem host_free {s : State} {a : HostAcc} (h : s.down.contains .cxl = false ∧ s.hostWaits = []) : HostFree s a :=
  ⟨h.1, fun w hw => by rw [h.2] at hw; cases hw⟩

theorem witness_BootAndHostMemory :
    (let s : State := { State.reset with agenda := [{ act := .bootEnds }], bootstat := 1 }
     s.cur.mid = false ∧ s.bootstat.toNat % 16 = 1 ∧ State.reset.bootstat.toNat % 16 ≠ 1) ∧
    (let hpa := booted_.hdmBase + (2 ^ 40 - 256)
     booted_.hdmBase ≤ hpa ∧ (hpa - booted_.hdmBase) / 256 = (hpa - booted_.hdmBase + 256 - 1) / 256 ∧ hpa - booted_.hdmBase + 256 ≤ 2 ^ 40 ∧
      (∀ d, HostFree booted_ (.read hpa 256) ∧ HostFree booted_ (.write hpa d) ∧ HostFree State.reset (.read hpa 256)) ∧ booted_.booted = true ∧
      State.reset.booted = false ∧ booted_.cut 0 7 = false ∧ booted_.recalls (2 ^ 40 - 256) 256 = false ∧ booted_.homePoison (2 ^ 40 - 256) 256 = false ∧
      dieOfPa (2 ^ 40 - 256) = 7 ∧ booted_.mem.wf = true) ∧
    State.homePoison { booted_ with poison := [0] } 0 256 = true ∧ State.cut { booted_ with down := [.ucie 6] } 0 7 = true ∧
    ¬ HostFree { booted_ with down := [.cxl] } (.read 0 1) ∧ ¬ HostFree { booted_ with hostWaits := [.write 0 [1]] } (.write 255 [1]) ∧
    (∀ n ∈ [1, 256], (List.replicate n (5 : Byte)) ≠ [] ∧ 0 / 256 = (0 + (List.replicate n (5 : Byte)).length - 1) / 256) ∧
    (State.reset.msiReady 8 = false ∧
      (let s : State := { booted_ with msiDue := [8], msiAt := [(8, 0)], now := 4000 }
       8 ∈ s.msiDue ∧ s.down.contains .cxl = false ∧ tget 0 s.msiAt 8 + 4000 ≤ s.now) ∧ thas booted_.msiAt 8 = false) :=
  ⟨by decide, ⟨by decide, by decide, by decide, fun _ => ⟨host_free (by decide), host_free (by decide), host_free (by decide)⟩, by decide⟩, by decide, by decide,
    fun h => absurd h.1 (by decide), fun h => absurd (h.2 _ (List.mem_cons_self ..)) (by decide), by decide +kernel, by decide⟩

/-- Every offset of the table and of its last instances, with values at the ends of their ranges. -/
theorem witness_HostRegisters :
    (registerOf (.nodeidWrite 0x7FFFF) = some (0x10, 0x7FFFF) ∧ registerOf (.registerWrite 0x18 1) = some (0x18, 1) ∧ registerOf (.q0ctlWrite 0x80000010) = some (0x48, 0x80000010) ∧
      registerOf (.fbbaseWrite 7 1) = some (0x170, 1) ∧ registerOf (.fbstatWrite 7 0x20000) = some (0x178, 0x20000) ∧
      registerOf (.hmaskChWrite 15 0x8000001F) = some (0x478, 0x8000001F) ∧ registerOf (.hmaskPcWrite 15 0x80000023) = some (0x4F8, 0x80000023) ∧
      registerOf (.pwrcapWrite ⟨false, 2000⟩) = some (0x200, 2000) ∧ registerOf (.registerWrite 7 0) = some (7, 0)) ∧
    ¬ HostFree { booted_ with down := [.cxl] } (.regRead 8 8) ∧ HostFree State.reset (.regRead 8 8) ∧
    (State.reset.booted = false ∧ Answers booted_ ∧ booted_.porten = 0 ∧ State.porten { booted_ with porten := 1 } ≠ 0 ∧
      booted_.q0ctl.getLsbD 31 = false ∧ BitVec.getLsbD (State.q0ctl { booted_ with q0ctl := 0x80000006 }) 31 = true) ∧
    ((0x80000010 : Dword).getLsbD 31 = true ∧ (0x80000010 : Dword).toNat % 32 = 16 ∧ (0x80000006 : Dword).toNat % 32 = 6 ∧ ¬ (6 ≤ (0x80000005 : Dword).toNat % 32)) ∧
    ((booted_.die 7).ridx < 65536 ∧ (booted_.die 7).widx < 65536 ∧
      (let s : State := { booted_ with dies := [(7, { widx := 2, ridx := 65535 })] }
       (2 + 65536 - (s.die 7).ridx) % 65536 ≤ ((s.die 7).widx + 65536 - (s.die 7).ridx) % 65536 ∧
        ((s.die 7).widx + 65536 - (s.die 7).ridx) % 65536 < (3 + 65536 - (s.die 7).ridx) % 65536)) ∧
    (FoldLegal (booted_.stack 15).hmaskCh (booted_.stack 15).hmaskPc ∧ FoldLegal 0x8000000D 0x8000000D ∧ FoldLegal 0x8000001F 0x80000023 ∧ booted_.mem.wf = true ∧
      (booted_.stack 15).chPend = none ∧ (booted_.stack 15).pcPend = none ∧
      (State.stack { booted_ with memStacks := [(15, { chPend := some 0x8000001F, pcPend := some 0x80000023 })] } 15).chPend = some 0x8000001F ∧
      (booted_.die 7).fbPend = none ∧ (State.die { booted_ with dies := [(7, { fbPend := some 1 })] } 7).fbPend = some 1) :=
  ⟨by decide, fun h => absurd h.1 (by decide), host_free (by decide), ⟨by decide, ⟨by decide, host_free (by decide)⟩, by decide, by decide, by decide, by decide⟩, by decide, by decide,
    ⟨by unfold FoldLegal; decide, by unfold FoldLegal; decide, by unfold FoldLegal; decide, by decide, by decide, by decide, by decide, by decide, by decide⟩⟩

theorem witness_Management :
    (State.reset.booted = false ∧ booted_.booted = true) ∧
    ([0x40, 0, 0, 0, 4, 0, 0, 0] : List Byte).length = 8 ∧ bitOf (fieldAt [0x40, 0, 0, 0, 4, 0, 0, 0] 0 4) 6 = true ∧ bitOf (fieldAt [0x40, 0, 0, 0, 4, 0, 0, 0] 4 4) 2 = true ∧
    0 + 0 ≤ Config.certificateChain.length ∧ (List.replicate 32 (7 : Byte)).length = 32 ∧
    (let s : State := { booted_ with power := 8001, now := 40000, clock := 1125 }
     s.pwrcap.toNat < s.power ∧ s.clockAt + 40000 ≤ s.now ∧ 1125 ≤ s.clock) ∧
    (let s : State := { booted_ with clearSince := some 0, now := 4000000, clock := 3875 }
     s.clearSince = some 0 ∧ ¬ (s.pwrcap.toNat < s.power ∨ 95 ≤ s.temp) ∧ s.clockAt + 40000 ≤ s.now ∧ 0 + 4000000 ≤ s.now ∧ s.clock < 4000) ∧
    (let s : State := { booted_ with temp := 105 }
     105 ≤ s.temp ∧ s.thermalStop = false) ∧ (2000 ≤ (2000 : Dword).toNat % 2 ^ 16 ∧ (8000 : Dword).toNat % 2 ^ 16 ≤ 8000) ∧
    (let s : State := { booted_ with temp := 89, thermalStop := true }
     s.temp < 90 ∧ s.thermalStop = true) := by
  refine ⟨by decide, by decide, by decide, by decide, Nat.zero_le _, by decide, by decide, by decide, by decide, by decide, by decide⟩

theorem witness_DecodeOfEncode :
    (encode? (.iadd .satN8x4 31 (.v 30 .rot) (.s 31) true) = some 0b111_10011111_00111110_11111_000000_1_1 ∧ (Instr.iadd .satN8x4 31 (.v 30 .rot) (.s 31) true).WellFormed) ∧
    (encode? (.iaddC16 true 3 31) = some 0b1_00011_11111_0000_0 ∧ (Instr.iaddC16 true 3 31).WellFormed) :=
  ⟨⟨by decide, by decide⟩, by decide, by decide⟩

/-- A word placed for the next step: an issue that takes it, and the sequence under way at a word or at no instruction. -/
def placed (w : Nat) : State := State.reset.withFetchWord 32 w
/-- The placed word's issue has begun. -/
def begun (w : Nat) : State := State.startIssue { placed w with agenda := [] } 1 placePc
/-- A word was fetched. -/
def parcelsB (x : List Parcel × Except Stop Unit) (ps : List Parcel) : Bool := decide (x.1 = ps) && (match x.2 with | .ok _ => true | .error _ => false)
/-- That word was fetched. -/
theorem parcels_eq {x : List Parcel × Except Stop Unit} {ps : List Parcel} (h : parcelsB x ps = true) : x = (ps, .ok ()) := by
  obtain ⟨a, b⟩ := x
  cases b with
  | error => simp [parcelsB] at h
  | ok u => simp only [parcelsB, Bool.and_true, decide_eq_true_eq] at h; rw [h]

theorem witness_StepRunsDecoded :
    (let s : State := { begun 0x10402303 with cur := { (begun 0x10402303).cur with mid := true } }
     s.cur.mid = true ∧ s.fetchWord = ([0x2303, 0x1040], .ok ()) ∧ decode s.cur.pre (wordOf [0x2303, 0x1040]) = .ok (.iadd .i32 3 (.v 1 .straight) (.s 2) true)) ∧
    (let s : State := { begun 0x6D with cur := { (begun 0x6D).cur with mid := true } }
     s.fetchWord = ([0x6D, 0], .ok ()) ∧ decode s.cur.pre (wordOf [0x6D, 0]) = .error .unassignedMajor) ∧
    ((placed 0x10402303).cur.mid = false ∧ (placed 0x10402303).agenda = [{ act := .issue 1 placePc }] ∧
      State.batchAt { placed 0x10402303 with agenda := [] } 1 placePc ≠ 0 ∧ State.batchAt { placed 0x10402303 with agenda := [], groups := [] } 1 placePc = 0 ∧
      (begun 0x10402303).fetchWord = ([0x2303, 0x1040], .ok ()) ∧
      (∃ ps f, State.fetchWord (State.startIssue { placed 1 with agenda := [], mem := [] } 1 placePc) = (ps, .error f))) ∧
    (encode? (.moduleReset {}) = none ∧ (begun 0x12).fetchWord = ([0x12], .ok ())) ∧
    ((begun 1).g.call = none ∧ (begun 1).isLocal placePc.toNat = true ∧
      (begun 1).storeOff placePc.toNat = none ∧
      (∃ pa pol e, (begun 1).xlate 0 0 placePc.toNat .fetch true (begun 1).g.tlbCore = .ok (.dev pa pol) e ∧ (begun 1).homePoison pa 2 = false ∧
        (begun 1).codeSector (pa / 64) = none ∧ (begun 1).cut 0 (dieOfPa pa) = false ∧
        (State.codeSector { begun 1 with cores := [(0, { icache := [(pa / 64, List.replicate 64 5)] })] } (pa / 64)).isSome = true)) ∧
    (let s := { cell with cellars := [(0, { image := some (9, 0), imageBase := 0x5000, store := [1, 2] })] }
     let t := s.modG fun g => { g with guest := some guestInfo, call := none }
     t.g.call = none ∧ t.storeOff 0x5000 = some 0) ∧
    (let s := { cell with cellars := [(0, { store := [1, 2] })] }
     s.g.call ≠ none ∧ 0 + 2 ≤ (s.cellar s.g.place).store.length) :=
  ⟨⟨by decide, parcels_eq (by decide +kernel), rfl⟩, ⟨parcels_eq (by decide +kernel), rfl⟩,
    ⟨by decide, by decide, by decide +kernel, by decide +kernel, parcels_eq (by decide +kernel), _, _, rfl⟩,
    ⟨by decide, parcels_eq (by decide +kernel)⟩, ⟨by decide, by decide, by decide, _, _, _, rfl, by decide +kernel, by decide +kernel, by decide +kernel, by decide +kernel⟩, by decide, by decide⟩

/-- The state after reset keeps the limits; so does a step that writes a register. -/
theorem witness_StepKeepsLimits :
    LimitsKept State.reset ∧
    (let s : State := { booted_ with agenda := [{ act := .event (.wcageWrite 64000) }] }
     LimitsKept s ∧ ∃ t, step s = .next t ∧ t.wcage = 64000) :=
  ⟨⟨by decide, by decide, by decide, by decide⟩, ⟨by decide, by decide, by decide, by decide⟩, _, rfl, by decide⟩

/-- Memory is canonical after reset, and after a step that stores to it. -/
theorem witness_StepKeepsMemory :
    MemoryCanonical State.reset ∧
    (let s : State := { booted_ with agenda := [{ act := .event (.cxlMemWrite 0x100 [1, 2]) }] }
     MemoryCanonical s ∧ ∃ t, step s = .next t ∧ t.homeRead 0xFF 4 = [0, 1, 2, 0]) :=
  ⟨canon_of (by decide), canon_of (by decide), _, rfl, by decide⟩

/-- Tables at 0x2000, 0x4000 and 0x6000, whose leaf at 0x6000 is as given. -/
def walked (leaf : Nat) : State :=
  { State.reset with ctxs := [(0, placeCtx)]
                     mem := mwrites (mwrites (mwrites [] 0x2000 (leBytes 8 0x4001)) 0x4000 (leBytes 8 0x6001)) 0x6000 (leBytes 8 leaf) }
/-- A load of an address that no entry translates: its group has a fault buffer with room. -/
def unmapped : State :=
  { mems with mem := [], dies := [(0, { fbbase := 0x20001, widx := 65535, ridx := 65535 })] }

theorem witness_Translation :
    (∀ leaf ∈ [0, 1, 0x1F, 0x102, 0x9F, 0x103], (walked leaf).tlbFind 0 0 0xFFFF = none ∧
      pteCheck ((walked leaf).homeField 0x2000 8) 1 (2 ^ 35) = none ∧ bitOf ((walked leaf).homeField 0x2000 8) 1 = false ∧
      pteCheck ((walked leaf).homeField 0x4000 8) 2 (2 ^ 25) = none ∧ bitOf ((walked leaf).homeField 0x4000 8) 7 = false) ∧
    (bitOf 0 0 = false ∧ bitOf 1 0 = true ∧ bitOf 1 1 = false ∧ bitOf 0x103 1 = true ∧ bitOf 0x103 8 = true ∧ pteCheck 0x1F 3 65536 = none ∧ bitOf 0x9F 7 = true ∧
      pteCheck 0x0F 3 65536 = none ∧ bitOf 0x0F 4 = false ∧ pteCheck 0x13 3 65536 = none ∧ bitOf 0x13 2 = false ∧ bitOf 0x13 3 = false) ∧
    (let x : TlbEntry := { ctx := 0, base := 0, size := 65536, pte := 0x1F }
     (State.tlbFind { State.reset with dies := [(7, { tlb := [x] })] } 7 0 65535 = some x) ∧
      tlbHit (State.core { State.reset with cores := [(1023, { tlb := [x] })] } 1023).tlb 0 65535 = some x ∧
      (∀ leaf d, (walked leaf).cut 7 d = false) ∧ bitOf x.pte.toNat 4 = true) ∧
    (∃ as a why lv, Ready unmapped avVec [vsrc 1 (addrRegs (unmapped.poolIdx 0)), vdst 30 1] ∧ unmapped.g.kind = .core ∧ unmapped.g.guest = none ∧ unmapped.g.ld < 63 ∧
      unmapped.formAddrs 1 (unmapped.poolIdx 0) (unmapped.immM 0 * 4) 4 false = .ok as ∧ unmapped.locateAll as 4 .read = .error (.replay a why lv) ∧
      FaultRoom unmapped unmapped.g.die 1 ∧ (unmapped.die unmapped.g.die).records = [] ∧ (unmapped.die unmapped.g.die).waiting = []) :=
  ⟨by decide +kernel, by decide, ⟨by decide, by decide, fun _ _ => by simp [State.cut, walked, State.reset], by decide⟩, ⟨_, _, _, _, ready (by decide), by decide, by decide, by decide, rfl, rfl,
    room_at (by decide), by decide, by decide⟩⟩

/-- The rows' places were found, each to be read here. -/
def tilesB (s : State) (x : Except Stop (List LaneAcc)) : Bool :=
  match x with
  | .ok xs => !xs.isEmpty && xs.all fun x => !x.tgt.isRemote && s.reaches s.cur.gid x.tgt false && !(s.readAt s.cur.gid x.tgt 32 x.va).2.1
  | .error _ => false
/-- The check says so. -/
theorem tiles_some {s : State} {x : Except Stop (List LaneAcc)} (h : tilesB s x = true) : ∃ xs, x = .ok xs ∧ xs ≠ [] ∧
    ∀ x ∈ xs, x.tgt.isRemote = false ∧ s.reaches s.cur.gid x.tgt false = true ∧ (s.readAt s.cur.gid x.tgt 32 x.va).2.1 = false := by
  cases x with
  | error => cases h
  | ok xs =>
    simp only [tilesB, Bool.and_eq_true, Bool.not_eq_true', List.all_eq_true, and_assoc] at h
    exact ⟨xs, rfl, by simpa using h.1, h.2⟩

/-- TLOAD and TSTORE of global memory: V1 and V2 name 0x3000. -/
theorem witness_TileTransfersBegin_global :
    Ready mems avHome [vdst 1 (tileAddrRegs false (mems.poolIdx 0)), tref 7] ∧
    (∀ x ∈ rowLanes mems 1 (tileAddrRegs false (mems.poolIdx 0)), (mems.g.vlane x.2 x.1).pois = false) ∧ mems.raceScope mems.cur.gid = none ∧
    (∃ xs, mems.rowAccs false (mems.poolIdx 0) (mems.immM 0 * 32) 1 false = .ok xs ∧ xs ≠ [] ∧
      ∀ x ∈ xs, x.tgt.isRemote = false ∧ mems.reaches mems.cur.gid x.tgt false = true ∧ (mems.readAt mems.cur.gid x.tgt 32 x.va).2.1 = false) ∧
    (∃ xs, mems.rowAccs false (mems.poolIdx 0) (mems.immM 0 * 32) 1 true = .ok xs) ∧ MemoryCanonical mems ∧
    L1Room mems mems.cur.gid (2 * mems.tileRows.length) :=
  ⟨ready (by decide), by decide, by decide, tiles_some (by decide +kernel), ok_some (by decide +kernel), canon_of (by decide), room_of (by decide)⟩

/-- Slot 7 with a list of two records whose index stands at 0x3000: 2^31 with a zero scale has no code. -/
def listed : State :=
  let s := array .core
  { s.modG fun g => { g with v := [(8, { val := 0x4F000000 }), (1, { val := 0x3F80 })] } with
    grids := [(1, { teams := 1, slots := leBytes 64 5 ++ List.replicate 384 0 ++ padTo 64 (record [(4, 7), (4, 2), (8, 0xFFFFE00000004000), (8, 0xFFFFE00000003000)]) })] }
/-- What QNT's clause asks of a batch that adds to a list. -/
def listB (s : State) (b : List Byte) (outs : List (Nat × Nat × Nat × Nat × Nat)) : Bool :=
  match outs with
  | [] => false
  | o :: _ => match s.locate o.1 (slotOindex b) 4 .write with | .ok x => okB (s.qntPlace b outs o.1 x) | .error _ => false
/-- The check says so. -/
theorem list_of {s : State} {b : List Byte} {outs : List (Nat × Nat × Nat × Nat × Nat)} (h : listB s b outs = true) :
    ∃ o os x, outs = o :: os ∧ s.locate o.1 (slotOindex b) 4 .write = .ok x ∧ s.qntPlace b outs o.1 x = .ok () := by
  cases outs with
  | nil => cases h
  | cons o os =>
    simp only [listB] at h
    cases hx : s.locate o.1 (slotOindex b) 4 .write with
    | error => simp [hx] at h
    | ok x => rw [hx] at h; exact ⟨o, os, x, rfl, hx, ok_of h⟩
theorem witness_QuantResults_list :
    listed.checkSlot 7 takesQ = .ok () ∧ listed.g.st < 63 ∧ listed.g.kind = .core ∧ slotCap (listed.slotBytes 7) = 2 ∧
    (∃ o os x, (listed.quantBatch (listed.slotFmt 7) (listed.slotBytes 7) (listed.g.sreg 15) 1 8).outs = o :: os ∧
      listed.locate o.1 (slotOindex (listed.slotBytes 7)) 4 .write = .ok x ∧
      listed.qntPlace (listed.slotBytes 7) (listed.quantBatch (listed.slotFmt 7) (listed.slotBytes 7) (listed.g.sreg 15) 1 8).outs o.1 x = .ok ()) ∧
    listed.qntGranted (listed.slotBytes 7) = .ok () :=
  ⟨ok_of (by decide +kernel), by decide, by decide, by decide +kernel, list_of (by decide +kernel), rfl⟩

/-- The group whose trap is due stands on the module. -/
theorem witness_ArrayEvents_resident : (seqDue.team (seqDue.grp 1).tid).phase = .resident ∧ (poisonDue.team (poisonDue.grp 1).tid).phase = .resident := by decide

/-- The push of a word of this die passes no link. -/
theorem witness_Watches_links : ∀ p ∈ (watcher [subAt]).pushes, (watcher [subAt]).pushCut p = false := by decide

/-- The copy's packet is accepted; no window is mapped; the team's context is not frozen. -/
theorem witness_CopyEvents_clauses : ((queued 3 false copyPkt).queue 3).refuse = none ∧ (∀ line, (synced.team 1).window line = none) ∧
    State.saveFrozen { one with teams := [(1, { one.tm with saving := some (0, true) })] } 1 = false :=
  ⟨by decide +kernel, no_window (by decide), by decide +kernel⟩

/-- A packet whose grid was refused before the queue could free it. -/
theorem witness_LaunchPackets_refused :
    ∃ t, PacketAt (queuedRec 7 2 (List.replicate 48 0) []) 255 2 0x10000 0x10040 t ∧
      ((queuedRec 7 2 (List.replicate 48 0) []).setQ 255 fun k => { k with refuse := some 8 }).queue 255 =
        { (queuedRec 7 2 (List.replicate 48 0) []).queue 255 with refuse := some 8 } := by
  obtain ⟨t, h, _⟩ := packet_at (s := queuedRec 7 2 (List.replicate 48 0) []) (q := 255) (kind := 2) (by decide +kernel)
  exact ⟨t, h, by decide +kernel⟩

/-- No window is mapped where a call completes; a sector of mailbox 3 is poisoned or is not. -/
theorem witness_CellarCalls_clauses :
    (∀ f line, ((endedCall f).team ((endedCall f).call 7).tid).window line = none) ∧ (∀ l ∈ mailing.batch, 8 * 3 + l / 2 ∉ (mailing.cellar mailing.g.place).boxPoison) :=
  ⟨fun f => no_window rfl, by decide⟩

/-- A swap passes no link here; a save of a frozen context does not go on. -/
theorem witness_TeamsComeAndGo_clauses :
    outTeam.swapCut 0 (outTeam.team 1).ctx = false ∧ (saving 0x1000000).swapCut ((saving 0x1000000).team 1).core ((saving 0x1000000).team 1).ctx = false ∧
    (saving 0).saveFrozen 1 = false ∧ State.saveFrozen { saving 0 with ctxs := [(0, { phase := .frozen })] } 1 = true ∧
    (((idle 1).l1BackAll 0).endSubs 1).cut 0 (dieOfPa 0x3000) = false := by decide +kernel

/-- A fibre that waits to depart is away for REJOIN; a crate of this die passes no link. -/
theorem witness_Migrations_clauses :
    (State.modG (goer 0 none) fun g => g.setF 5 fun f => { f with life := .live, wait := .depart }).g.rejoinWaits = true ∧
    (carrying { id := 5, bytes := crateOf 1 1, ret := true }).crateCut { id := 5, bytes := crateOf 1 1, ret := true } = false ∧
    (carrying { id := 5, bytes := crateOf 1 2, ret := true, endNotice := true }).crateCut { id := 5, bytes := crateOf 1 2, ret := true, endNotice := true } = false := by decide +kernel

end Sys2Proof.Tests
end

section
/-! SUPPORT. Device memory at its home: the L2s' list of dirty bytes over the stacks, and what a write of cells makes of both (09 R173). -/
namespace Sys2Proof.Machine

/-! ### The L2s' list -/

theorem l2get_cons (c : Host.Cell) (l : List Host.Cell) (a : Nat) : l2get (c :: l) a = if c.1 = a then some c.2 else l2get l a := rfl

theorem l2get_append (l m : List Host.Cell) (a : Nat) : l2get (l ++ m) a = (l2get l a).or (l2get m a) := by
  induction l with
  | nil => rfl
  | cons c l ih =>
    rw [List.cons_append, l2get_cons, l2get_cons, ih]
    split <;> rfl

theorem l2get_isSome (l : List Host.Cell) (a : Nat) : (l2get l a).isSome = l.any fun c => c.1 == a := by
  induction l with
  | nil => rfl
  | cons c l ih =>
    rw [l2get_cons, List.any_cons, ← ih]
    by_cases h : c.1 = a <;> simp [h]

theorem l2get_l2put (l : List Host.Cell) (c : Host.Cell) (a : Nat) : l2get (l2put l c) a = if c.1 = a then some c.2 else l2get l a := by
  induction l with
  | nil => rfl
  | cons d l ih =>
    rw [l2put]
    split
    · rfl
    · split
      · next h => simp only [l2get_cons, ← h]; split <;> rfl
      · next h => rw [l2get_cons, ih, l2get_cons]; split <;> split <;> simp_all

/-- The bytes that a filter by address leaves. -/
theorem l2get_filter (l : List Host.Cell) (p : Nat → Bool) (a : Nat) : l2get (l.filter fun c => p c.1) a = if p a then l2get l a else none := by
  induction l with
  | nil => exact (ite_self _).symm
  | cons c l ih =>
    by_cases hc : p c.1 = true
    · rw [List.filter_cons_of_pos (p := fun c : Host.Cell => p c.1) hc, l2get_cons, ih, l2get_cons]
      by_cases h : c.1 = a
      · simp [h, h ▸ hc]
      · simp [h]
    · rw [List.filter_cons_of_neg (p := fun c : Host.Cell => p c.1) hc, ih, l2get_cons]
      by_cases h : c.1 = a
      · simp [h ▸ hc]
      · simp [h]

/-- Cells put one after another: the last one of an address stands. -/
theorem l2get_foldl_l2put (cs l : List Host.Cell) (a : Nat) : l2get (cs.foldl l2put l) a = (l2get cs.reverse a).or (l2get l a) := by
  induction cs generalizing l with
  | nil => rfl
  | cons c cs ih =>
    rw [List.foldl_cons, ih, l2get_l2put, List.reverse_cons, l2get_append, l2get_cons, Option.or_assoc]
    split <;> rfl

theorem rising_iff {l : List Host.Cell} : rising l = true ↔ l.Pairwise fun a b => a.1 < b.1 := decide_eq_true_iff

theorem rising_filter {l : List Host.Cell} (h : rising l = true) (p : Host.Cell → Bool) : rising (l.filter p) = true :=
  rising_iff.2 ((rising_iff.1 h).filter p)

theorem mem_l2put {l : List Host.Cell} {c d : Host.Cell} (h : d ∈ l2put l c) : d = c ∨ d ∈ l := by
  induction l with
  | nil => simpa [l2put] using h
  | cons e l ih =>
    rw [l2put] at h
    split at h
    · simpa using h
    · split at h
      · simp only [List.mem_cons] at h ⊢; tauto
      · simp only [List.mem_cons] at h ⊢
        rcases h with h | h
        · exact .inr (.inl h)
        · exact (ih h).imp_right .inr

theorem rising_l2put {l : List Host.Cell} (h : rising l = true) (c : Host.Cell) : rising (l2put l c) = true := by
  rw [rising_iff] at h ⊢
  induction l with
  | nil => exact List.pairwise_singleton _ _
  | cons e l ih =>
    obtain ⟨he, hl⟩ := List.pairwise_cons.1 h
    rw [l2put]
    split
    · next hc => exact List.pairwise_cons.2 ⟨List.forall_mem_cons.2 ⟨hc, fun d hd => hc.trans (he d hd)⟩, h⟩
    · split
      · next hc => exact List.pairwise_cons.2 ⟨fun d hd => hc ▸ he d hd, hl⟩
      · next hc hc' =>
        refine List.pairwise_cons.2 ⟨fun d hd => ?_, ih hl⟩
        rcases mem_l2put hd with rfl | hd
        · exact Nat.lt_of_le_of_ne (Nat.le_of_not_lt hc) (Ne.symm hc')
        · exact he d hd

theorem rising_foldl_l2put {l : List Host.Cell} (h : rising l = true) (cs : List Host.Cell) : rising (cs.foldl l2put l) = true := by
  induction cs generalizing l with
  | nil => exact h
  | cons c cs ih => exact ih (rising_l2put h c)

/-- In a rising list no address stands twice, so its order does not matter. -/
theorem l2get_reverse {l : List Host.Cell} (h : rising l = true) (a : Nat) : l2get l.reverse a = l2get l a := by
  rw [rising_iff] at h
  induction l with
  | nil => rfl
  | cons c l ih =>
    obtain ⟨hc, hl⟩ := List.pairwise_cons.1 h
    rw [List.reverse_cons, l2get_append, ih hl, l2get_cons, l2get_cons]
    split
    · next ha =>
      have hn : l2get l a = none := by
        rw [← Option.not_isSome_iff_eq_none, l2get_isSome]
        simp only [List.any_eq_true, beq_iff_eq, not_exists, not_and]
        exact fun d hd => Ne.symm (ha ▸ Nat.ne_of_lt (hc d hd))
      rw [hn]; rfl
    · exact Option.or_none

/-! ### Cells written to a memory -/

theorem wf_foldl_mwrite {m : Memory} (h : m.wf = true) (cs : List Host.Cell) : (cs.foldl (fun m c => mwrite m c.1 c.2) m).wf = true := by
  induction cs generalizing m with
  | nil => exact h
  | cons c cs ih => exact ih (wf_mwrite h _ _)

theorem mread_foldl_mwrite {m : Memory} (h : m.wf = true) (cs : List Host.Cell) (a : Nat) :
    mread (cs.foldl (fun m c => mwrite m c.1 c.2) m) a = (l2get cs.reverse a).getD (mread m a) := by
  induction cs generalizing m with
  | nil => rfl
  | cons c cs ih =>
    rw [List.foldl_cons, ih (wf_mwrite h _ _), mread_mwrite h, List.reverse_cons, l2get_append, l2get_cons]
    cases l2get cs.reverse a with
    | some b => rfl
    | none =>
      by_cases hc : c.1 = a
      · simp [hc]
      · simp [hc, Ne.symm hc, l2get]

theorem mread_mwrites {m : Memory} (h : m.wf = true) (off : Nat) (bs : List Byte) (a : Nat) :
    mread (mwrites m off bs) a = if off ≤ a ∧ a < off + bs.length then bs.getD (a - off) 0 else mread m a := by
  induction bs generalizing m off with
  | nil => rw [mwrites, if_neg (by simp)]
  | cons b bs ih =>
    rw [mwrites, ih (wf_mwrite h _ _), mread_mwrite h, List.length_cons]
    by_cases ha : a = off
    · subst ha; simp
    · by_cases h1 : off + 1 ≤ a ∧ a < off + 1 + bs.length
      · rw [if_pos h1, if_pos (by omega), show a - off = a - (off + 1) + 1 by omega, List.getD_cons_succ]
      · rw [if_neg h1, if_neg ha, if_neg (by omega)]

/-! ### The cells of whole bytes -/

theorem fullMask_cons (b : Byte) (bs : List Byte) : fullMask (b :: bs) % 2 = 1 ∧ fullMask (b :: bs) / 2 = fullMask bs := by
  have h : 0 < 2 ^ bs.length := Nat.two_pow_pos _
  simp only [fullMask, List.length_cons, Nat.pow_succ]
  omega

theorem cellsOf_full_cons (a : Nat) (b : Byte) (bs : List Byte) :
    cellsOf a (fullMask (b :: bs)) (b :: bs) = (a, b) :: cellsOf (a + 1) (fullMask bs) bs := by
  rw [cellsOf, (fullMask_cons b bs).1, (fullMask_cons b bs).2, if_pos rfl]

theorem cellsOf_full_addrs (pa : Nat) (bs : List Byte) : (cellsOf pa (fullMask bs) bs).map (·.1) = List.range' pa bs.length := by
  induction bs generalizing pa with
  | nil => rfl
  | cons b bs ih => rw [cellsOf_full_cons, List.map_cons, ih, List.length_cons, List.range'_succ]

/-- Where the cells of whole bytes stand, and what they hold. -/
theorem l2get_cellsOf_full (pa : Nat) (bs : List Byte) (a : Nat) :
    l2get (cellsOf pa (fullMask bs) bs) a = if pa ≤ a ∧ a < pa + bs.length then some (bs.getD (a - pa) 0) else none := by
  induction bs generalizing pa with
  | nil => rw [cellsOf, if_neg (by simp)]; rfl
  | cons b bs ih =>
    rw [cellsOf_full_cons, l2get_cons, ih, List.length_cons]
    by_cases ha : pa = a
    · subst ha; simp
    · by_cases h1 : pa + 1 ≤ a ∧ a < pa + 1 + bs.length
      · rw [if_pos h1, if_neg ha, if_pos (by omega), show a - pa = a - (pa + 1) + 1 by omega, List.getD_cons_succ]
      · rw [if_neg h1, if_neg ha, if_neg (by omega)]

theorem rising_cellsOf_full (pa : Nat) (bs : List Byte) : rising (cellsOf pa (fullMask bs) bs) = true := by
  rw [rising_iff, ← List.pairwise_map (R := (· < ·)), cellsOf_full_addrs]
  exact List.pairwise_lt_range'

/-- The last cell of an address among those of whole bytes. -/
theorem l2get_cellsOf_full_reverse (pa : Nat) (bs : List Byte) (a : Nat) :
    l2get (cellsOf pa (fullMask bs) bs).reverse a = if pa ≤ a ∧ a < pa + bs.length then some (bs.getD (a - pa) 0) else none := by
  rw [l2get_reverse (rising_cellsOf_full pa bs), l2get_cellsOf_full]

end Sys2Proof.Machine
end

section
/-! SUPPORT. What the path to device memory leaves as it is, and what a write at the home slices makes of the bytes there (09 R173; 10 R178). -/
namespace Sys2Proof.Machine

/-! ### What the path to memory leaves -/

/-- A die with its L2 lines and its fault buffer's counts and records as another has them. -/
def Die.withPathOf (d e : Die) : Die := { d with l2 := e.l2, widx := e.widx, records := e.records, drop := e.drop, waiting := e.waiting }

/-- A core with its L1, its write-combining buffer as another has them. -/
def Core.withPathOf (c e : Core) : Core := { c with l1 := e.l1, wc := e.wc }

/-- A state with what the path to memory uses as another has it: device memory and the L2s, the directory, subscriptions, requests and packets,
fault records, the race detector's, the units whose waiting a write may end. -/
def State.withPathOf (t s : State) : State :=
  { t with mem := s.mem, l2 := s.l2, dir := s.dir, poison := s.poison, dies := s.dies, cores := s.cores, ctxs := s.ctxs, queues := s.queues,
           grids := s.grids, pegs := s.pegs, pushes := s.pushes, ports := s.ports, wire := s.wire, reqs := s.reqs, nextId := s.nextId,
           fresh := s.fresh, routeOld := s.routeOld, msiDue := s.msiDue, resyncCounters := s.resyncCounters, raceOn := s.raceOn, shadow := s.shadow }

/-- t is s but for what the path to memory uses: groups, teams, stacks, clusters, cellar cores, calls, host memory and the rest are as they were. -/
structure PathKept (s t : State) : Prop where
  rest : t.withPathOf s = s
  dies : ∀ k, (t.die k).withPathOf (s.die k) = s.die k
  cores : ∀ k, (t.core k).withPathOf (s.core k) = s.core k

namespace PathKept
variable {s t u : State}

theorem refl (s : State) : PathKept s s := ⟨rfl, fun _ => rfl, fun _ => rfl⟩

theorem trans (h : PathKept s t) (k : PathKept t u) : PathKept s u where
  rest := (congrArg (fun x : State => x.withPathOf s) k.rest).trans h.rest
  dies n := (congrArg (fun x : Die => x.withPathOf (s.die n)) (k.dies n)).trans (h.dies n)
  cores n := (congrArg (fun x : Core => x.withPathOf (s.core n)) (k.cores n)).trans (h.cores n)

/-- A change that touches no die and no core. -/
theorem of_rest (hd : t.dies = s.dies) (hc : t.cores = s.cores) (h : t.withPathOf s = s) : PathKept s t :=
  ⟨h, fun k => by rw [show t.die k = s.die k from congrArg (fun x => tget ({} : Die) x k) hd]; rfl,
    fun k => by rw [show t.core k = s.core k from congrArg (fun x => tget ({} : Core) x k) hc]; rfl⟩

theorem foldl {α : Type} {f : State → α → State} (hf : ∀ s a, PathKept s (f s a)) (l : List α) (s : State) : PathKept s (l.foldl f s) := by
  induction l generalizing s with
  | nil => exact refl s
  | cons a l ih => exact (hf s a).trans (ih _)

theorem groups (h : PathKept s t) : t.groups = s.groups := (congrArg State.groups h.rest :)
theorem teams (h : PathKept s t) : t.teams = s.teams := (congrArg State.teams h.rest :)
theorem memStacks (h : PathKept s t) : t.memStacks = s.memStacks := (congrArg State.memStacks h.rest :)
theorem clusters (h : PathKept s t) : t.clusters = s.clusters := (congrArg State.clusters h.rest :)
theorem cellars (h : PathKept s t) : t.cellars = s.cellars := (congrArg State.cellars h.rest :)
theorem calls (h : PathKept s t) : t.calls = s.calls := (congrArg State.calls h.rest :)
theorem hostMem (h : PathKept s t) : t.hostMem = s.hostMem := (congrArg State.hostMem h.rest :)
theorem down (h : PathKept s t) : t.down = s.down := (congrArg State.down h.rest :)
theorem loft (h : PathKept s t) (k : Nat) : (t.die k).loft = (s.die k).loft := (congrArg Die.loft (h.dies k) :)
theorem spares (h : PathKept s t) (k : Nat) : (t.die k).spares = (s.die k).spares := (congrArg Die.spares (h.dies k) :)
theorem fbbase (h : PathKept s t) (k : Nat) : (t.die k).fbbase = (s.die k).fbbase := (congrArg Die.fbbase (h.dies k) :)
theorem ridx (h : PathKept s t) (k : Nat) : (t.die k).ridx = (s.die k).ridx := (congrArg Die.ridx (h.dies k) :)
theorem out (h : PathKept s t) (k : Nat) : (t.core k).out = (s.core k).out := (congrArg Core.out (h.cores k) :)

end PathKept

theorem State.setD_pathKept (s : State) (n : Nat) (f : Die → Die) (hf : ∀ d, (f d).withPathOf d = d := by exact fun _ => rfl) :
    PathKept s (s.setD n f) := by
  refine ⟨rfl, fun k => ?_, fun _ => rfl⟩
  by_cases h : k = n
  · subst h; rw [State.setD_die_same]; exact hf _
  · rw [State.setD_die_other _ _ _ _ h]; rfl

theorem State.setC_pathKept (s : State) (n : Nat) (f : Core → Core) (hf : ∀ c, (f c).withPathOf c = c := by exact fun _ => rfl) :
    PathKept s (s.setC n f) := by
  refine ⟨rfl, fun _ => rfl, fun k => ?_⟩
  by_cases h : k = n
  · subst h; rw [State.setC_core_same]; exact hf _
  · rw [State.setC_core_other _ _ _ _ h]; rfl

/-! ### Bytes that stay where the home serves them -/

/-- Device memory and the L2s' bytes above it in canonical form. -/
structure DeviceCanonical (s : State) : Prop where
  mem : s.mem.wf = true
  l2 : rising s.l2 = true

/-- A step that keeps device memory's canonical form, and every byte as the home serves it. -/
def SameDevice (s t : State) : Prop := DeviceCanonical s → DeviceCanonical t ∧ ∀ a, t.homeByte a = s.homeByte a

namespace SameDevice
variable {s t u : State}

theorem of_eq (hm : t.mem = s.mem) (hl : t.l2 = s.l2) : SameDevice s t := fun h =>
  ⟨⟨hm ▸ h.mem, hl ▸ h.l2⟩, fun a => by rw [State.homeByte, hm, hl]; rfl⟩

theorem refl (s : State) : SameDevice s s := .of_eq rfl rfl

theorem trans (h : SameDevice s t) (k : SameDevice t u) : SameDevice s u := fun hs =>
  have ⟨ht, e⟩ := h hs
  have ⟨hu, e'⟩ := k ht
  ⟨hu, fun a => (e' a).trans (e a)⟩

theorem foldl {α : Type} {f : State → α → State} (hf : ∀ s a, SameDevice s (f s a)) (l : List α) (s : State) :
    SameDevice s (l.foldl f s) := by
  induction l generalizing s with
  | nil => exact refl s
  | cons a l ih => exact (hf s a).trans (ih _)

end SameDevice

/-- A step on the path to memory that moves no byte of device memory and writes no fault record. -/
structure Noted (s t : State) : Prop where
  path : PathKept s t
  widx : ∀ k, (t.die k).widx = (s.die k).widx
  mem : t.mem = s.mem
  l2 : t.l2 = s.l2
  poison : t.poison = s.poison

namespace Noted
variable {s t u : State}

theorem refl (s : State) : Noted s s := ⟨.refl s, fun _ => rfl, rfl, rfl, rfl⟩

theorem trans (h : Noted s t) (k : Noted t u) : Noted s u :=
  ⟨h.path.trans k.path, fun n => (k.widx n).trans (h.widx n), k.mem.trans h.mem, k.l2.trans h.l2, k.poison.trans h.poison⟩

theorem foldl {α : Type} {f : State → α → State} (hf : ∀ s a, Noted s (f s a)) (l : List α) (s : State) : Noted s (l.foldl f s) := by
  induction l generalizing s with
  | nil => exact refl s
  | cons a l ih => exact (hf s a).trans (ih _)

theorem same (h : Noted s t) : SameDevice s t := .of_eq h.mem h.l2

theorem homeByte (h : Noted s t) (a : Nat) : t.homeByte a = s.homeByte a := by rw [State.homeByte, h.mem, h.l2]; rfl

/-- A change that touches no die, no core and no memory. -/
theorem of_rest (hd : t.dies = s.dies) (hc : t.cores = s.cores) (hm : t.mem = s.mem) (hl : t.l2 = s.l2) (hp : t.poison = s.poison)
    (h : t.withPathOf s = s) : Noted s t :=
  ⟨.of_rest hd hc h, fun k => congrArg (fun x => (tget ({} : Die) x k).widx) hd, hm, hl, hp⟩

end Noted

theorem State.setD_noted (s : State) (n : Nat) (f : Die → Die) (hf : ∀ d, (f d).withPathOf d = d := by exact fun _ => rfl)
    (hw : ∀ d, (f d).widx = d.widx := by exact fun _ => rfl) : Noted s (s.setD n f) := by
  refine ⟨s.setD_pathKept n f hf, fun k => ?_, rfl, rfl, rfl⟩
  by_cases h : k = n
  · subst h; rw [State.setD_die_same, hw]
  · rw [State.setD_die_other _ _ _ _ h]

theorem State.setC_noted (s : State) (n : Nat) (f : Core → Core) (hf : ∀ c, (f c).withPathOf c = c := by exact fun _ => rfl) :
    Noted s (s.setC n f) :=
  ⟨s.setC_pathKept n f hf, fun _ => rfl, rfl, rfl, rfl⟩

theorem State.poison_pathKept (s : State) (qs : List Nat) : PathKept s { s with poison := qs } := .of_rest rfl rfl rfl

theorem State.pick_noted (s : State) (n : Nat) : Noted s (s.pick n).2 := .of_rest rfl rfl rfl rfl rfl rfl

theorem State.setDir_noted (s : State) (line : Nat) (e : DirEntry) : Noted s (s.setDir line e) := .of_rest rfl rfl rfl rfl rfl rfl

/-! ### Packets and pushes -/

theorem State.emit_noted (s : State) (p : Packet) : Noted s (s.emit p) := by
  unfold State.emit
  split
  · exact .of_rest rfl rfl rfl rfl rfl rfl
  · exact .of_rest rfl rfl rfl rfl rfl rfl

theorem State.routeLook_noted (s : State) (node : Nat) : Noted s (s.routeLook node).2 := by
  unfold State.routeLook
  split
  · exact .refl s
  · next old _ => exact s.pick_noted (old.length + 1)

theorem State.sendPort_noted (s : State) (ctx node va : Nat) : Noted s (s.sendPort ctx node va).2 := s.routeLook_noted node

theorem State.portFrom_noted (s : State) (die ctx node va : Nat) : Noted s (s.portFrom die ctx node va).2 := by
  have h := s.sendPort_noted ctx node va
  unfold State.portFrom
  generalize s.sendPort ctx node va = x at h
  obtain ⟨_ | p, u⟩ := x
  · exact h
  · exact h

theorem State.sendPush_noted (s : State) (p : Peg) (val : Nat) : Noted s (s.sendPush p val) := by
  unfold State.sendPush
  split
  · have h := s.portFrom_noted (dieOfPa p.pa) p.ctx p.node p.va
    generalize s.portFrom (dieOfPa p.pa) p.ctx p.node p.va = x at h
    obtain ⟨_ | port, u⟩ := x
    · exact h.trans (.of_rest rfl rfl rfl rfl rfl rfl)
    · exact h.trans (u.emit_noted _)
  · exact .of_rest rfl rfl rfl rfl rfl rfl

theorem State.pegOne_noted (old s : State) (p : Peg) : Noted s (State.pegOne old s p).2 := by
  unfold State.pegOne
  split
  · exact .refl s
  · exact s.sendPush_noted _ _

theorem State.pegAll_noted (old : State) (ps : List Peg) (s : State) : Noted s (State.pegAll old ps s).2 := by
  induction ps generalizing s with
  | nil => exact .refl s
  | cons p ps ih => exact (State.pegOne_noted old s p).trans (ih _)

theorem State.pegged_noted (old s : State) : Noted s (State.pegged old s) :=
  (State.pegAll_noted old s.pegs s).trans (.of_rest rfl rfl rfl rfl rfl rfl)

theorem State.pokeQueues_noted (s : State) (hit : Target → Bool) : Noted s (s.pokeQueues hit) := .of_rest rfl rfl rfl rfl rfl rfl

theorem State.pokeDeps_noted (s : State) (hit : Target → Bool) : Noted s (s.pokeDeps hit) := .of_rest rfl rfl rfl rfl rfl rfl

theorem State.noteRoutes_noted (s : State) (cs : List Host.Cell) : Noted s (s.noteRoutes cs) := by
  unfold State.noteRoutes
  split
  · exact .refl s
  · exact .of_rest rfl rfl rfl rfl rfl rfl

/-! ### The L2s' lines -/

theorem State.l2Written_noted (s : State) (w : Option Nat) (line : Nat) : Noted s (s.l2Written w line) :=
  (Noted.foldl (f := fun s d => s.setD d fun k => { k with l2 := k.l2.filter (· != line) }) (fun s d => s.setD_noted d _) _ s).trans
    (State.setDir_noted _ _ _)

/-- Dirty bytes of a line that go to the stack read there as they read in the L2. -/
theorem State.l2Back_same (s : State) (line : Nat) : SameDevice s (s.l2Back line) := fun h => by
  refine ⟨⟨wf_foldl_mwrite h.mem _, rising_filter h.l2 _⟩, fun a => ?_⟩
  simp only [State.homeByte, State.l2Back, mread_foldl_mwrite h.mem, l2get_reverse (rising_filter h.l2 _)]
  rw [l2get_filter s.l2 (fun b => b / 256 != line), l2get_filter s.l2 (fun b => b / 256 == line)]
  by_cases ha : a / 256 = line
  · simp [ha]
  · simp [ha]

theorem State.l2Back_pathKept (s : State) (line : Nat) : PathKept s (s.l2Back line) := .of_rest rfl rfl rfl

theorem State.l2Evict_keeps (s : State) (die line : Nat) : PathKept s (s.l2Evict die line) ∧ SameDevice s (s.l2Evict die line) := by
  have h := s.setD_noted die (fun k => { k with l2 := k.l2.filter (· != line) })
  unfold State.l2Evict
  simp only
  split
  · exact ⟨h.path.trans (State.l2Back_pathKept _ _), h.same.trans (State.l2Back_same _ _)⟩
  · exact ⟨h.path.trans (State.setDir_noted _ line _).path, h.same.trans (State.setDir_noted _ line _).same⟩

theorem State.l2Hold_keeps (s : State) (die line : Nat) : PathKept s (s.l2Hold die line) ∧ SameDevice s (s.l2Hold die line) := by
  have last := fun u : State => u.setD_noted die (fun k => { k with l2 := k.l2 ++ [line] })
  unfold State.l2Hold
  split
  · exact ⟨.refl s, .refl s⟩
  · simp only
    split
    · exact ⟨(last s).path, (last s).same⟩
    · obtain ⟨p, e⟩ := (s.pick _).2.l2Evict_keeps die ((((s.die die).l2.filter fun l => l2Slice l == l2Slice line).drop (s.pick _).1).headD 0)
      have hp := s.pick_noted ((s.die die).l2.filter fun l => l2Slice l == l2Slice line).length
      exact ⟨(hp.path.trans p).trans (last _).path, (hp.same.trans e).trans (last _).same⟩

/-- The lines of a write noted: below the L2s no byte moves, in the L2s a line may be given up. -/
theorem State.l2Note_noted (s : State) (pol : Nat) (hp : 1 < pol) (cs : List Host.Cell) (w : Option Nat) : Noted s (s.l2Note pol cs w) := by
  refine Noted.foldl (fun s line => ?_) _ s
  simp only [Nat.not_le.2 hp, if_false]
  split
  · exact s.l2Written_noted w line
  · exact .refl s

theorem State.l2Note_keeps (s : State) (pol : Nat) (cs : List Host.Cell) (w : Option Nat) :
    PathKept s (s.l2Note pol cs w) ∧ SameDevice s (s.l2Note pol cs w) := by
  have one (s : State) (line : Nat) : PathKept s (if thas s.dir line then s.l2Written w line else s) ∧
      SameDevice s (if thas s.dir line then s.l2Written w line else s) := by
    split
    · exact ⟨(s.l2Written_noted w line).path, (s.l2Written_noted w line).same⟩
    · exact ⟨.refl s, .refl s⟩
  have both (s : State) (line : Nat) := (if thas s.dir line then s.l2Written w line else s).l2Hold_keeps (lineDie line) line
  constructor
  · refine PathKept.foldl (fun s line => ?_) _ s
    simp only
    split
    · exact (one s line).1.trans (both s line).1
    · exact (one s line).1
  · refine SameDevice.foldl (fun s line => ?_) _ s
    simp only
    split
    · exact (one s line).2.trans (both s line).2
    · exact (one s line).2

/-! ### A write at the home -/

theorem State.homePut_canonical {s : State} (h : DeviceCanonical s) (pol : Nat) (cs : List Host.Cell) : DeviceCanonical (s.homePut pol cs) := by
  unfold State.homePut
  split
  · exact ⟨h.mem, rising_foldl_l2put h.l2 cs⟩
  · exact ⟨wf_foldl_mwrite h.mem cs, rising_filter h.l2 _⟩

/-- Cells placed: the last cell of an address, else what stood there. -/
theorem State.homePut_homeByte {s : State} (h : s.mem.wf = true) (pol : Nat) (cs : List Host.Cell) (a : Nat) :
    (s.homePut pol cs).homeByte a = (l2get cs.reverse a).getD (s.homeByte a) := by
  unfold State.homePut
  split
  · simp only [State.homeByte, l2get_foldl_l2put]
    cases l2get cs.reverse a <;> rfl
  · simp only [State.homeByte, mread_foldl_mwrite h, l2get_filter s.l2 (fun b => !(cs.any fun c => c.1 == b))]
    have hs : (cs.any fun c => c.1 == a) = (l2get cs.reverse a).isSome := by rw [l2get_isSome, List.any_reverse]
    rw [hs]
    cases l2get cs.reverse a <;> simp

/-- What a write at the home does after its cells are placed: sectors take new check bits, subscriptions, queues and dependence words notice. -/
def State.homeNoticed (old t : State) (cs : List Host.Cell) : State :=
  ((State.pegged old { t with poison := t.poison.filter fun q => !coversSector cs q }).pokeQueues (devHit cs 8)).pokeDeps (devHit cs 4)

theorem State.homeCells_eq (s : State) (pol : Nat) (cs : List Host.Cell) (w : Option Nat) (hp : pol ≠ 3) (hc : cs ≠ []) :
    s.homeCells pol cs w = State.homeNoticed (s.noteRoutes cs) (((s.noteRoutes cs).homePut pol cs).l2Note pol cs w) cs := by
  unfold State.homeCells
  simp only [List.isEmpty_iff, hc, if_false, hp]
  rfl

theorem State.homeNoticed_noted (old t : State) (cs : List Host.Cell) :
    Noted { t with poison := t.poison.filter fun q => !coversSector cs q } (State.homeNoticed old t cs) :=
  ((State.pegged_noted _ _).trans (State.pokeQueues_noted _ _)).trans (State.pokeDeps_noted _ _)

theorem State.homeNoticed_pathKept (old t : State) (cs : List Host.Cell) : PathKept t (State.homeNoticed old t cs) :=
  (t.poison_pathKept _).trans (State.homeNoticed_noted old t cs).path

theorem State.homeNoticed_same (old t : State) (cs : List Host.Cell) : SameDevice t (State.homeNoticed old t cs) :=
  .of_eq (State.homeNoticed_noted old t cs).mem (State.homeNoticed_noted old t cs).l2

theorem State.homePut_pathKept (s : State) (pol : Nat) (cs : List Host.Cell) : PathKept s (s.homePut pol cs) := by
  unfold State.homePut
  split
  · exact .of_rest rfl rfl rfl
  · exact .of_rest rfl rfl rfl

theorem State.homeCells_nil (s : State) (pol : Nat) (w : Option Nat) : s.homeCells pol [] w = s.noteRoutes [] := rfl

theorem State.homeCells_pathKept (s : State) (pol : Nat) (cs : List Host.Cell) (w : Option Nat := none) : PathKept s (s.homeCells pol cs w) := by
  have h := (s.noteRoutes_noted cs).path
  by_cases hc : cs = []
  · subst hc; exact h
  by_cases hp : pol = 3
  · unfold State.homeCells
    simp only [List.isEmpty_iff, hc, if_false, hp, if_true]
    exact h.trans (.of_rest rfl rfl rfl)
  · rw [s.homeCells_eq pol cs w hp hc]
    exact ((h.trans (State.homePut_pathKept _ pol cs)).trans (State.l2Note_keeps _ pol cs w).1).trans (State.homeNoticed_pathKept _ _ _)

/-- After a write at the home every byte is the last cell of its address, else as it was (09 R173). -/
theorem State.homeCells_homeByte {s : State} (h : DeviceCanonical s) (pol : Nat) (cs : List Host.Cell) (w : Option Nat) (hp : pol ≠ 3) (a : Nat) :
    (s.homeCells pol cs w).homeByte a = (l2get cs.reverse a).getD (s.homeByte a) := by
  have hn := s.noteRoutes_noted cs
  by_cases hc : cs = []
  · subst hc; exact hn.homeByte a
  have h0 := (hn.same h).1
  have h1 := State.homePut_canonical h0 pol cs
  have h2 := (State.l2Note_keeps _ pol cs w).2 h1
  rw [s.homeCells_eq pol cs w hp hc, (State.homeNoticed_same _ _ cs h2.1).2, h2.2, State.homePut_homeByte h0.mem, hn.homeByte]

/-- The same below the L2s, where only device memory's form matters: no line is given up. -/
theorem State.homeCells_homeByte_uncached {s : State} (h : s.mem.wf = true) (cs : List Host.Cell) (w : Option Nat) (a : Nat) :
    (s.homeCells 2 cs w).homeByte a = (l2get cs.reverse a).getD (s.homeByte a) := by
  have hn := s.noteRoutes_noted cs
  by_cases hc : cs = []
  · subst hc; exact hn.homeByte a
  rw [s.homeCells_eq 2 cs w (by decide) hc, State.homeByte, (State.homeNoticed_noted _ _ cs).mem, (State.homeNoticed_noted _ _ cs).l2]
  exact ((State.l2Note_noted _ 2 (by decide) cs w).homeByte a).trans
    (by rw [State.homePut_homeByte (hn.mem ▸ h), hn.homeByte])

theorem State.homeCells_canonical {s : State} (h : DeviceCanonical s) (pol : Nat) (cs : List Host.Cell) (w : Option Nat := none) :
    DeviceCanonical (s.homeCells pol cs w) := by
  have h0 := ((s.noteRoutes_noted cs).same h).1
  by_cases hc : cs = []
  · subst hc; exact h0
  by_cases hp : pol = 3
  · unfold State.homeCells
    simp only [List.isEmpty_iff, hc, if_false, hp, if_true]
    exact ⟨wf_foldl_mwrite h0.mem cs, h0.l2⟩
  · have h2 := (State.l2Note_keeps _ pol cs w).2 (State.homePut_canonical h0 pol cs)
    rw [s.homeCells_eq pol cs w hp hc]
    exact (State.homeNoticed_same _ _ cs h2.1).1

/-- A write of a cellar call's core stands in its stack alone (01 R16). -/
theorem State.homeCells_stack (s : State) (cs : List Host.Cell) (w : Option Nat) :
    (s.homeCells 3 cs w).l2 = s.l2 ∧ (s.mem.wf = true → ∀ a, mread (s.homeCells 3 cs w).mem a = (l2get cs.reverse a).getD (mread s.mem a)) := by
  have hn := s.noteRoutes_noted cs
  by_cases hc : cs = []
  · subst hc; exact ⟨hn.l2, fun _ a => by rw [State.homeCells_nil, hn.mem]; rfl⟩
  unfold State.homeCells
  simp only [List.isEmpty_iff, hc, if_false, if_true]
  exact ⟨hn.l2, fun h a => by rw [mread_foldl_mwrite (hn.mem ▸ h), hn.mem]⟩

end Sys2Proof.Machine
end

section
/-! SUPPORT. Fault records, the L1s, the race detector's records and requests to other modules keep to the path to memory. -/
namespace Sys2Proof.Machine

/-- A step on the path to memory that keeps device memory's canonical form. -/
structure OnPath (s t : State) : Prop where
  path : PathKept s t
  canonical : DeviceCanonical s → DeviceCanonical t

namespace OnPath
variable {s t u : State}

theorem refl (s : State) : OnPath s s := ⟨.refl s, id⟩

theorem trans (h : OnPath s t) (k : OnPath t u) : OnPath s u := ⟨h.path.trans k.path, k.canonical ∘ h.canonical⟩

theorem foldl {α : Type} {f : State → α → State} (hf : ∀ s a, OnPath s (f s a)) (l : List α) (s : State) : OnPath s (l.foldl f s) := by
  induction l generalizing s with
  | nil => exact refl s
  | cons a l ih => exact (hf s a).trans (ih _)

end OnPath

theorem Noted.onPath {s t : State} (h : Noted s t) : OnPath s t := ⟨h.path, fun hs => (h.same hs).1⟩

theorem State.homeCells_onPath (s : State) (pol : Nat) (cs : List Host.Cell) (w : Option Nat := none) : OnPath s (s.homeCells pol cs w) :=
  ⟨s.homeCells_pathKept pol cs w, fun h => State.homeCells_canonical h pol cs w⟩

theorem State.poison_onPath (s : State) (qs : List Nat) : OnPath s { s with poison := qs } :=
  ⟨s.poison_pathKept qs, fun h => ⟨h.mem, h.l2⟩⟩

theorem State.setD_onPath (s : State) (n : Nat) (f : Die → Die) (hf : ∀ d, (f d).withPathOf d = d := by exact fun _ => rfl) :
    OnPath s (s.setD n f) :=
  ⟨s.setD_pathKept n f hf, fun h => ⟨h.mem, h.l2⟩⟩

/-! ### Fault records (17 R336, R337; 16 R324) -/

theorem State.raise_noted (s : State) (v : Nat) : Noted s (s.raise v) := by
  unfold State.raise
  split
  · exact .refl s
  · exact .of_rest rfl rfl rfl rfl rfl rfl

theorem State.tally_noted (s : State) (k : Nat) : Noted s (s.tally k) := .of_rest rfl rfl rfl rfl rfl rfl

theorem State.fbWrite_onPath (s : State) (r : FaultRec) : OnPath s (s.fbWrite r) :=
  ((s.homeCells_onPath _ _).trans (State.setD_onPath _ _ _)).trans (State.raise_noted _ _).onPath

theorem State.postLoose_onPath (s : State) (die : Nat) (bytes : List Byte) : OnPath s (s.postLoose die bytes) := by
  unfold State.postLoose
  split
  · exact ((s.setD_noted _ _).trans (State.tally_noted _ _)).onPath
  · split
    · exact (s.setD_noted _ _).onPath
    · exact s.fbWrite_onPath _

theorem State.postHeld_onPath (s : State) (r : FaultRec) : OnPath s (s.postHeld r) := by
  unfold State.postHeld
  simp only
  split
  · exact (s.setD_noted _ _).onPath
  · split
    · exact (s.setD_noted _ _).onPath
    · exact s.fbWrite_onPath _

theorem State.setX_noted (s : State) (n : Nat) (f : Ctx → Ctx) : Noted s (s.setX n f) := .of_rest rfl rfl rfl rfl rfl rfl

theorem State.freezeCtx_onPath (s : State) (die ctx event master who pc addr detail gid : Nat) :
    OnPath s (s.freezeCtx die ctx event master who pc addr detail gid) :=
  (s.postHeld_onPath _).trans (State.setX_noted _ _ _).onPath

theorem State.lostWrite_onPath (s : State) (gid reason va detail : Nat) : OnPath s (s.lostWrite gid reason va detail) := s.postLoose_onPath _ _

/-! ### The L1s (09 R172) -/

theorem State.l1Lost_onPath (s : State) (core ctx va : Nat) (user : Bool) : OnPath s (s.l1Lost core ctx va user) := by
  unfold State.l1Lost
  simp only
  split
  · exact (s.postLoose_onPath _ _).trans (State.freezeCtx_onPath _ _ _ _ _ _ _ _ _ _)
  · exact s.postLoose_onPath _ _

theorem State.l1BackLine_onPath (s : State) (core : Nat) (p : Nat → L1Byte → Bool) (line : Nat) (old : Bool) :
    OnPath s (s.l1BackLine core p line old) := by
  unfold State.l1BackLine
  extract_lets mine fates goes lost s1 s2 s3
  have h1 : OnPath s s1 := s.homeCells_onPath _ _ _
  have h2 : OnPath s s2 := h1.trans (s1.poison_onPath _)
  have h3 : OnPath s s3 := h2.trans (s2.setC_noted core _).onPath
  clear_value s3 lost
  split
  · exact h3.trans (s3.l1Lost_onPath _ _ _ _)
  · exact h3

theorem State.l1Back_onPath (s : State) (core : Nat) (p : Nat → L1Byte → Bool) (old : Bool) : OnPath s (s.l1Back core p old) :=
  .foldl (fun s l => s.l1BackLine_onPath core p l old) _ s

theorem State.l1Drop_noted (s : State) (core : Nat) (p : Nat → L1Byte → Bool) : Noted s (s.l1Drop core p) :=
  s.setC_noted core _

theorem State.l1Flush_onPath (s : State) (core line : Nat) : OnPath s (s.l1Flush core line) :=
  (s.l1Back_onPath core _ _).trans (State.l1Drop_noted _ _ _).onPath

theorem State.l1Trim_onPath (s : State) (core : Nat) (keep : List Nat) (k : Nat) : OnPath s (s.l1Trim core keep k) := by
  induction k generalizing s with
  | zero => exact .refl s
  | succ k ih =>
    have hp := (s.pick_noted (s.core core).l1Lines.length).onPath
    rw [State.l1Trim]
    simp only
    split
    · exact .refl s
    · split
      · exact (hp.trans (State.l1Flush_onPath _ _ _)).trans (ih _)
      · exact hp

theorem State.l1Store_onPath (s : State) (core ctx a va : Nat) (bs : List Byte) : OnPath s (s.l1Store core ctx a va bs) :=
  (s.setC_noted core _).onPath.trans (State.l1Trim_onPath _ _ _ _)

/-! ### The race detector's records (10 R202, R203) -/

theorem State.raceSeen_noted (s : State) (die ctx va : Nat) : Noted s (s.raceSeen die ctx va) := by
  unfold State.raceSeen
  split
  · simp only
    split
    · exact .refl s
    · exact .of_rest rfl rfl rfl rfl rfl rfl
  · exact .refl s

theorem State.raceUnknown_noted (s : State) (die ctx va pa n : Nat) : Noted s (s.raceUnknown die ctx va pa n) := by
  unfold State.raceUnknown
  split
  · exact .refl s
  · exact (s.raceSeen_noted die ctx va).trans (.of_rest rfl rfl rfl rfl rfl rfl)

/-! ### Requests to other modules (10 R196; 12 R243 to R249) -/

theorem State.newTag_noted (s : State) : Noted s s.newTag.2 := .of_rest rfl rfl rfl rfl rfl rfl

theorem State.transmit_noted (s : State) (r : Req) : Noted s (s.transmit r).2 := by
  have h := s.sendPort_noted r.ctx (nodeOf r.pkt.va.toNat) r.pkt.va.toNat
  unfold State.transmit
  simp only
  generalize s.sendPort r.ctx (nodeOf r.pkt.va.toNat) r.pkt.va.toNat = x at h
  obtain ⟨_ | p, u⟩ := x
  · exact h
  · simp only
    split
    · exact h
    · exact h.trans (u.emit_noted _)

theorem State.reqs_noted (s : State) (rs : List Req) : Noted s { s with reqs := rs } := .of_rest rfl rfl rfl rfl rfl rfl

theorem State.request_noted (s : State) (r : Req) : Noted s (s.request r) := by
  have h := s.newTag_noted
  unfold State.request
  simp only
  split
  · exact h.trans (State.reqs_noted _ _)
  · split
    · exact h.trans (State.reqs_noted _ _)
    · exact (h.trans (State.transmit_noted _ _)).trans (State.reqs_noted _ _)

theorem State.wcDrainOne_noted (s : State) (core : Nat) (e : WcEntry) (ret gid : Nat) : Noted s (s.wcDrainOne core e ret gid) :=
  (s.setC_noted core _).trans (State.request_noted _ _)

theorem State.wcPut_noted (s : State) (core gid va : Nat) (bs : List Byte) : Noted s (s.wcPut core gid va bs) := by
  have drained (u : State) (e : WcEntry) : Noted u (u.wcDrainOne core e) := u.wcDrainOne_noted core e 0 0
  unfold State.wcPut
  extract_lets ctx line mine s0 s1 s2
  have h0 : Noted s s0 := by
    simp only [s0]
    split
    · exact .refl s
    · split
      · exact drained s _
      · exact .refl s
  have h1 : Noted s s1 := by
    simp only [s1]
    split
    · exact .refl s
    · exact h0.trans (s0.setC_noted core _)
  have h2 : Noted s s2 := h1.trans (s1.setC_noted core _)
  clear_value s2
  split
  · split
    · exact h2.trans (drained s2 _)
    · exact h2
  · exact h2

end Sys2Proof.Machine
end

section
/-! SUPPORT. What a store puts at its place: the larder, scratch, lofts, host memory, the home, the L1 (09 R163, R168, R172 to R174). -/
namespace Sys2Proof.Machine

/-! ### Bytes at their places -/

/-- What each step of a fold leaves, the fold leaves. -/
theorem foldl_keeps {α β γ : Type} (g : α → γ) {f : α → β → α} (hf : ∀ a b, g (f a b) = g a) (l : List β) (a : α) :
    g (l.foldl f a) = g a := by
  induction l generalizing a with
  | nil => rfl
  | cons b l ih => exact (ih _).trans (hf a b)

theorem Team.lwrite_larder (t : Team) (off : Nat) (bs : List Byte) : (t.lwrite off bs).larder = mwrites t.larder off bs := by
  unfold Team.lwrite
  extract_lets u
  refine (foldl_keeps Team.larder (fun v i => ?_) _ u).trans rfl
  split
  · split <;> rfl
  · rfl

theorem mread_lwrite {t : Team} (h : t.larder.wf = true) (off : Nat) (bs : List Byte) (a : Nat) :
    mread (t.lwrite off bs).larder a = if off ≤ a ∧ a < off + bs.length then bs.getD (a - off) 0 else mread t.larder a := by
  rw [Team.lwrite_larder, mread_mwrites h]

theorem mread_scratchWrite {k : Stack} (h : k.scratch.wf = true) (off : Nat) (bs : List Byte) (a : Nat) :
    mread (k.scratchWrite off bs).scratch a = if off ≤ a ∧ a < off + bs.length then bs.getD (a - off) 0 else mread k.scratch a :=
  mread_mwrites h off bs a

theorem mread_loftWrite {d : Die} (h : d.loft.wf = true) (off : Nat) (bs : List Byte) (a : Nat) :
    mread (d.loftWrite off bs).loft a = if off ≤ a ∧ a < off + bs.length then bs.getD (a - off) 0 else mread d.loft a :=
  mread_mwrites h off bs a

theorem getD_ite_some {α : Type} (c : Prop) [Decidable c] (a b : α) : (if c then some a else none).getD b = if c then a else b := by
  split <;> rfl

theorem State.hostWrite_hostMem {s : State} (h : s.hostMem.wf = true) (pa : Nat) (bs : List Byte) (a : Nat) :
    mread (s.hostWrite pa bs (fullMask bs)).hostMem a = if pa ≤ a ∧ a < pa + bs.length then bs.getD (a - pa) 0 else mread s.hostMem a :=
  (mread_foldl_mwrite h _ a).trans (by rw [l2get_cellsOf_full_reverse, getD_ite_some])

/-- Whole bytes written at the home are served there; the rest is as it was (09 R173). -/
theorem State.homeWrite_homeByte {s : State} (h : DeviceCanonical s) (pol pa : Nat) (bs : List Byte) (w : Option Nat) (hp : pol ≠ 3) (a : Nat) :
    (s.homeWrite pol pa bs (fullMask bs) w).homeByte a = if pa ≤ a ∧ a < pa + bs.length then bs.getD (a - pa) 0 else s.homeByte a := by
  rw [State.homeWrite, State.homeCells_homeByte h pol _ w hp, l2get_cellsOf_full_reverse, getD_ite_some]

/-! ### The L1's bytes and lines -/

/-- The byte that an L1 holds for an address. -/
def l1get (l : Tab L1Byte) (a : Nat) : Option Byte := (l.find? fun e => e.1 == a).map (·.2.val)

theorem State.l1Byte_eq (s : State) (core a : Nat) : s.l1Byte core a = (l1get (s.core core).l1 a).getD (s.homeByte a) := by
  unfold State.l1Byte l1get
  cases (s.core core).l1.find? fun e => e.1 == a <;> rfl

theorem l1get_cons (e : Nat × L1Byte) (l : Tab L1Byte) (a : Nat) : l1get (e :: l) a = if e.1 = a then some e.2.val else l1get l a := by
  unfold l1get
  by_cases h : e.1 = a <;> simp [h]

theorem l1get_tput (l : Tab L1Byte) (k : Nat) (b : L1Byte) (a : Nat) : l1get (tput l k b) a = if k = a then some b.val else l1get l a := by
  induction l with
  | nil => rw [tput, l1get_cons]
  | cons e l ih =>
    obtain ⟨j, c⟩ := e
    rw [tput]
    split
    · rw [l1get_cons]
    · split
      · next h => simp only [l1get_cons, h]; split <;> rfl
      · next h => rw [l1get_cons, ih, l1get_cons]; split <;> split <;> simp_all

/-- Cells put in an L1 one after another: the last one of an address stands. -/
theorem l1get_foldl_tput (f : Host.Cell → L1Byte) (hf : ∀ c, (f c).val = c.2) (cs : List Host.Cell) (l : Tab L1Byte) (a : Nat) :
    l1get (cs.foldl (fun l c => tput l c.1 (f c)) l) a = (l2get cs.reverse a).or (l1get l a) := by
  induction cs generalizing l with
  | nil => rfl
  | cons c cs ih =>
    rw [List.foldl_cons, ih, l1get_tput, List.reverse_cons, l2get_append, l2get_cons, Option.or_assoc, hf]
    split <;> rfl

theorem mem_keys_tput {α : Type} {l : Tab α} {k a : Nat} {b : α} (h : a ∈ (tput l k b).map (·.1)) : a = k ∨ a ∈ l.map (·.1) := by
  induction l with
  | nil => simpa [tput] using h
  | cons e l ih =>
    obtain ⟨j, c⟩ := e
    rw [tput] at h
    split at h
    · simpa using h
    · split at h
      · next hk => simp only [List.map_cons, List.mem_cons] at h ⊢; tauto
      · simp only [List.map_cons, List.mem_cons] at h ⊢
        rcases h with h | h
        · exact .inr (.inl h)
        · exact (ih h).imp_right .inr

theorem keys_tput_ascend {α : Type} {l : Tab α} (h : (l.map (·.1)).Pairwise (· < ·)) (k : Nat) (b : α) :
    ((tput l k b).map (·.1)).Pairwise (· < ·) := by
  induction l with
  | nil => exact List.pairwise_singleton _ _
  | cons e l ih =>
    obtain ⟨j, c⟩ := e
    obtain ⟨hj, hl⟩ := List.pairwise_cons.1 h
    rw [tput]
    split
    · next hk => exact List.pairwise_cons.2 ⟨List.forall_mem_cons.2 ⟨hk, fun a ha => Nat.lt_trans hk (hj a ha)⟩, h⟩
    · split
      · next hk => exact List.pairwise_cons.2 ⟨fun a ha => hk ▸ hj a ha, hl⟩
      · next hk hk' =>
        refine List.pairwise_cons.2 ⟨fun a ha => ?_, ih hl⟩
        rcases mem_keys_tput ha with rfl | ha
        · show j < a; omega
        · exact hj a ha

theorem keys_foldl_tput {α : Type} (f : Host.Cell → α) (cs : List Host.Cell) {l : Tab α} (h : (l.map (·.1)).Pairwise (· < ·)) :
    ((cs.foldl (fun l c => tput l c.1 (f c)) l).map (·.1)).Pairwise (· < ·) ∧
      ∀ a ∈ (cs.foldl (fun l c => tput l c.1 (f c)) l).map (·.1), a ∈ cs.map (·.1) ∨ a ∈ l.map (·.1) := by
  induction cs generalizing l with
  | nil => exact ⟨h, fun a ha => .inr ha⟩
  | cons c cs ih =>
    obtain ⟨hp, hm⟩ := ih (keys_tput_ascend h c.1 (f c))
    refine ⟨hp, fun a ha => ?_⟩
    rcases hm a ha with ha | ha
    · exact .inl (List.mem_cons_of_mem _ ha)
    · rcases mem_keys_tput ha with rfl | ha
      · exact .inl List.mem_cons_self
      · exact .inr ha

theorem mem_linesOf {l : List Nat} {x : Nat} : x ∈ linesOf l ↔ ∃ a ∈ l, a / 256 = x := by
  induction l with
  | nil => simp [linesOf]
  | cons a l ih =>
    rw [linesOf, List.exists_mem_cons_iff, ← ih]
    split
    · next b ls hl =>
      rw [hl]
      split
      · next hb => simp only [List.mem_cons, hb, eq_comm (a := x)]; tauto
      · simp only [List.mem_cons, eq_comm (a := x) (b := a / 256)]
    · next hl => rw [hl]; simp [eq_comm]

theorem linesOf_ascend {l : List Nat} (h : l.Pairwise (· < ·)) : (linesOf l).Pairwise (· < ·) := by
  induction l with
  | nil => exact List.Pairwise.nil
  | cons a l ih =>
    obtain ⟨ha, hl⟩ := List.pairwise_cons.1 h
    have low : ∀ x ∈ linesOf l, a / 256 ≤ x := fun x hx => by
      obtain ⟨b, hb, rfl⟩ := mem_linesOf.1 hx
      exact Nat.div_le_div_right (Nat.le_of_lt (ha b hb))
    have up := ih hl
    rw [linesOf]
    split
    · next b ls hb =>
      rw [hb] at up low
      split
      · exact up
      · next hne =>
        have h1 : a / 256 < b := Nat.lt_of_le_of_ne (low b List.mem_cons_self) (Ne.symm hne)
        exact List.pairwise_cons.2 ⟨List.forall_mem_cons.2 ⟨h1, fun x hx => h1.trans ((List.pairwise_cons.1 up).1 x hx)⟩, up⟩
    · exact List.pairwise_singleton _ _

/-- Cells of at most 16 bytes in a row bring an L1 at most two lines. -/
theorem l1Lines_foldl_tput (f : Host.Cell → L1Byte) (pa : Nat) (bs : List Byte) (hb : bs.length ≤ 16) {l : Tab L1Byte}
    (h : (l.map (·.1)).Pairwise (· < ·)) :
    (linesOf (((cellsOf pa (fullMask bs) bs).foldl (fun l c => tput l c.1 (f c)) l).map (·.1))).length ≤ (linesOf (l.map (·.1))).length + 2 := by
  obtain ⟨hp, hm⟩ := keys_foldl_tput f (cellsOf pa (fullMask bs) bs) h
  have sub : linesOf (((cellsOf pa (fullMask bs) bs).foldl (fun l c => tput l c.1 (f c)) l).map (·.1)) ⊆
      linesOf (l.map (·.1)) ++ [pa / 256, (pa + 15) / 256] := fun x hx => by
    obtain ⟨a, ha, rfl⟩ := mem_linesOf.1 hx
    rcases hm a ha with ha | ha
    · rw [cellsOf_full_addrs, List.mem_range'_1] at ha
      simp only [List.mem_append, List.mem_cons, List.not_mem_nil, or_false]
      omega
    · exact List.mem_append_left _ (mem_linesOf.2 ⟨a, ha, rfl⟩)
  have := (List.subperm_of_subset ((linesOf_ascend hp).imp Nat.ne_of_lt) sub).length_le
  simpa using this

/-! ### A store into the L1 -/

/-- With room for two lines more a store of at most 16 bytes gives up no line: its bytes stand in the L1, and the home's are as they were
(01 R13; 09 R172). -/
theorem State.l1Store_bytes {s : State} {core : Nat} (hl : ((s.core core).l1.map (·.1)).Pairwise (· < ·))
    (hr : (s.core core).l1Lines.length + 2 ≤ l1Capacity) (ctx pa va : Nat) {bs : List Byte} (hb : bs.length ≤ 16) :
    (∀ a, (s.l1Store core ctx pa va bs).homeByte a = s.homeByte a) ∧
    ∀ a, (s.l1Store core ctx pa va bs).l1Byte core a = if pa ≤ a ∧ a < pa + bs.length then bs.getD (a - pa) 0 else s.l1Byte core a := by
  unfold State.l1Store
  extract_lets u
  generalize hf : (fun c : Host.Cell => ({ val := c.2, dirty := true, ctx := ctx, va := va + c.1 - pa, bad :=
    (tget { val := 0 } (s.core core).l1 c.1).bad && !decide (pa ≤ c.1 / 8 * 8 ∧ c.1 / 8 * 8 + 8 ≤ pa + bs.length) } : L1Byte)) = f
  have hu : (u.core core).l1 = (cellsOf pa (fullMask bs) bs).foldl (fun l c => tput l c.1 (f c)) (s.core core).l1 := by
    subst hf; simp only [u, State.setC_core_same]
  have lines : (u.core core).l1Lines.length ≤ l1Capacity := by
    rw [Core.l1Lines, hu]
    exact (l1Lines_foldl_tput f pa bs hb hl).trans hr
  have trim : u.l1Trim core (linesOf [pa, pa + bs.length - 1]) 4 = u := by rw [State.l1Trim]; simp only [lines, if_true]
  rw [trim]
  refine ⟨fun a => rfl, fun a => ?_⟩
  rw [State.l1Byte_eq, State.l1Byte_eq, hu, l1get_foldl_tput f (by subst hf; exact fun _ => rfl), l2get_cellsOf_full_reverse]
  split <;> rfl

end Sys2Proof.Machine
end

section
/-! SUPPORT. The head of a store queue performed: what it leaves of its group, and what it does at its place (10 R180). -/
namespace Sys2Proof.Machine

/-! ### The Return that a queued access belongs to -/

theorem Group.ret?_setRet (g : Group) (id : Nat) (f : Return → Return) (hf : ∀ r, (f r).id = r.id) :
    (g.setRet id f).ret? id = (g.ret? id).map f := by
  show (g.returns.map fun r => if r.id = id then f r else r).find? (·.id == id) = (g.returns.find? (·.id == id)).map f
  induction g.returns with
  | nil => rfl
  | cons r rs ih =>
    rw [List.map_cons, List.find?_cons, List.find?_cons, ih]
    by_cases h : r.id = id
    · simp [h, hf]
    · rw [if_neg h, beq_false_of_ne h]

theorem Group.setCtr_stores (g : Group) (c : Ctr) (f : Nat → Nat) : (g.setCtr c f).stores = g.stores := by cases c <;> rfl

theorem Group.settle_stores (g : Group) (id : Nat) : (g.settle id).stores = g.stores := by
  unfold Group.settle
  split
  · split
    · split
      · exact Group.setCtr_stores _ _ _
      · rfl
    · rfl
  · rfl

theorem Group.oneDone_stores (g : Group) (id : Nat) : (g.oneDone id).stores = g.stores := Group.settle_stores _ _

/-- A settled Return is as it was, or gone. -/
theorem Group.ret?_settle (g : Group) (id : Nat) : (g.settle id).ret? id = g.ret? id ∨ (g.settle id).ret? id = none := by
  unfold Group.settle
  split
  · split
    · exact .inr (List.find?_eq_none.2 fun q hq => by simpa using (List.mem_filter.1 hq).2)
    · exact .inl rfl
  · exact .inl rfl

/-- No negative answer stands against a Return (11 R206). -/
def Group.NoRefusal (g : Group) (id : Nat) : Prop := ∀ r, g.ret? id = some r → r.neg = []

theorem Group.NoRefusal.setRet {g : Group} {id : Nat} (h : g.NoRefusal id) {f : Return → Return} (hi : ∀ r, (f r).id = r.id)
    (hn : ∀ r, (f r).neg = r.neg) : (g.setRet id f).NoRefusal id := fun r hr => by
  rw [Group.ret?_setRet g id f hi, Option.map_eq_some_iff] at hr
  obtain ⟨q, hq, rfl⟩ := hr
  rw [hn, h q hq]

theorem Group.NoRefusal.oneDone {g : Group} {id : Nat} (h : g.NoRefusal id) : (g.oneDone id).NoRefusal id := fun r hr => by
  have hs := h.setRet (f := fun r => { r with left := r.left - 1 }) (fun _ => rfl) fun _ => rfl
  rcases Group.ret?_settle (g.setRet id fun r => { r with left := r.left - 1 }) id with e | e
  · exact hs r (e.symm.trans hr)
  · cases e.symm.trans hr

/-- Without a negative answer the end of a stall lets the group issue, or nothing is ended. -/
theorem State.stallOver_noRefusal {s : State} {gid ret : Nat} (h : (s.grp gid).NoRefusal ret) :
    s.stallOver gid ret = s ∨ s.stallOver gid ret = s.setG gid fun g => g.setRet ret fun r => { r with stall := false } := by
  unfold State.stallOver
  split
  · exact .inl rfl
  · split
    · exact .inl rfl
    · next r hr => rw [h r hr]; exact .inr rfl

/-- While an access of a Return is queued its stall goes on. -/
theorem State.stallOver_queued {s : State} {gid : Nat} {o : StoreOp} (h : o ∈ (s.grp gid).stores) : s.stallOver gid o.ret = s := by
  have : (s.grp gid).stores.any (·.ret == o.ret) = true := List.any_eq_true.2 ⟨o, h, beq_self_eq_true _⟩
  unfold State.stallOver
  rw [this, Bool.or_true, if_pos rfl]

/-! ### A plain store at its place -/

/-- The state with a plain store's bytes at their place, its Return not yet told. -/
def State.bytesPut (s : State) (gid : Nat) (o : StoreOp) (bs : List Byte) : State :=
  let g := s.grp gid
  match o.tgt with
  | .larder off => s.setT g.tid fun t => t.lwrite off bs
  | .scratch st off => s.setS st fun k => k.scratchWrite off bs
  | .loft d p => s.setD d fun k => k.loftWrite p bs
  | .dev pa pol =>
    if pol = 3 then (s.homeCells 3 (cellsOf pa (fullMask bs) bs)).raceUnknown g.die g.ctx o.va pa bs.length
    else if g.hasL1 = true ∧ pol = 0 then s.l1Store g.place g.ctx pa o.va bs
    else s.homeWrite pol pa bs (fullMask bs) (some g.die)
  | .host pa => s.hostWrite pa bs (fullMask bs)
  | .remote va => s.wcPut g.place gid va bs
  | .held va => s.lostWrite gid 2 va

theorem State.performBytes_plain (s : State) (gid : Nat) (o : StoreOp) (bs : List Byte) (ho : o.order = .plain) :
    s.performBytes gid o bs = (s.bytesPut gid o bs).setG gid fun g => g.oneDone o.ret := by
  unfold State.performBytes State.bytesPut
  rw [ho]
  cases o.tgt with
  | dev pa pol =>
    by_cases h3 : pol = 3
    · simp only [h3, if_true]
    · by_cases hl : (s.grp gid).hasL1 = true
      · by_cases h0 : pol = 0 <;> simp [h3, hl, h0, MOrder.rel]
      · simp [h3, hl]
  | _ => rfl

theorem State.bytesPut_groups (s : State) (gid : Nat) (o : StoreOp) (bs : List Byte) : (s.bytesPut gid o bs).groups = s.groups := by
  unfold State.bytesPut
  cases o.tgt with
  | dev pa pol =>
    simp only
    split
    · exact ((s.homeCells_pathKept 3 _).trans (State.raceUnknown_noted _ _ _ _ _ _).path).groups
    · split
      · exact (s.l1Store_onPath _ _ _ _ _).path.groups
      · exact (s.homeCells_pathKept _ _ _).groups
  | remote va => exact (s.wcPut_noted _ _ _ _).path.groups
  | held va => exact (s.lostWrite_onPath _ _ _ _).path.groups
  | _ => rfl

/-! ### Canonical memory, unit by unit -/

theorem tget_all {α : Type} {t : Tab α} {d : α} {p : α → Bool} (h : (t.all fun e => p e.2) = true) (hd : p d = true) (k : Nat) :
    p (tget d t k) = true := by
  induction t with
  | nil => exact hd
  | cons e t ih =>
    obtain ⟨he, ht⟩ := Bool.and_eq_true_iff.1 (List.all_cons ▸ h)
    rw [tget]
    split
    · exact he
    · exact ih ht

end Sys2Proof.Machine

namespace Sys2Proof.MemoryCanonical
open Machine
variable {s : State}

theorem device (h : MemoryCanonical s) : DeviceCanonical s := ⟨h.mem, h.l2⟩
theorem larder (h : MemoryCanonical s) (k : Nat) : (s.team k).larder.wf = true := tget_all (p := fun t : Team => t.larder.wf) h.larders rfl k
theorem scratchOf (h : MemoryCanonical s) (k : Nat) : (s.stack k).scratch.wf = true := tget_all (p := fun k : Stack => k.scratch.wf) h.scratch rfl k
theorem loft (h : MemoryCanonical s) (k : Nat) : (s.die k).loft.wf = true := tget_all (p := fun d : Die => d.loft.wf) h.lofts rfl k
theorem l1 (h : MemoryCanonical s) (k : Nat) : ((s.core k).l1.map (·.1)).Pairwise (· < ·) :=
  of_decide_eq_true (tget_all (p := fun c : Core => decide ((c.l1.map (·.1)).Pairwise (· < ·))) h.l1s rfl k)

end Sys2Proof.MemoryCanonical

namespace Sys2Proof
open Machine

/-! ### What a plain store leaves, and what it puts at its place -/

/-- A step on the path to memory leaves every memory but device memory. -/
theorem OtherMemoryKept.of_path {s t : State} (h : PathKept s t) (tid : Nat) (tgt : Target)
    (hd : (∀ a p, tgt ≠ .dev a p) → ∀ a, t.homeByte a = s.homeByte a) : OtherMemoryKept s t tid tgt where
  device := hd
  host _ _ := by rw [h.hostMem]
  larder _ _ _ := by rw [State.team, h.teams]; rfl
  scratch _ _ _ := by rw [State.stack, h.memStacks]; rfl
  loft _ _ _ := by rw [h.loft]
  bins _ _ := by rw [State.cluster, h.clusters]; rfl

/-- A plain store leaves every byte of every memory but its target's. -/
theorem bytesPut_otherMemoryKept (s : State) (gid : Nat) (o : StoreOp) (bs : List Byte) (hh : ∀ va, o.tgt ≠ .held va) :
    OtherMemoryKept s (s.bytesPut gid o bs) (s.grp gid).tid o.tgt := by
  unfold State.bytesPut
  cases ht : o.tgt with
  | larder off =>
    refine ⟨fun _ _ => rfl, fun _ _ => rfl, fun k hk a => ?_, fun _ _ _ => rfl, fun _ _ _ => rfl, fun _ _ => rfl⟩
    have hk : k ≠ (s.grp gid).tid := hk.resolve_right fun h => h off rfl
    simp only [State.setT_team_other _ _ _ _ hk]
  | scratch st off =>
    refine ⟨fun _ _ => rfl, fun _ _ => rfl, fun _ _ _ => rfl, fun k hk a => ?_, fun _ _ _ => rfl, fun _ _ => rfl⟩
    have hk : k ≠ st := fun h => hk off (h ▸ rfl)
    simp only [State.setS_stack_other _ _ _ _ hk]
  | loft d p =>
    refine ⟨fun _ _ => rfl, fun _ _ => rfl, fun _ _ _ => rfl, fun _ _ _ => rfl, fun k hk a => ?_, fun _ _ => rfl⟩
    have hk : k ≠ d := fun h => hk p (h ▸ rfl)
    simp only [State.setD_die_other _ _ _ _ hk]
  | dev pa pol =>
    refine .of_path ?_ _ _ fun h => absurd rfl (h pa pol)
    simp only
    split
    · exact (s.homeCells_pathKept 3 _).trans (State.raceUnknown_noted _ _ _ _ _ _).path
    · split
      · exact (s.l1Store_onPath _ _ _ _ _).path
      · exact s.homeCells_pathKept _ _ _
  | host pa =>
    exact ⟨fun _ _ => rfl, fun h => absurd rfl (h pa), fun _ _ _ => rfl, fun _ _ _ => rfl, fun _ _ _ => rfl, fun _ _ => rfl⟩
  | remote va => exact .of_path (s.wcPut_noted _ _ _ _).path _ _ fun _ => (s.wcPut_noted _ _ _ _).homeByte
  | held va => exact absurd ht (hh va)

section
variable {s : State} {gid : Nat} {o : StoreOp} {bs : List Byte}

theorem bytesPut_larder (h : MemoryCanonical s) {off : Nat} (ht : o.tgt = .larder off) (a : Nat) :
    mread ((s.bytesPut gid o bs).team (s.grp gid).tid).larder a =
      if off ≤ a ∧ a < off + bs.length then bs.getD (a - off) 0 else mread (s.team (s.grp gid).tid).larder a := by
  unfold State.bytesPut
  simp only [ht, State.setT_team_same, mread_lwrite (h.larder _)]

theorem bytesPut_scratch (h : MemoryCanonical s) {st off : Nat} (ht : o.tgt = .scratch st off) (a : Nat) :
    mread ((s.bytesPut gid o bs).stack st).scratch a =
      if off ≤ a ∧ a < off + bs.length then bs.getD (a - off) 0 else mread (s.stack st).scratch a := by
  unfold State.bytesPut
  simp only [ht, State.setS_stack_same, mread_scratchWrite (h.scratchOf _)]

theorem bytesPut_loft (h : MemoryCanonical s) {d off : Nat} (ht : o.tgt = .loft d off) (a : Nat) :
    mread ((s.bytesPut gid o bs).die d).loft a =
      if off ≤ a ∧ a < off + bs.length then bs.getD (a - off) 0 else mread (s.die d).loft a := by
  unfold State.bytesPut
  simp only [ht, State.setD_die_same, mread_loftWrite (h.loft _)]

theorem bytesPut_host (h : MemoryCanonical s) {off : Nat} (ht : o.tgt = .host off) (a : Nat) :
    mread (s.bytesPut gid o bs).hostMem a = if off ≤ a ∧ a < off + bs.length then bs.getD (a - off) 0 else mread s.hostMem a := by
  unfold State.bytesPut
  simp only [ht, State.hostWrite_hostMem h.host]

theorem bytesPut_stack (h : MemoryCanonical s) {off : Nat} (ht : o.tgt = .dev off 3) :
    (s.bytesPut gid o bs).l2 = s.l2 ∧ ∀ a, mread (s.bytesPut gid o bs).mem a =
      if off ≤ a ∧ a < off + bs.length then bs.getD (a - off) 0 else mread s.mem a := by
  obtain ⟨hl, hm⟩ := s.homeCells_stack (cellsOf off (fullMask bs) bs) none
  unfold State.bytesPut
  simp only [ht, if_true]
  refine ⟨(State.raceUnknown_noted _ _ _ _ _ _).l2.trans hl, fun a => ?_⟩
  rw [(State.raceUnknown_noted _ _ _ _ _ _).mem, hm h.mem, l2get_cellsOf_full_reverse, getD_ite_some]

theorem bytesPut_home (h : MemoryCanonical s) {off pol : Nat} (ht : o.tgt = .dev off pol) (hp : pol ≠ 3)
    (hc : (s.grp gid).hasL1 = false ∨ 0 < pol) (a : Nat) :
    (s.bytesPut gid o bs).homeByte a = if off ≤ a ∧ a < off + bs.length then bs.getD (a - off) 0 else s.homeByte a := by
  have hn : ¬ ((s.grp gid).hasL1 = true ∧ pol = 0) := fun ⟨h1, h0⟩ => hc.elim (fun h => by simp [h] at h1) (by omega)
  unfold State.bytesPut
  simp only [ht, hp, if_false, hn]
  exact State.homeWrite_homeByte h.device pol off bs _ hp a

theorem bytesPut_l1 (h : MemoryCanonical s) (hr : L1Room s gid 2) (hb : bs.length ≤ 16) {off : Nat} (ht : o.tgt = .dev off 0)
    (hl : (s.grp gid).hasL1 = true) :
    (∀ a, (s.bytesPut gid o bs).homeByte a = s.homeByte a) ∧ ∀ a, (s.bytesPut gid o bs).l1Byte (s.grp gid).place a =
      if off ≤ a ∧ a < off + bs.length then bs.getD (a - off) 0 else s.l1Byte (s.grp gid).place a := by
  unfold State.bytesPut
  simp only [ht, hl, and_self, if_true, if_false, show (0 : Nat) ≠ 3 by decide]
  exact State.l1Store_bytes (h.l1 _) (hr hl) _ _ _ hb

end

end Sys2Proof
end

section
/-! STORE_PERFORMED of a store (01 R16; 09 R163, R168, R172, R173; 10 R180): the obligation O20. -/
namespace Sys2Proof.Machine

/-- A group's queue without its head. -/
def State.dequeued (s : State) (gid : Nat) : State := s.setG gid fun g => { g with stores := g.stores.drop 1 }

theorem State.dequeued_grp (s : State) (gid : Nat) : (s.dequeued gid).grp gid = { s.grp gid with stores := (s.grp gid).stores.drop 1 } :=
  State.setG_grp_same _ _ _

/-- STORE_PERFORMED tries the head of the queue, and the stall that awaited it may be over. -/
theorem exec_storePerformed {s : State} {gid : Nat} {o : StoreOp} {os : List StoreOp} (hg : thas s.groups gid = true)
    (hs : (s.grp gid).stores = o :: os) : exec (.storePerformed gid) s = .next ((s.headStep gid o).2.stallOver gid o.ret) := by
  show execStorePerformed gid s = _
  unfold execStorePerformed unitStep
  rw [hg, hs]; rfl

/-- A plain store or atomic at the head of a queue is performed where its place is open, and otherwise stays. -/
theorem State.headStep_plain (s : State) (gid : Nat) {o : StoreOp} (hl : o.act.late = false) (ha : ∀ tag, o.act ≠ .await tag)
    (ho : o.order = .plain) : s.headStep gid o = if s.placeOpen gid o then (true, s.performStore gid o) else (false, s) := by
  have ht : s.tryHead gid o = (s.placeOpen gid o, s) := by
    unfold State.tryHead
    split
    · next tag h => exact absurd h (ha tag)
    · simp [hl, ho, MOrder.rel]
  unfold State.headStep
  rw [hl, ht]
  cases s.placeOpen gid o <;> rfl

/-- The end of a stall without a negative answer changes no more than its group, and not the group's queue. -/
theorem State.stallOver_keeps {s : State} {gid ret : Nat} (h : (s.grp gid).NoRefusal ret) :
    ∃ G, s.stallOver gid ret = { s with groups := G } ∧ (tget {} G gid).stores = (s.grp gid).stores := by
  rcases State.stallOver_noRefusal h with e | e
  · exact ⟨_, e, rfl⟩
  · exact ⟨_, e, by rw [tget_tmod_same]; rfl⟩

/-- The bytes of a plain store, performed, leave its group with one event of its Return done. -/
theorem State.performBytes_grp {s : State} {gid : Nat} {o : StoreOp} (bs : List Byte) (ho : o.order = .plain) :
    (s.performBytes gid o bs).grp gid = (s.grp gid).oneDone o.ret := by
  rw [State.performBytes_plain s gid o bs ho, State.setG_grp_same, State.grp, State.bytesPut_groups]; rfl

/-- A plain store performed, wherever it goes: its group has the rest of its queue and one event of the Return done. -/
theorem State.performStore_grp {s : State} {gid : Nat} {o : StoreOp} {bs : List Byte} (ha : o.act = .bytes bs) (ho : o.order = .plain) :
    (s.performStore gid o).grp gid = ((s.dequeued gid).grp gid).oneDone o.ret := by
  have act (u : State) (t : Target) : (u.performAct gid { o with tgt := t }).grp gid = (u.grp gid).oneDone o.ret := by
    unfold State.performAct
    rw [ha]
    exact State.performBytes_grp (o := { o with tgt := t }) bs ho
  unfold State.performStore
  extract_lets u
  split
  · split
    · exact act u _
    · extract_lets d v
      have hv : v.grp gid = (u.grp gid).oneDone o.ret := by
        rw [State.setG_grp_same, State.grp, (State.lostWrite_onPath _ _ _ _ _).path.groups]; rfl
      split
      · rw [State.grp, (State.freezeCtx_onPath _ _ _ _ _ _ _ _ _ _).path.groups]; exact hv
      · exact hv
    · exact act u o.tgt
  · exact act u o.tgt

/-- A plain store whose target is a place: its bytes are put there. -/
theorem State.performStore_bytes {s : State} {gid : Nat} {o : StoreOp} {bs : List Byte} (ha : o.act = .bytes bs) (ho : o.order = .plain)
    (hh : ∀ va, o.tgt ≠ .held va) : s.performStore gid o = ((s.dequeued gid).bytesPut gid o bs).setG gid fun g => g.oneDone o.ret := by
  rw [← State.performBytes_plain _ _ _ _ ho]
  have act : (s.dequeued gid).performAct gid o = (s.dequeued gid).performBytes gid o bs := by unfold State.performAct; rw [ha]
  rw [← act]
  unfold State.performStore
  split
  · next va h => exact absurd h (hh va)
  · rfl

end Sys2Proof.Machine

namespace Sys2Proof
open Machine

section
variable {s : State} {gid : Nat} {o : StoreOp} {os : List StoreOp} {bs : List Byte}

/-- A store whose place is open leaves the queue. -/
theorem storePerformed_leaves (hg : thas s.groups gid = true) (hs : (s.grp gid).stores = o :: os) (ha : o.act = .bytes bs)
    (ho : o.order = .plain) (hn : (s.grp gid).NoRefusal o.ret) (hp : s.placeOpen gid o = true) :
    ∃ G, exec (.storePerformed gid) s = .next { s.performStore gid o with groups := G } ∧ (tget {} G gid).stores = os := by
  have hgrp : (s.performStore gid o).grp gid = Group.oneDone { s.grp gid with stores := os } o.ret := by
    rw [State.performStore_grp ha ho, State.dequeued_grp, hs]; rfl
  have hq : ((s.performStore gid o).grp gid).NoRefusal o.ret := by
    rw [hgrp]; exact Group.NoRefusal.oneDone (g := { s.grp gid with stores := os }) hn
  obtain ⟨G, hG, hst⟩ := State.stallOver_keeps hq
  refine ⟨G, ?_, by rw [hst, hgrp, Group.oneDone_stores]⟩
  rw [exec_storePerformed hg hs, State.headStep_plain s gid (by rw [ha]; rfl) (by simp [ha]) ho, if_pos hp, ← hG]

/-- A store whose place is not open stays, and nothing changes. -/
theorem storePerformed_stays (hg : thas s.groups gid = true) (hs : (s.grp gid).stores = o :: os) (ha : o.act = .bytes bs)
    (ho : o.order = .plain) (hp : s.placeOpen gid o = false) : exec (.storePerformed gid) s = .next s := by
  rw [exec_storePerformed hg hs, State.headStep_plain s gid (by rw [ha]; rfl) (by simp [ha]) ho, hp, if_neg Bool.false_ne_true,
    State.stallOver_queued (hs ▸ List.mem_cons_self)]

end

/-- Settles O20: the head leaves its queue with its bytes put at their place, whose memory alone differs. -/
theorem storesPerform : Obligations.StoresPerform := by
  unfold Obligations.StoresPerform
  intro s gid o os bs hg hs ha ho hm hr hb hn
  refine ⟨storePerformed_stays hg hs ha ho, fun hp => ?_⟩
  obtain ⟨G, hex, hst⟩ := storePerformed_leaves hg hs ha ho hn hp
  refine ⟨_, hex, hst, ?_⟩
  have hm1 : MemoryCanonical (s.dequeued gid) := ⟨hm.mem, hm.l2, hm.host, hm.larders, hm.scratch, hm.lofts, hm.bins, hm.l1s⟩
  have htid : ((s.dequeued gid).grp gid).tid = (s.grp gid).tid := by rw [State.dequeued_grp]
  have hpl : ((s.dequeued gid).grp gid).place = (s.grp gid).place := by rw [State.dequeued_grp]
  have hl1 : ((s.dequeued gid).grp gid).hasL1 = (s.grp gid).hasL1 := by rw [State.dequeued_grp]; rfl
  have hr1 : L1Room (s.dequeued gid) gid 2 := by unfold L1Room; rw [hl1, hpl]; exact hr
  have put (hh : ∀ va, o.tgt ≠ .held va) := State.performStore_bytes (s := s) (gid := gid) ha ho hh
  rw [← htid, ← hpl, ← hl1]
  refine ⟨fun hh => ?_, fun off ht => ?_, fun st off ht => ?_, fun d off ht => ?_, fun off ht => ?_, fun off ht => ?_,
    fun off pol ht h3 hc => ?_, fun off ht hl => ?_⟩
  · rw [put hh]
    obtain ⟨h1, h2, h3, h4, h5, h6⟩ := bytesPut_otherMemoryKept (s.dequeued gid) gid o bs hh
    exact ⟨h1, h2, h3, h4, h5, h6⟩
  · rw [put (by simp [ht])]; exact bytesPut_larder hm1 ht
  · rw [put (by simp [ht])]; exact bytesPut_scratch hm1 ht
  · rw [put (by simp [ht])]; exact bytesPut_loft hm1 ht
  · rw [put (by simp [ht])]; exact bytesPut_host hm1 ht
  · rw [put (by simp [ht])]; exact bytesPut_stack hm1 ht
  · rw [put (by simp [ht])]; exact bytesPut_home hm1 ht h3 hc
  · rw [put (by simp [ht])]; exact bytesPut_l1 hm1 hr1 hb ht hl

end Sys2Proof
end

section
/-! SUPPORT. A core's L1 line goes home in the same way whatever the groups are: nothing on the way reads them (09 R172; 16 R312). -/
namespace Sys2Proof.Machine

/-- The state with other groups. -/
def State.regrouped (s : State) (G : Tab Group) : State := { s with groups := G }

section
variable (s : State) (G : Tab Group)

/-! ### What is read -/

theorem State.regrouped_homeByte (a : Nat) : (s.regrouped G).homeByte a = s.homeByte a := rfl

theorem State.regrouped_homeRead (a n : Nat) : (s.regrouped G).homeRead a n = s.homeRead a n := by
  induction n generalizing a with
  | zero => rfl
  | succ n ih => rw [State.homeRead, State.homeRead, ih]; rfl

theorem State.regrouped_homeField (a n : Nat) : (s.regrouped G).homeField a n = s.homeField a n :=
  congrArg leNat (s.regrouped_homeRead G a n)

theorem State.regrouped_walk (die ctx va : Nat) (write : Bool) : (s.regrouped G).walk die ctx va write = s.walk die ctx va write := by
  have go (ls : List (Nat × Nat × Nat)) (table : Nat) : (s.regrouped G).walkFrom die write va ls table = s.walkFrom die write va ls table := by
    induction ls generalizing table with
    | nil => rfl
    | cons l ls ih =>
      unfold State.walkFrom
      simp only [State.regrouped_homeField, ih]
      rfl
  exact go _ _

theorem State.regrouped_xlate (die ctx va : Nat) (acc : Acc) (user : Bool) (core : Option Nat) :
    (s.regrouped G).xlate die ctx va acc user core = s.xlate die ctx va acc user core := by
  have hl (write : Bool) : (s.regrouped G).lookup die ctx va write core = s.lookup die ctx va write core := by
    unfold State.lookup
    simp only [State.regrouped_walk]
    rfl
  unfold State.xlate
  rw [hl]

theorem State.regrouped_l1Fate (core : Nat) (old : Bool) (a : Nat) (b : L1Byte) :
    (s.regrouped G).l1Fate core old a b = s.l1Fate core old a b := by
  unfold State.l1Fate
  simp only [State.regrouped_xlate]
  rfl

theorem State.regrouped_depMet (d : Nat × Option Target × Nat) : (s.regrouped G).depMet d = s.depMet d := by
  unfold State.depMet
  simp only [State.regrouped_homeField]
  rfl

/-! ### What is done -/

theorem State.regrouped_setD (n : Nat) (f : Die → Die) : (s.regrouped G).setD n f = (s.setD n f).regrouped G := rfl
theorem State.regrouped_setC (n : Nat) (f : Core → Core) : (s.regrouped G).setC n f = (s.setC n f).regrouped G := rfl
theorem State.regrouped_poisonSectors (qs : List Nat) : (s.regrouped G).poisonSectors qs = (s.poisonSectors qs).regrouped G := rfl

theorem State.foldl_regrouped {α : Type} {f : State → α → State} (hf : ∀ s a, f (s.regrouped G) a = (f s a).regrouped G) (l : List α) :
    l.foldl f (s.regrouped G) = (l.foldl f s).regrouped G :=
  List.foldl_hom (fun s => s.regrouped G) (fun s a => hf s a)

variable {G} in
theorem State.ite_regrouped {c : Prop} [Decidable c] {a b a' b' : State} (ha : a' = a.regrouped G) (hb : b' = b.regrouped G) :
    (if c then a' else b') = (if c then a else b).regrouped G := by
  rw [ha, hb]
  exact (apply_ite (fun x : State => x.regrouped G) c a b).symm

theorem State.regrouped_noteRoutes (cs : List Host.Cell) : (s.regrouped G).noteRoutes cs = (s.noteRoutes cs).regrouped G := by
  unfold State.noteRoutes State.routeEntry
  simp only [State.regrouped_homeField]
  exact State.ite_regrouped rfl rfl

theorem State.regrouped_homePut (pol : Nat) (cs : List Host.Cell) : (s.regrouped G).homePut pol cs = (s.homePut pol cs).regrouped G :=
  State.ite_regrouped rfl rfl

theorem State.regrouped_l2Evict (die line : Nat) : (s.regrouped G).l2Evict die line = (s.l2Evict die line).regrouped G :=
  State.ite_regrouped rfl rfl

theorem State.regrouped_l2Hold (die line : Nat) : (s.regrouped G).l2Hold die line = (s.l2Hold die line).regrouped G := by
  refine State.ite_regrouped rfl ?_
  simp only [show (s.regrouped G).die die = s.die die from rfl]
  split
  · rfl
  · exact congrArg (fun x : State => x.setD die fun k => { k with l2 := k.l2 ++ [line] }) (State.regrouped_l2Evict (s.pick _).2 G _ _)

theorem State.regrouped_l2Written (w : Option Nat) (line : Nat) : (s.regrouped G).l2Written w line = (s.l2Written w line).regrouped G := by
  unfold State.l2Written
  simp only
  rw [State.foldl_regrouped s G fun _ _ => rfl]; rfl

theorem State.regrouped_l2Note (pol : Nat) (cs : List Host.Cell) (w : Option Nat) :
    (s.regrouped G).l2Note pol cs w = (s.l2Note pol cs w).regrouped G := by
  refine State.foldl_regrouped s G (fun u line => ?_) _
  have hw : (if thas (u.regrouped G).dir line then (u.regrouped G).l2Written w line else u.regrouped G) =
      (if thas u.dir line then u.l2Written w line else u).regrouped G := State.ite_regrouped (u.regrouped_l2Written G w line) rfl
  simp only [hw]
  exact State.ite_regrouped (State.regrouped_l2Hold _ G _ _) rfl

theorem State.regrouped_emit (p : Packet) : (s.regrouped G).emit p = (s.emit p).regrouped G := State.ite_regrouped rfl rfl

theorem State.regrouped_routeLook (node : Nat) :
    (s.regrouped G).routeLook node = ((s.routeLook node).1, (s.routeLook node).2.regrouped G) := by
  unfold State.routeLook State.routeEntry
  rw [State.regrouped_homeField]
  show (match tget [] s.routeOld node with | [] => _ | old => _) = _
  cases tget [] s.routeOld node <;> rfl

theorem State.regrouped_portFrom (die ctx node va : Nat) :
    (s.regrouped G).portFrom die ctx node va = ((s.portFrom die ctx node va).1, (s.portFrom die ctx node va).2.regrouped G) := by
  have hs : (s.regrouped G).sendPort ctx node va = ((s.sendPort ctx node va).1, (s.sendPort ctx node va).2.regrouped G) := by
    unfold State.sendPort
    rw [State.regrouped_routeLook]; rfl
  unfold State.portFrom
  rw [hs]
  obtain ⟨_ | p, u⟩ := s.sendPort ctx node va <;> rfl

theorem State.regrouped_sendPush (p : Peg) (val : Nat) : (s.regrouped G).sendPush p val = (s.sendPush p val).regrouped G := by
  unfold State.sendPush
  split
  · rw [State.regrouped_portFrom]
    obtain ⟨_ | port, u⟩ := s.portFrom (dieOfPa p.pa) p.ctx p.node p.va
    · rfl
    · exact State.regrouped_emit _ _ _
  · rfl

theorem State.regrouped_pegAll (old : State) (ps : List Peg) : State.pegAll (old.regrouped G) ps (s.regrouped G) =
    ((State.pegAll old ps s).1, (State.pegAll old ps s).2.regrouped G) := by
  have one (s : State) (p : Peg) : State.pegOne (old.regrouped G) (s.regrouped G) p =
      ((State.pegOne old s p).1, (State.pegOne old s p).2.regrouped G) := by
    unfold State.pegOne
    simp only [State.regrouped_homeRead, State.regrouped_homeField, State.regrouped_sendPush]
    split <;> rfl
  induction ps generalizing s with
  | nil => rfl
  | cons p ps ih =>
    unfold State.pegAll
    simp only [one, ih]

theorem State.regrouped_pegged (old : State) : State.pegged (old.regrouped G) (s.regrouped G) = (State.pegged old s).regrouped G := by
  unfold State.pegged
  rw [show (s.regrouped G).pegs = s.pegs from rfl, State.regrouped_pegAll]; rfl

theorem State.regrouped_pokeDeps (hit : Target → Bool) : (s.regrouped G).pokeDeps hit = (s.pokeDeps hit).regrouped G := by
  unfold State.pokeDeps
  simp only [State.regrouped_depMet]; rfl

theorem State.regrouped_homeCells (pol : Nat) (cs : List Host.Cell) (w : Option Nat) :
    (s.regrouped G).homeCells pol cs w = (s.homeCells pol cs w).regrouped G := by
  have noticed (old t : State) : State.homeNoticed (old.regrouped G) (t.regrouped G) cs = (State.homeNoticed old t cs).regrouped G := by
    unfold State.homeNoticed
    rw [← State.regrouped_pokeDeps]
    exact congrArg (fun x : State => (x.pokeQueues (devHit cs 8)).pokeDeps (devHit cs 4)) 
      (State.regrouped_pegged { t with poison := t.poison.filter fun q => !coversSector cs q } G old)
  by_cases hc : cs = []
  · subst hc; exact s.regrouped_noteRoutes G []
  by_cases hp : pol = 3
  · unfold State.homeCells
    simp only [State.regrouped_noteRoutes, List.isEmpty_iff, hc, hp, if_true, if_false]; rfl
  · rw [State.homeCells_eq _ pol cs w hp hc, State.homeCells_eq _ pol cs w hp hc, State.regrouped_noteRoutes, State.regrouped_homePut,
      State.regrouped_l2Note, noticed]

theorem State.regrouped_raise (v : Nat) : (s.regrouped G).raise v = (s.raise v).regrouped G := State.ite_regrouped rfl rfl

theorem State.regrouped_fbWrite (r : FaultRec) : (s.regrouped G).fbWrite r = (s.fbWrite r).regrouped G := by
  unfold State.fbWrite State.homeStore
  simp only [State.regrouped_homeCells, State.regrouped_setD, State.regrouped_raise]
  rfl

theorem State.regrouped_postLoose (die : Nat) (bytes : List Byte) :
    (s.regrouped G).postLoose die bytes = (s.postLoose die bytes).regrouped G :=
  State.ite_regrouped rfl (State.ite_regrouped rfl (State.regrouped_fbWrite _ G _))

theorem State.regrouped_postHeld (r : FaultRec) : (s.regrouped G).postHeld r = (s.postHeld r).regrouped G :=
  State.ite_regrouped rfl (State.ite_regrouped rfl (State.regrouped_fbWrite _ G _))

theorem State.regrouped_freezeCtx (die ctx event master who pc addr detail gid : Nat) :
    (s.regrouped G).freezeCtx die ctx event master who pc addr detail gid =
      (s.freezeCtx die ctx event master who pc addr detail gid).regrouped G := by
  unfold State.freezeCtx
  simp only [State.regrouped_postHeld]; rfl

theorem State.regrouped_l1Lost (core ctx va : Nat) (user : Bool) :
    (s.regrouped G).l1Lost core ctx va user = (s.l1Lost core ctx va user).regrouped G := by
  unfold State.l1Lost
  simp only [State.regrouped_postLoose, State.regrouped_freezeCtx]
  exact State.ite_regrouped rfl rfl

theorem State.regrouped_l1BackLine (core : Nat) (p : Nat → L1Byte → Bool) (line : Nat) (old : Bool) :
    (s.regrouped G).l1BackLine core p line old = (s.l1BackLine core p line old).regrouped G := by
  unfold State.l1BackLine
  rw [show (s.regrouped G).core core = s.core core from rfl]
  simp only [State.regrouped_l1Fate, State.regrouped_homeCells, State.regrouped_poisonSectors, State.regrouped_setC, State.regrouped_l1Lost]
  generalize List.filterMap _ (List.map (fun e : Nat × L1Byte => (e, s.l1Fate core old e.1 e.2)) _) = lost
  cases lost <;> rfl

/-- A line leaves a core's L1 in the same way whatever the groups are. -/
theorem State.regrouped_l1Flush (core line : Nat) : (s.regrouped G).l1Flush core line = (s.l1Flush core line).regrouped G := by
  unfold State.l1Flush State.l1Back
  rw [show (s.regrouped G).core core = s.core core from rfl, State.foldl_regrouped s G fun u l => State.regrouped_l1BackLine u G _ _ _ _]; rfl

end

end Sys2Proof.Machine
end

section
/-! STORE_PERFORMED of an atomic at device memory (01 R16; 09 R172; 11 R218 to R220): the obligation O21. -/
namespace Sys2Proof.Machine

/-! ### Little-endian words -/

theorem length_leBytes (n v : Nat) : (leBytes n v).length = n := by
  induction n generalizing v with
  | zero => rfl
  | succ n ih => rw [leBytes, List.length_cons, ih]

theorem leNat_leBytes (n v : Nat) : leNat (leBytes n v) = v % 2 ^ (8 * n) := by
  induction n generalizing v with
  | zero => rw [Nat.mul_zero, Nat.pow_zero, Nat.mod_one]; rfl
  | succ n ih =>
    rw [leBytes, leNat, ih, BitVec.toNat_ofNat, show 8 * (n + 1) = 8 + 8 * n by ring, Nat.pow_add, show 2 ^ 8 = 256 from rfl, Nat.mod_mul]

theorem map_range_getD (l : List Byte) : (List.range l.length).map (fun i => l.getD i 0) = l := by
  refine List.ext_getElem (by simp) fun i h1 h2 => ?_
  simp [List.getElem?_eq_getElem h2]

/-! ### Words of device memory -/

/-- The byte that an access of a policy meets: at its stack for a cellar call, else as the home serves it (01 R16). -/
def State.devByte (s : State) (pol a : Nat) : Byte := if pol = 3 then mread s.mem a else s.homeByte a

/-- The word of n bytes that an access of a policy meets. -/
def State.devWord (s : State) (pol pa n : Nat) : Nat := leNat ((List.range n).map fun i => s.devByte pol (pa + i))

theorem map_range_succ {α : Type} (f : Nat → α) (a n : Nat) :
    (List.range (n + 1)).map (fun i => f (a + i)) = f a :: (List.range n).map fun i => f (a + 1 + i) := by
  rw [List.range_succ_eq_map, List.map_cons, List.map_map, Nat.add_zero]
  exact congrArg _ (List.map_congr_left fun i _ => congrArg f (by simp only [Nat.succ_eq_add_one]; omega))

theorem mreads_eq_map (m : Memory) (a n : Nat) : mreads m a n = (List.range n).map fun i => mread m (a + i) := by
  induction n generalizing a with
  | zero => rfl
  | succ n ih => rw [mreads, ih, map_range_succ]

theorem State.homeRead_eq_map (s : State) (a n : Nat) : s.homeRead a n = (List.range n).map fun i => s.homeByte (a + i) := by
  induction n generalizing a with
  | zero => rfl
  | succ n ih => rw [State.homeRead, ih, map_range_succ s.homeByte]

theorem State.devWord_eq (s : State) (pol pa n : Nat) :
    (if pol = 3 then leNat (mreads s.mem pa n) else s.homeField pa n) = s.devWord pol pa n := by
  unfold State.devWord State.devByte State.homeField
  rw [mreads_eq_map, State.homeRead_eq_map]
  split <;> rfl

/-- A write at a policy's place puts its bytes there, and leaves every other byte. -/
theorem State.homeCells_devByte {s : State} (h : DeviceCanonical s) (pol pa : Nat) (bs : List Byte) (a : Nat) :
    (s.homeCells pol (cellsOf pa (fullMask bs) bs)).devByte pol a =
      if pa ≤ a ∧ a < pa + bs.length then bs.getD (a - pa) 0 else s.devByte pol a := by
  unfold State.devByte
  by_cases hp : pol = 3
  · subst hp
    rw [if_pos rfl, if_pos rfl, (s.homeCells_stack _ none).2 h.mem, l2get_cellsOf_full_reverse, getD_ite_some]
  · rw [if_neg hp, if_neg hp, State.homeCells_homeByte h pol _ none hp, l2get_cellsOf_full_reverse, getD_ite_some]

theorem Noted.devByte {s t : State} (h : Noted s t) (pol a : Nat) : t.devByte pol a = s.devByte pol a := by
  unfold State.devByte
  rw [h.mem, h.homeByte]

/-! ### The atomic at its place -/

/-- The state with an atomic's result, where it has one, at its place; a cellar call's core is an unknown writer to the race detector. -/
def State.atomPut (u : State) (die ctx va pol pa n : Nat) (op : AtomOp) (v v2 : Nat) : State :=
  let t := match atomNew op (8 * n) (u.devWord pol pa n) v v2 with
    | some w => u.homeCells pol (cellsOf pa (fullMask (leBytes n w)) (leBytes n w))
    | none => u
  if pol = 3 then t.raceUnknown die ctx va pa n else t

/-- An atomic at a word without poison: its old value, and its result put there (11 R218 to R220). -/
theorem State.homeAtomic_clean {s : State} {pol pa n : Nat} (h : s.homePoison pa n = false) (op : AtomOp) (v v2 die ctx va : Nat) :
    (s.homeAtomic pol pa n op v v2).1 = s.devWord pol pa n ∧ (s.homeAtomic pol pa n op v v2).2.1 = false ∧
      (if pol = 3 then (s.homeAtomic pol pa n op v v2).2.2.raceUnknown die ctx va pa n else (s.homeAtomic pol pa n op v v2).2.2) =
        s.atomPut die ctx va pol pa n op v v2 := by
  unfold State.homeAtomic State.atomPut
  simp only [State.devWord_eq, h]
  cases atomNew op (8 * n) (s.devWord pol pa n) v v2 with
  | none => exact ⟨rfl, rfl, rfl⟩
  | some w => simp only [fullMask, length_leBytes]; exact ⟨rfl, rfl, rfl⟩

section
variable (u : State) (die ctx va pol pa n : Nat) (op : AtomOp) (v v2 : Nat)

theorem State.atomPut_pathKept : PathKept u (u.atomPut die ctx va pol pa n op v v2) := by
  unfold State.atomPut
  extract_lets t
  have ht : PathKept u t := by
    simp only [t]
    split
    · exact u.homeCells_pathKept _ _
    · exact .refl u
  clear_value t
  split
  · exact ht.trans (State.raceUnknown_noted _ _ _ _ _ _).path
  · exact ht

variable {u}

/-- The byte at an address once the result stands at its place. -/
theorem State.atomPut_devByte (h : DeviceCanonical u) (a : Nat) : (u.atomPut die ctx va pol pa n op v v2).devByte pol a =
    match atomNew op (8 * n) (u.devWord pol pa n) v v2 with
    | some w => if pa ≤ a ∧ a < pa + n then (leBytes n w).getD (a - pa) 0 else u.devByte pol a
    | none => u.devByte pol a := by
  unfold State.atomPut
  extract_lets t
  have ht : (if pol = 3 then t.raceUnknown die ctx va pa n else t).devByte pol a = t.devByte pol a := by
    split
    · exact (State.raceUnknown_noted _ _ _ _ _ _).devByte pol a
    · rfl
  rw [ht]
  simp only [t]
  cases atomNew op (8 * n) (u.devWord pol pa n) v v2 with
  | none => rfl
  | some w => simp only [State.homeCells_devByte h, length_leBytes]

theorem State.atomPut_other (h : DeviceCanonical u) (a : Nat) (ha : a < pa ∨ pa + n ≤ a) :
    (u.atomPut die ctx va pol pa n op v v2).devByte pol a = u.devByte pol a := by
  rw [State.atomPut_devByte die ctx va pol pa n op v v2 h]
  split
  · exact if_neg (by omega)
  · rfl

theorem State.atomPut_result (h : DeviceCanonical u) {w : Nat} (hw : atomNew op (8 * n) (u.devWord pol pa n) v v2 = some w) :
    (u.atomPut die ctx va pol pa n op v v2).devWord pol pa n = w % 2 ^ (8 * n) := by
  have hb : ∀ i ∈ List.range n, (u.atomPut die ctx va pol pa n op v v2).devByte pol (pa + i) = (leBytes n w).getD i 0 := fun i hi => by
    rw [State.atomPut_devByte die ctx va pol pa n op v v2 h, hw]
    have := List.mem_range.1 hi
    exact (if_pos (by omega)).trans (by rw [Nat.add_sub_cancel_left])
  have hm := map_range_getD (leBytes n w)
  rw [length_leBytes] at hm
  rw [State.devWord, List.map_congr_left hb, hm, leNat_leBytes]

theorem State.atomPut_kept (h : DeviceCanonical u) (hw : atomNew op (8 * n) (u.devWord pol pa n) v v2 = none) :
    (u.atomPut die ctx va pol pa n op v v2).devWord pol pa n = u.devWord pol pa n := by
  unfold State.devWord
  refine congrArg leNat (List.map_congr_left fun i _ => ?_)
  rw [State.atomPut_devByte die ctx va pol pa n op v v2 h, hw]

end

/-! ### The atomic's Return -/

/-- A group told of an atomic's value: the lane's is ready, or a no-return form's count falls (11 R219, R220). -/
def Group.toldAtom (g : Group) (o : StoreOp) (n old : Nat) : Group :=
  if o.dst < 256 then g.ready o.ret o.lane (atomWrites o.lane o.dst n old false) else g.oneDone o.ret

theorem State.atomDone_clean (s : State) (gid : Nat) (o : StoreOp) (n old : Nat) :
    s.atomDone gid o n old false = s.setG gid fun g => g.toldAtom o n old := by
  unfold State.atomDone Group.toldAtom
  by_cases h : o.dst < 256
  · rw [if_pos h]; simp only [h, if_true]
  · rw [if_neg h]; simp only [h, if_false]; rfl

theorem Group.toldAtom_stores (g : Group) (o : StoreOp) (n old : Nat) : (g.toldAtom o n old).stores = g.stores := by
  unfold Group.toldAtom
  split
  · rfl
  · exact Group.oneDone_stores _ _

theorem Group.NoRefusal.toldAtom {g : Group} {o : StoreOp} (h : g.NoRefusal o.ret) (n old : Nat) : (g.toldAtom o n old).NoRefusal o.ret := by
  unfold Group.toldAtom
  split
  · exact h.setRet (fun _ => rfl) fun _ => rfl
  · exact h.oneDone

/-- A lane of a Return holds an atomic's old value, ready to land. -/
def Group.AtomReady (g : Group) (o : StoreOp) (n old : Nat) : Prop :=
  ∃ q, g.ret? o.ret = some q ∧ ∃ y ∈ q.lanes, y.lane = o.lane ∧ y.ready = true ∧ y.ws = atomWrites o.lane o.dst n old false

theorem Group.toldAtom_ready {g : Group} {o : StoreOp} (hd : o.dst < 256) {r : Return} (hr : g.ret? o.ret = some r) {x : LaneRet}
    (hx : x ∈ r.lanes) (hl : x.lane = o.lane) (n old : Nat) : (g.toldAtom o n old).AtomReady o n old := by
  unfold Group.toldAtom Group.ready
  rw [if_pos hd]
  have e := Group.ret?_setRet g o.ret (fun r => { r with lanes := r.lanes.map fun l =>
    if l.lane = o.lane then { l with ready := true, ws := atomWrites o.lane o.dst n old false } else l }) fun _ => rfl
  rw [hr] at e
  exact ⟨_, e, _, List.mem_map_of_mem hx, by rw [if_pos hl]; exact ⟨hl, rfl, rfl⟩⟩

theorem Group.AtomReady.setRet {g : Group} {o : StoreOp} {n old : Nat} (h : g.AtomReady o n old) {f : Return → Return}
    (hi : ∀ r, (f r).id = r.id) (hl : ∀ r, (f r).lanes = r.lanes) : (g.setRet o.ret f).AtomReady o n old := by
  obtain ⟨q, hq, y, hy, h⟩ := h
  exact ⟨f q, (Group.ret?_setRet g o.ret f hi).trans (by rw [hq]; rfl), y, hl q ▸ hy, h⟩

/-! ### The step -/

/-- A core's line written back and dropped before an access at its home (11 R219). -/
def State.lineHome (s : State) (gid pa : Nat) : State :=
  if (s.grp gid).hasL1 then s.l1Flush (s.grp gid).place (pa / 256) else s

theorem State.lineHome_onPath (s : State) (gid pa : Nat) : OnPath s (s.lineHome gid pa) := by
  unfold State.lineHome
  split
  · exact s.l1Flush_onPath _ _
  · exact .refl s

/-- The line goes home in the same way once the atomic has left its queue. -/
theorem State.lineHome_dequeued (s : State) (gid pa : Nat) :
    (s.dequeued gid).lineHome gid pa = (s.lineHome gid pa).regrouped (s.dequeued gid).groups := by
  unfold State.lineHome
  rw [State.dequeued_grp]
  exact State.ite_regrouped (State.regrouped_l1Flush s _ _ _) rfl

theorem State.performStore_atom {s : State} {gid pa pol v v2 : Nat} {o : StoreOp} {op : AtomOp} {wide : Bool} (ha : o.act = .atom op wide v v2)
    (ht : o.tgt = .dev pa pol) (ho : o.order = .plain)
    (hp : (s.lineHome gid pa).homePoison pa (if wide then 8 else 4) = false) :
    s.performStore gid o =
      (((s.dequeued gid).lineHome gid pa).atomPut (s.grp gid).die (s.grp gid).ctx o.va pol pa (if wide then 8 else 4) op v v2).setG gid
        fun g => g.toldAtom o (if wide then 8 else 4) ((s.lineHome gid pa).devWord pol pa (if wide then 8 else 4)) := by
  have hp1 : ((s.dequeued gid).lineHome gid pa).homePoison pa (if wide then 8 else 4) = false := by
    rw [State.lineHome_dequeued]; exact hp
  have hw : ((s.dequeued gid).lineHome gid pa).devWord pol pa (if wide then 8 else 4) =
      (s.lineHome gid pa).devWord pol pa (if wide then 8 else 4) := by rw [State.lineHome_dequeued]; rfl
  obtain ⟨h1, h2, h3⟩ := State.homeAtomic_clean (pol := pol) hp1 op v v2 (s.grp gid).die (s.grp gid).ctx o.va
  have hg : (s.dequeued gid).grp gid = _ := State.dequeued_grp s gid
  unfold State.performStore
  rw [ht]
  show (s.dequeued gid).performAct gid o = _
  unfold State.performAct
  rw [ha]
  show (s.dequeued gid).performAtom gid o op wide v v2 = _
  rw [← State.atomDone_clean, ← hw, ← h1, ← h2, ← h3]
  unfold State.performAtom
  rw [ht, ho]
  simp only [MOrder.acq, Bool.and_false, Bool.false_and, if_false, Bool.false_eq_true]
  unfold State.lineHome
  rw [hg]; rfl

end Sys2Proof.Machine

namespace Sys2Proof
open Machine

/-- Settles O21: the core's line is home, the result stands at its place and the lane has the old value. -/
theorem atomicsPerform : Obligations.AtomicsPerform := by
  unfold Obligations.AtomicsPerform
  intro s gid pa pol v v2 o os op wide hg hs ha ht hp ho hm hn n u byte word hclean
  have hu : DeviceCanonical (s.lineHome gid pa) := (s.lineHome_onPath gid pa).canonical hm.device
  have hd : (s.dequeued gid).lineHome gid pa = (s.lineHome gid pa).regrouped (s.dequeued gid).groups := s.lineHome_dequeued gid pa
  have hd1 : DeviceCanonical ((s.dequeued gid).lineHome gid pa) := by rw [hd]; exact ⟨hu.mem, hu.l2⟩
  have hstep := State.performStore_atom ha ht ho hclean
  have hput := State.atomPut_pathKept ((s.dequeued gid).lineHome gid pa) (s.grp gid).die (s.grp gid).ctx o.va pol pa n op v v2
  have hgrp : (s.performStore gid o).grp gid = Group.toldAtom { s.grp gid with stores := os } o n (word u) := by
    rw [hstep, State.setG_grp_same, State.grp, hput.groups, ((s.dequeued gid).lineHome_onPath gid pa).path.groups]
    show Group.toldAtom ((s.dequeued gid).grp gid) o n (word u) = _
    rw [State.dequeued_grp, hs]; rfl
  have hq : ((s.performStore gid o).grp gid).NoRefusal o.ret := by
    rw [hgrp]; exact Group.NoRefusal.toldAtom (g := { s.grp gid with stores := os }) hn n _
  have hex : exec (.storePerformed gid) s = .next ((s.performStore gid o).stallOver gid o.ret) := by
    rw [exec_storePerformed hg hs, State.headStep_plain s gid (by rw [ha]; rfl) (by simp [ha]) ho, if_pos hp]
  obtain ⟨G, hG, hst⟩ := State.stallOver_keeps hq
  refine ⟨_, hex, ?_⟩
  have hbyte (a : Nat) : byte ((s.performStore gid o).stallOver gid o.ret) a =
      (((s.dequeued gid).lineHome gid pa).atomPut (s.grp gid).die (s.grp gid).ctx o.va pol pa n op v v2).devByte pol a := by
    rw [hG, hstep]; rfl
  have hword : word ((s.performStore gid o).stallOver gid o.ret) =
      (((s.dequeued gid).lineHome gid pa).atomPut (s.grp gid).die (s.grp gid).ctx o.va pol pa n op v v2).devWord pol pa n :=
    congrArg leNat (List.map_congr_left fun i _ => hbyte (pa + i))
  have hold : ((s.dequeued gid).lineHome gid pa).devWord pol pa n = word u := by rw [hd]; rfl
  refine ⟨?_, fun w hw => ?_, fun hw => ?_, fun a h => ?_, fun hdst r hr x hx hl => ?_⟩
  · rw [hG]
    exact hst.trans (by rw [hgrp, Group.toldAtom_stores])
  · rw [hword]
    exact State.atomPut_result _ _ _ pol pa n op v v2 hd1 (by rw [hold]; exact hw)
  · rw [hword, ← hold]
    exact State.atomPut_kept _ _ _ pol pa n op v v2 hd1 (by rw [hold]; exact hw)
  · rw [hbyte, State.atomPut_other _ _ _ pol pa n op v v2 hd1 a h, hd]; rfl
  · have hready : ((s.performStore gid o).grp gid).AtomReady o n (word u) := by
      rw [hgrp]; exact Group.toldAtom_ready (g := { s.grp gid with stores := os }) hdst hr hx hl n _
    rcases State.stallOver_noRefusal hq with e | e
    · rw [e]; exact hready
    · rw [e, State.setG_grp_same]; exact hready.setRet (fun _ => rfl) fun _ => rfl

end Sys2Proof
end

section
/-! SUPPORT. A record that finds room in a die's fault buffer, and what its write leaves (17 R335 to R337). -/
namespace Sys2Proof
open Machine

theorem Machine.length_faultBytes (kind code ctx : Nat) (nested : Bool) (who pc addr detail : Nat) :
    (faultBytes kind code ctx nested who pc addr detail).length = 32 := by
  simp [faultBytes, record, length_leBytes]

/-- 32 bytes cover no sector of 64 (17 R344). -/
theorem Machine.coversSector_short (pa : Nat) {bs : List Byte} (hl : bs.length = 32) (q : Nat) :
    coversSector (cellsOf pa (fullMask bs) bs) q = false := by
  rw [Bool.eq_false_iff]
  intro h
  have addr (i : Nat) (hi : i < 64) : pa ≤ 64 * q + i ∧ 64 * q + i < pa + 32 := by
    have := List.all_eq_true.1 h i (List.mem_range.2 hi)
    simp only [List.any_eq_true, beq_iff_eq] at this
    obtain ⟨c, hc, e⟩ := this
    have hm := List.mem_map_of_mem (f := (·.1)) hc
    rw [cellsOf_full_addrs, List.mem_range'_1, hl] at hm
    omega
  have := addr 0 (by decide)
  have := addr 63 (by decide)
  omega

/-- What a write of the N8's own bytes at the home leaves besides: the path's counts, and the poison of sectors that it does not cover. -/
theorem Machine.State.homeStore_notes {s : State} (pa : Nat) {bs : List Byte} (hl : bs.length = 32) :
    (∀ k, ((s.homeStore pa bs).die k).widx = (s.die k).widx) ∧ (s.homeStore pa bs).poison = s.poison ∧
      (s.mem.wf = true → (s.homeStore pa bs).mem.wf = true) := by
  have hc : cellsOf pa (fullMask bs) bs ≠ [] := fun h => by
    have := congrArg List.length (cellsOf_full_addrs pa bs)
    simp [h, hl] at this
  have h0 := s.noteRoutes_noted (cellsOf pa (fullMask bs) bs)
  have h2 := State.l2Note_noted ((s.noteRoutes (cellsOf pa (fullMask bs) bs)).homePut 2 (cellsOf pa (fullMask bs) bs)) 2 (by decide)
    (cellsOf pa (fullMask bs) bs) none
  have h3 := State.homeNoticed_noted (s.noteRoutes (cellsOf pa (fullMask bs) bs))
    (((s.noteRoutes (cellsOf pa (fullMask bs) bs)).homePut 2 (cellsOf pa (fullMask bs) bs)).l2Note 2 (cellsOf pa (fullMask bs) bs) none)
    (cellsOf pa (fullMask bs) bs)
  have hf (l : List Nat) : (l.filter fun q => !coversSector (cellsOf pa (fullMask bs) bs) q) = l :=
    List.filter_eq_self.2 fun q _ => by rw [coversSector_short pa hl]; rfl
  rw [State.homeStore, State.homeCells_eq s 2 _ none (by decide) hc]
  refine ⟨fun k => (h3.widx k).trans ((h2.widx k).trans (h0.widx k)), ?_, fun hm => ?_⟩
  · exact h3.poison.trans ((hf _).trans (h2.poison.trans h0.poison))
  · rw [h3.mem]
    exact h2.mem ▸ wf_foldl_mwrite (h0.mem ▸ hm) _

theorem Machine.State.homeStore_homeByte {s : State} (h : s.mem.wf = true) (pa : Nat) (bs : List Byte) (a : Nat) :
    (s.homeStore pa bs).homeByte a = if pa ≤ a ∧ a < pa + bs.length then bs.getD (a - pa) 0 else s.homeByte a := by
  rw [State.homeStore, State.homeCells_homeByte_uncached h, l2get_cellsOf_full_reverse, getD_ite_some]

theorem Machine.State.mem_raise (s : State) (v : Nat) : v ∈ (s.raise v).msiDue := by
  unfold State.raise
  split
  · next h => exact List.contains_iff_mem.1 h
  · exact List.mem_append_right _ List.mem_cons_self

/-- The bytes of a record that a die's buffer took. -/
structure TookRecord (s t : State) (die : Nat) (bytes : List Byte) : Prop where
  path : PathKept s t
  recorded : Recorded s t die bytes
  elsewhere : ∀ a, (a < recordPa s die (s.die die).widx ∨ recordPa s die (s.die die).widx + 32 ≤ a) → t.homeByte a = s.homeByte a
  poison : t.poison = s.poison
  mem : t.mem.wf = true

theorem Machine.State.fbWrite_took {s : State} (hm : s.mem.wf = true) {r : FaultRec} (hl : r.bytes.length = 32) :
    TookRecord s (s.fbWrite r) r.die r.bytes := by
  obtain ⟨hw, hp, hwf⟩ := State.homeStore_notes (s := s) (recordPa s r.die (s.die r.die).widx) hl
  have hv := State.raise_noted ((s.homeStore (recordPa s r.die (s.die r.die).widx) r.bytes).setD r.die fun d =>
    { d with widx := (d.widx + 1) % 65536, records := d.records ++ [{ r with gen := d.gen, slot := d.widx }] }) r.die
  have hb (a : Nat) : (s.fbWrite r).homeByte a = if recordPa s r.die (s.die r.die).widx ≤ a ∧ a < recordPa s r.die (s.die r.die).widx + 32
      then r.bytes.getD (a - recordPa s r.die (s.die r.die).widx) 0 else s.homeByte a := by
    rw [← hl, ← State.homeStore_homeByte hm]
    exact hv.homeByte a
  refine ⟨(s.fbWrite_onPath r).path, ⟨?_, ?_, State.mem_raise _ _⟩, fun a ha => ?_, hv.poison.trans hp, ?_⟩
  · rw [State.homeRead_eq_map, ← map_range_getD r.bytes, hl]
    refine List.map_congr_left fun i hi => ?_
    have := List.mem_range.1 hi
    rw [hb, if_pos (by omega), Nat.add_sub_cancel_left]
  · refine (hv.widx r.die).trans ?_
    rw [State.setD_die_same, hw]
  · rw [hb, if_neg (by omega)]
  · exact (congrArg Memory.wf hv.mem).trans (hwf hm)

/-- Two states have the same fault buffer of a die, with the same room in the same memory. -/
structure SameRing (s t : State) (die : Nat) : Prop where
  fbbase : (t.die die).fbbase = (s.die die).fbbase
  widx : (t.die die).widx = (s.die die).widx
  ridx : (t.die die).ridx = (s.die die).ridx
  down : t.down = s.down
  mem : t.mem = s.mem
  l2 : t.l2 = s.l2
  poison : t.poison = s.poison

namespace SameRing
variable {s t : State} {die : Nat}

theorem trans {u : State} (h : SameRing s t die) (k : SameRing t u die) : SameRing s u die :=
  ⟨k.fbbase.trans h.fbbase, k.widx.trans h.widx, k.ridx.trans h.ridx, k.down.trans h.down, k.mem.trans h.mem, k.l2.trans h.l2,
    k.poison.trans h.poison⟩

/-- A change of a die that leaves its buffer's registers. -/
theorem setD (s : State) (n : Nat) (f : Die → Die) (die : Nat)
    (hf : ∀ d, (f d).fbbase = d.fbbase ∧ (f d).widx = d.widx ∧ (f d).ridx = d.ridx := by exact fun _ => ⟨rfl, rfl, rfl⟩) :
    SameRing s (s.setD n f) die := by
  have h : ((s.setD n f).die die).fbbase = (s.die die).fbbase ∧ ((s.setD n f).die die).widx = (s.die die).widx ∧
      ((s.setD n f).die die).ridx = (s.die die).ridx := by
    by_cases hn : die = n
    · subst hn; rw [State.setD_die_same]; exact hf _
    · rw [State.setD_die_other _ _ _ _ hn]; exact ⟨rfl, rfl, rfl⟩
  exact ⟨h.1, h.2.1, h.2.2, rfl, rfl, rfl, rfl⟩

theorem room (h : SameRing s t die) {n : Nat} (hr : FaultRoom s die n) : FaultRoom t die n where
  on := by rw [h.fbbase]; exact hr.on
  widx := by rw [h.widx]; exact hr.widx
  ridx := by rw [h.ridx]; exact hr.ridx
  room := by rw [h.widx, h.ridx]; exact hr.room
  reached := by
    have := hr.reached
    unfold State.fbCut State.cut Die.fbRing at this ⊢
    rw [h.fbbase, h.down]; exact this
  canonical := by rw [h.mem]; exact hr.canonical

theorem recordPa (h : SameRing s t die) (i : Nat) : recordPa t die i = Sys2Proof.recordPa s die i := by
  unfold Sys2Proof.recordPa Die.fbRing
  rw [h.fbbase]

theorem recorded (h : SameRing s t die) {u : State} {bytes : List Byte} (k : Recorded t u die bytes) : Recorded s u die bytes :=
  ⟨by rw [← h.recordPa, ← h.widx]; exact k.bytes, by rw [← h.widx]; exact k.widx, k.vector⟩

theorem homeByte (h : SameRing s t die) (a : Nat) : t.homeByte a = s.homeByte a := by rw [State.homeByte, h.mem, h.l2]; rfl

end SameRing

/-- A record that holds nothing is written where the buffer has room and its ring can be reached. -/
theorem FaultRoom.postLoose {s : State} {die n : Nat} (h : FaultRoom s die n) (hn : 0 < n) (bytes : List Byte) :
    s.postLoose die bytes = s.fbWrite { die := die, bytes := bytes } := by
  have hf : (s.die die).fbFull = false := by
    have := h.room
    simp only [Die.fbFull, Die.fbEn, h.on, Bool.not_true, Bool.false_or, beq_eq_false_iff_ne]
    omega
  unfold State.postLoose
  rw [hf, h.reached]; rfl

/-- A hardware event is recorded where the buffer has room (17 Table 17.6). -/
theorem FaultRoom.postHw {s : State} {die n : Nat} (h : FaultRoom s die n) (hn : 0 < n) (code who detail : Nat) :
    TookRecord s (s.postHw die code who detail) die (faultBytes 6 code 0 false who 0 0 detail) := by
  rw [State.postHw, h.postLoose hn]
  exact State.fbWrite_took h.canonical (r := { die := die, bytes := _ }) (length_faultBytes _ _ _ _ _ _ _ _)

/-- Room for one record less is left once one has been written. -/
theorem TookRecord.room {s t : State} {die n : Nat} {bytes : List Byte} (h : TookRecord s t die bytes) (hr : FaultRoom s die (n + 1)) :
    FaultRoom t die n where
  on := by rw [h.path.fbbase]; exact hr.on
  widx := by rw [h.recorded.widx]; omega
  ridx := by rw [h.path.ridx]; exact hr.ridx
  room := by
    have := hr.room
    have := hr.widx
    have := hr.ridx
    rw [h.recorded.widx, h.path.ridx]
    omega
  reached := by
    have := hr.reached
    unfold State.fbCut State.cut Die.fbRing at this ⊢
    rw [h.path.fbbase, h.path.down]; exact this
  canonical := h.mem

theorem TookRecord.recordPa {s t : State} {die : Nat} {bytes : List Byte} (h : TookRecord s t die bytes) (i : Nat) :
    recordPa t die i = Sys2Proof.recordPa s die i := by
  unfold Sys2Proof.recordPa Die.fbRing
  rw [h.path.fbbase]

end Sys2Proof
end

section
/-! Retirement of cores, matrix resources and cellar cores, and the sparing of rows (01 R14; 17 R345, R346): the obligation O50. -/
namespace Sys2Proof
open Machine

/-! ### Saves of teams that leave -/

/-- Where every resident team that a test picks has no room to leave and is not being saved, no save begins and none goes on (log 70). -/
theorem Machine.State.saves_idle {s : State} {p : Team → Bool}
    (h : ∀ e ∈ s.teams, e.2.phase = .resident → p e.2 = true → e.2.noRoom = true ∧ e.2.saving = none) :
    s.saveThose p = s ∧ s.saveOn p = s := by
  have hb : (s.teams.filter fun e => e.2.phase == .resident && p e.2 && e.2.saving.isNone && !e.2.noRoom) = [] := by
    refine List.filter_eq_nil_iff.2 fun e he hc => ?_
    simp only [Bool.and_eq_true, beq_iff_eq, Bool.not_eq_true'] at hc
    obtain ⟨⟨⟨hr, hp⟩, _⟩, hn⟩ := hc
    rw [(h e he hr hp).1] at hn
    cases hn
  have hg : (s.teams.filter fun e => e.2.phase == .resident && p e.2 && e.2.saving.isSome) = [] := by
    refine List.filter_eq_nil_iff.2 fun e he hc => ?_
    simp only [Bool.and_eq_true, beq_iff_eq] at hc
    obtain ⟨⟨hr, hp⟩, hs⟩ := hc
    rw [(h e he hr hp).2] at hs
    cases hs
  constructor
  · rw [State.saveThose, hb]; rfl
  · rw [State.saveOn, hg]; rfl

/-! ### Cores (17 R346) -/

/-- A suspect core, counted. -/
def Machine.State.suspected (s : State) (core : Nat) : State := (s.suspect core).tally 7

/-- A suspect core that has no team left, as it is retired. -/
def Machine.State.vacated (s : State) (core : Nat) : State := (s.suspected core).setC core fun c => { c with retiring := none }

/-- The pair's spare stands for a retired core (01 R14). -/
def Machine.State.spareTaken (s : State) (core : Nat) : State :=
  (s.vacated core).setD (dieOfCore core) fun d => { d with spares := tput d.spares (core % 128 / 16) (core % 16 + 1) }

/-- A retired core's ID out of service. -/
def Machine.State.leftService (s : State) (core : Nat) : State := (s.vacated core).setC core fun c => { c with out := true }

/-- A core in service that is not suspect yet becomes so, and its retirement takes its first step. -/
theorem exec_coreRetirement {s : State} {core : Nat} (hc : core < 1024) (ho : (s.core core).out = false) (hr : (s.core core).retiring = none) :
    exec (.coreRetirement core) s = .next ((s.suspected core).retireStep core) := by
  show execCoreRetirement core s = _
  simp only [execCoreRetirement, unitStep, hc, decide_true, if_true, ho, hr, Option.isSome_none, Bool.false_eq_true, if_false]
  rfl

theorem exec_coreRetirement_out {s : State} {core : Nat} (hc : core < 1024) (ho : (s.core core).out = true) :
    exec (.coreRetirement core) s = .next s := by
  show execCoreRetirement core s = _
  simp only [execCoreRetirement, unitStep, hc, decide_true, if_true, ho]

/-- A suspect core without guests, whose teams cannot leave, is retired once it holds none. -/
theorem Machine.State.retireStep_idle {s : State} {core : Nat} (hg : s.guestsOf core = [])
    (h : ∀ e ∈ s.teams, e.2.phase = .resident → e.2.core = core → e.2.noRoom = true ∧ e.2.saving = none) :
    s.retireStep core = if s.teams.any (fun e => e.2.phase == .resident && e.2.core == core) then s else s.retireCore core := by
  obtain ⟨hb, ho⟩ := State.saves_idle (s := s) (p := fun t => t.core == core) fun e he hr hp => h e he hr (beq_iff_eq.1 hp)
  unfold State.retireStep
  simp only [hg, List.foldl_nil, hb, ho, State.emptied, List.isEmpty_nil, Bool.and_true]
  cases s.teams.any fun e => e.2.phase == .resident && e.2.core == core <;> rfl

/-- A core that no team stands on is retired with none to restore: its ID goes to the pair's spare, or leaves service (01 R14). -/
theorem Machine.State.retireCore_empty {s : State} {core : Nat} (h : ∀ e ∈ s.teams, ¬(e.2.phase = .resident ∧ e.2.core = core)) :
    (s.suspected core).retireCore core =
      if tget 0 (s.die (dieOfCore core)).spares (core % 128 / 16) = 0 then
        (s.spareTaken core).postHw (dieOfCore core) 1 (core + 65536 * dieOfCore core) (core % 128 / 16 + 256 * core)
      else (s.leftService core).postHw (dieOfCore core) 2 (core + 65536 * dieOfCore core) core := by
  have hts : (s.teams.filter fun e => e.2.phase == .resident && e.2.core == core) = [] := by
    refine List.filter_eq_nil_iff.2 fun e he hc => h e he ?_
    simpa only [Bool.and_eq_true, beq_iff_eq] using hc
  have hret : ((s.suspected core).core core).retiring.getD [] = [] := by
    show (((s.suspect core).core core).retiring).getD [] = []
    rw [State.suspect, hts, State.setC_core_same]; rfl
  unfold State.retireCore
  simp only [hret, List.foldl_nil]
  rfl

theorem Machine.State.setC_out (s : State) (n : Nat) (f : Core → Core) (hf : ∀ c, (f c).out = c.out := by exact fun _ => rfl) (c : Nat) :
    ((s.setC n f).core c).out = (s.core c).out := by
  by_cases h : c = n
  · subst h; rw [State.setC_core_same, hf]
  · rw [State.setC_core_other _ _ _ _ h]

/-- A core that is retired is in service until then as it was before it became suspect. -/
theorem Machine.State.vacated_out (s : State) (core c : Nat) : ((s.vacated core).core c).out = (s.core c).out :=
  (State.setC_out _ core _ (c := c)).trans (State.setC_out s core (fun c => { c with retiring := some _ }) (c := c))

section
variable {s : State} {core : Nat}

/-- An empty core in service, without guests, is retired in one step. -/
theorem exec_coreRetirement_empty (hc : core < 1024) (ho : (s.core core).out = false) (hr : (s.core core).retiring = none)
    (hg : s.guestsOf core = []) (ht : ∀ e ∈ s.teams, ¬(e.2.phase = .resident ∧ e.2.core = core)) :
    exec (.coreRetirement core) s = .next ((s.suspected core).retireCore core) := by
  have hany : (s.teams.any fun e => e.2.phase == .resident && e.2.core == core) = false :=
    List.any_eq_false.2 fun e he h => ht e he (by simpa only [Bool.and_eq_true, beq_iff_eq] using h)
  rw [exec_coreRetirement hc ho hr, State.retireStep_idle (s := s.suspected core) hg fun e he hr hm => absurd ⟨hr, hm⟩ (ht e he),
    show (s.suspected core).teams = s.teams from rfl, hany, if_neg Bool.false_ne_true]

/-- The pair's spare takes the core's ID. -/
theorem coreRetirement_spare (hc : core < 1024) (ho : (s.core core).out = false) (hr : (s.core core).retiring = none) (hg : s.guestsOf core = [])
    (ht : ∀ e ∈ s.teams, ¬(e.2.phase = .resident ∧ e.2.core = core)) (hroom : FaultRoom s (dieOfCore core) 1)
    (hs : tget 0 (s.die (dieOfCore core)).spares (core % 128 / 16) = 0) :
    ∃ t, exec (.coreRetirement core) s = .next t ∧ tget 0 (t.die (dieOfCore core)).spares (core % 128 / 16) = core % 16 + 1 ∧
      (∀ c, (t.core c).out = (s.core c).out) ∧
      Recorded s t (dieOfCore core) (faultBytes 6 1 0 false (core + 65536 * dieOfCore core) 0 0 (core % 128 / 16 + 256 * core)) ∧
      t.groups = s.groups ∧ t.teams = s.teams := by
  refine ⟨_, exec_coreRetirement_empty hc ho hr hg ht, ?_⟩
  rw [State.retireCore_empty ht, if_pos hs]
  have base : SameRing s (s.vacated core) (dieOfCore core) := ⟨rfl, rfl, rfl, rfl, rfl, rfl, rfl⟩
  have ring : SameRing s (s.spareTaken core) (dieOfCore core) := base.trans (SameRing.setD (s.vacated core) _ _ _)
  have took := (ring.room hroom).postHw (by decide) 1 (core + 65536 * dieOfCore core) (core % 128 / 16 + 256 * core)
  refine ⟨?_, fun c => ?_, ring.recorded took.recorded, took.path.groups, took.path.teams⟩
  · rw [took.path.spares, State.spareTaken, State.setD_die_same]
    exact tget_tput_same _ _ _ _
  · rw [took.path.out]
    exact s.vacated_out core c

/-- With the pair's spare taken the core's ID leaves service. -/
theorem coreRetirement_out (hc : core < 1024) (ho : (s.core core).out = false) (hr : (s.core core).retiring = none) (hg : s.guestsOf core = [])
    (ht : ∀ e ∈ s.teams, ¬(e.2.phase = .resident ∧ e.2.core = core)) (hroom : FaultRoom s (dieOfCore core) 1)
    (hs : tget 0 (s.die (dieOfCore core)).spares (core % 128 / 16) ≠ 0) :
    ∃ t, exec (.coreRetirement core) s = .next t ∧ (∀ c, (t.core c).out = (c == core || (s.core c).out)) ∧
      (∀ k, (t.die k).spares = (s.die k).spares) ∧
      Recorded s t (dieOfCore core) (faultBytes 6 2 0 false (core + 65536 * dieOfCore core) 0 0 core) ∧
      t.groups = s.groups ∧ t.teams = s.teams := by
  refine ⟨_, exec_coreRetirement_empty hc ho hr hg ht, ?_⟩
  rw [State.retireCore_empty ht, if_neg hs]
  have ring : SameRing s (s.leftService core) (dieOfCore core) := ⟨rfl, rfl, rfl, rfl, rfl, rfl, rfl⟩
  have took := (ring.room hroom).postHw (by decide) 2 (core + 65536 * dieOfCore core) core
  refine ⟨fun c => ?_, took.path.spares, ring.recorded took.recorded, took.path.groups, took.path.teams⟩
  rw [took.path.out, State.leftService]
  by_cases h : c = core
  · subst h; rw [State.setC_core_same, beq_self_eq_true]; rfl
  · rw [State.setC_core_other _ _ _ _ h, State.vacated_out, beq_false_of_ne h]; rfl

end

/-! ### Matrix resources (17 R346) -/

section
variable {s : State} {cl : Nat}

/-- A cluster without its matrix resources, counted. -/
def Machine.State.matrixLeft (s : State) (cl : Nat) : State := (s.setCl cl fun c => { c with matrixOut := true }).tally 7

/-- Where no team with matrix resources stands on the cluster, its retirement is the mark and the record alone. -/
theorem exec_matrixRetirement (hc : cl < 128) (ht : ∀ e ∈ s.teams, ¬(e.2.phase = .resident ∧ clusterOfCore e.2.core = cl ∧ e.2.hasMatrix = true)) :
    exec (.matrixResourceRetirement cl) s = .next (if (s.cluster cl).matrixOut then s
      else (s.matrixLeft cl).postHw (dieOfCluster cl) 3 (65536 * dieOfCluster cl + 2 ^ 20) cl) := by
  have idle (u : State) (hu : u.teams = s.teams) :
      (u.saveThose fun t => clusterOfCore t.core == cl && t.hasMatrix).saveOn (fun t => clusterOfCore t.core == cl && t.hasMatrix) = u := by
    obtain ⟨hb, ho⟩ := State.saves_idle (s := u) (p := fun t => clusterOfCore t.core == cl && t.hasMatrix) fun e he hr hm => by
      rw [Bool.and_eq_true, beq_iff_eq] at hm
      exact absurd ⟨hr, hm⟩ (ht e (hu ▸ he))
    rw [hb, ho]
  show execMatrixResourceRetirement cl s = _
  simp only [execMatrixResourceRetirement, unitStep, hc, decide_true, if_true]
  refine congrArg _ (idle _ ?_)
  split
  · rfl
  · exact (State.postLoose_onPath _ _ _).path.teams

theorem matrixRetirement_fresh (hc : cl < 128)
    (ht : ∀ e ∈ s.teams, ¬(e.2.phase = .resident ∧ clusterOfCore e.2.core = cl ∧ e.2.hasMatrix = true))
    (ho : (s.cluster cl).matrixOut = false) (hroom : FaultRoom s (dieOfCluster cl) 1) :
    ∃ t, exec (.matrixResourceRetirement cl) s = .next t ∧ (∀ k, (t.cluster k).matrixOut = (k == cl || (s.cluster k).matrixOut)) ∧
      Recorded s t (dieOfCluster cl) (faultBytes 6 3 0 false (65536 * dieOfCluster cl + 2 ^ 20) 0 0 cl) ∧ t.teams = s.teams ∧
      ∀ core bytes base, clusterOfCore core = cl → (demandOf bytes).matrix = true → t.fits bytes base core = false := by
  refine ⟨_, exec_matrixRetirement hc ht, ?_⟩
  rw [ho, if_neg Bool.false_ne_true]
  have ring : SameRing s (s.matrixLeft cl) (dieOfCluster cl) := ⟨rfl, rfl, rfl, rfl, rfl, rfl, rfl⟩
  have took := (ring.room hroom).postHw (by decide) 3 (65536 * dieOfCluster cl + 2 ^ 20) cl
  have hout (k : Nat) : (((s.matrixLeft cl).postHw (dieOfCluster cl) 3 (65536 * dieOfCluster cl + 2 ^ 20) cl).cluster k).matrixOut =
      (k == cl || (s.cluster k).matrixOut) := by
    rw [State.cluster, took.path.clusters]
    show ((s.setCl cl fun c => { c with matrixOut := true }).cluster k).matrixOut = _
    by_cases h : k = cl
    · subst h; rw [State.setCl_cluster_same, beq_self_eq_true]; rfl
    · rw [State.setCl_cluster_other _ _ _ _ h, beq_false_of_ne h]; rfl
  refine ⟨hout, ring.recorded took.recorded, took.path.teams, fun core bytes base hcl hm => ?_⟩
  have hmo := hout cl
  rw [beq_self_eq_true, Bool.true_or] at hmo
  simp only [State.fits, hcl, hmo, hm, Bool.and_self, Bool.not_true, Bool.and_false, Bool.false_and]

end

/-! ### Rows (17 R345) -/

section
variable {s : State} {st ch bank : Nat}

/-- A row moved to a spare row of its bank. -/
def Machine.State.rowMoved (s : State) (st i : Nat) : State := s.setS st fun t => { t with spared := tput t.spared i (tget 0 t.spared i + 1) }

/-- The bank's last spare row is in use. -/
def Machine.State.bankUsed (s : State) (st i : Nat) : State := s.setS st fun t => { t with banksOut := t.banksOut ++ [i] }

theorem exec_rowSparing_out (hst : st < 16) (hch : ch < 32) (hb : bank < 128) (h : 128 * ch + bank ∈ (s.stack st).banksOut) :
    exec (.rowSparing st ch bank) s = .next s := by
  show execRowSparing st ch bank s = _
  have hk : (s.stack st).banksOut.contains (ch * 128 + bank) = true := by rw [Nat.mul_comm]; exact List.contains_iff_mem.2 h
  simp only [execRowSparing, unitStep, hst, hch, hb, and_self, decide_true, if_true, hk]

/-- The event of a row spared, or of a bank without spare rows. -/
def sparingEvent (st ch bank code : Nat) : List Byte :=
  faultBytes 6 code 0 false (65536 * (st / 2)) 0 0 (st + 16 * ch + 512 * bank)

/-- A row is moved and recorded; a free value says whether the bank has spare rows left, which is recorded where it has none (log 2). -/
theorem exec_rowSparing (hst : st < 16) (hch : ch < 32) (hb : bank < 128) (h : 128 * ch + bank ∉ (s.stack st).banksOut) :
    ∃ u v, u = (s.rowMoved st (128 * ch + bank)).postHw (st / 2) 4 (65536 * (st / 2)) (st + 16 * ch + 512 * bank) ∧ v = (u.pick 2).2 ∧
      (exec (.rowSparing st ch bank) s = .next v ∨ exec (.rowSparing st ch bank) s =
        .next ((v.bankUsed st (128 * ch + bank)).postHw (st / 2) 5 (65536 * (st / 2)) (st + 16 * ch + 512 * bank))) := by
  have hk : (s.stack st).banksOut.contains (128 * ch + bank) = false := by
    rw [Bool.eq_false_iff]; exact fun hc => h (List.contains_iff_mem.1 hc)
  refine ⟨_, _, rfl, rfl, ?_⟩
  show execRowSparing st ch bank s = _ ∨ execRowSparing st ch bank s = _
  simp only [execRowSparing, unitStep, hst, hch, hb, and_self, decide_true, if_true, Nat.mul_comm ch 128, hk, Bool.false_eq_true, if_false]
  split
  · exact .inl rfl
  · exact .inr rfl

/-- A row spared: the move and its record, and where it was the bank's last the bank's record after it; no other byte and no poison changes. -/
theorem rowSparing_done (hst : st < 16) (hch : ch < 32) (hb : bank < 128) (h : 128 * ch + bank ∉ (s.stack st).banksOut)
    (hroom : FaultRoom s (st / 2) 2) :
    ∃ t, exec (.rowSparing st ch bank) s = .next t ∧
      tget 0 (t.stack st).spared (128 * ch + bank) = tget 0 (s.stack st).spared (128 * ch + bank) + 1 ∧
      t.homeRead (recordPa s (st / 2) (s.die (st / 2)).widx) 32 = sparingEvent st ch bank 4 ∧ st / 2 ∈ t.msiDue ∧ t.poison = s.poison ∧
      (∀ a, (a < recordPa s (st / 2) (s.die (st / 2)).widx ∨ recordPa s (st / 2) (s.die (st / 2)).widx + 32 ≤ a) →
        (a < recordPa s (st / 2) ((s.die (st / 2)).widx + 1) ∨ recordPa s (st / 2) ((s.die (st / 2)).widx + 1) + 32 ≤ a) →
        t.homeByte a = s.homeByte a) ∧
      (((t.die (st / 2)).widx = ((s.die (st / 2)).widx + 1) % 65536 ∧ 128 * ch + bank ∉ (t.stack st).banksOut) ∨
        ((t.die (st / 2)).widx = ((s.die (st / 2)).widx + 2) % 65536 ∧ 128 * ch + bank ∈ (t.stack st).banksOut ∧
          t.homeRead (recordPa s (st / 2) ((s.die (st / 2)).widx + 1)) 32 = sparingEvent st ch bank 5)) := by
  obtain ⟨u, v, hu, hv, hex⟩ := exec_rowSparing hst hch hb h
  generalize hi : 128 * ch + bank = i at *
  have ring : SameRing s (s.rowMoved st i) (st / 2) := ⟨rfl, rfl, rfl, rfl, rfl, rfl, rfl⟩
  have took : TookRecord (s.rowMoved st i) u (st / 2) (sparingEvent st ch bank 4) :=
    hu ▸ (ring.room hroom).postHw (by decide) 4 (65536 * (st / 2)) (st + 16 * ch + 512 * bank)
  have hbytes : u.homeRead (recordPa s (st / 2) (s.die (st / 2)).widx) 32 = sparingEvent st ch bank 4 := took.recorded.bytes
  have hwidx : (u.die (st / 2)).widx = ((s.die (st / 2)).widx + 1) % 65536 := took.recorded.widx
  have hmoved : u.stack st = { s.stack st with spared := tput (s.stack st).spared i (tget 0 (s.stack st).spared i + 1) } := by
    rw [State.stack, took.path.memStacks]
    exact State.setS_stack_same _ _ _
  subst hv
  rcases hex with hex | hex
  · refine ⟨_, hex, ?_, ?_, took.recorded.vector, took.poison, fun a ha _ => took.elsewhere a ha, .inl ⟨hwidx, ?_⟩⟩
    · show tget 0 (u.stack st).spared i = _
      rw [hmoved]; exact tget_tput_same _ _ _ _
    · rw [← hbytes, State.homeRead_eq_map, State.homeRead_eq_map]; rfl
    · show i ∉ (u.stack st).banksOut
      rw [hmoved]; exact h
  · have ring2 : SameRing u ((u.pick 2).2.bankUsed st i) (st / 2) := ⟨rfl, rfl, rfl, rfl, rfl, rfl, rfl⟩
    have took2 := (ring2.room (took.room (ring.room hroom))).postHw (by decide) 5 (65536 * (st / 2)) (st + 16 * ch + 512 * bank)
    generalize (State.bankUsed (u.pick 2).2 st i).postHw (st / 2) 5 (65536 * (st / 2)) (st + 16 * ch + 512 * bank) = t at hex took2
    have hused : t.stack st = { u.stack st with banksOut := (u.stack st).banksOut ++ [i] } := by
      rw [State.stack, took2.path.memStacks]
      exact State.setS_stack_same _ _ _
    have hpa : recordPa u (st / 2) (u.die (st / 2)).widx = recordPa s (st / 2) ((s.die (st / 2)).widx + 1) := by
      rw [took.recordPa, hwidx]
      exact congrArg (fun k => (s.die (st / 2)).fbRing + 32 * k) (Nat.mod_mod_of_dvd _ (by decide))
    have hother (a : Nat) (ha : a < recordPa s (st / 2) ((s.die (st / 2)).widx + 1) ∨ recordPa s (st / 2) ((s.die (st / 2)).widx + 1) + 32 ≤ a) :
        t.homeByte a = u.homeByte a := took2.elsewhere a (by rw [← hpa] at ha; exact ha)
    refine ⟨t, hex, ?_, ?_, took2.recorded.vector, took2.poison.trans took.poison, fun a ha ha' => ?_, .inr ⟨?_, ?_, ?_⟩⟩
    · rw [hused, hmoved]; exact tget_tput_same _ _ _ _
    · rw [← hbytes, State.homeRead_eq_map, State.homeRead_eq_map]
      refine List.map_congr_left fun k hk => hother _ ?_
      have := List.mem_range.1 hk
      unfold recordPa
      omega
    · exact (hother a ha').trans (took.elsewhere a ha)
    · refine took2.recorded.widx.trans ?_
      show ((u.die (st / 2)).widx + 1) % 65536 = _
      rw [hwidx]; omega
    · rw [hused]; exact List.mem_append_right _ List.mem_cons_self
    · rw [← hpa]; exact took2.recorded.bytes

end

end Sys2Proof
end

section
/-! Retirement of cellar cores (17 R346): the record that a call leaves, and the rest of the obligation O50. -/
namespace Sys2Proof
open Machine

/-! ### What keeps larders in their form -/

/-- A step that leaves the cellar cores as they are and every larder in canonical form. -/
structure LardersFormed (s t : State) : Prop where
  cellars : t.cellars = s.cellars
  larder : ∀ k, (s.team k).larder.wf = true → (t.team k).larder.wf = true

namespace LardersFormed
variable {s t u : State}

theorem refl (s : State) : LardersFormed s s := ⟨rfl, fun _ => id⟩

theorem trans (h : LardersFormed s t) (k : LardersFormed t u) : LardersFormed s u :=
  ⟨k.cellars.trans h.cellars, fun n => k.larder n ∘ h.larder n⟩

theorem foldl {α : Type} {f : State → α → State} (hf : ∀ s a, LardersFormed s (f s a)) (l : List α) (s : State) :
    LardersFormed s (l.foldl f s) := by
  induction l generalizing s with
  | nil => exact refl s
  | cons a l ih => exact (hf s a).trans (ih _)

theorem of_path (h : PathKept s t) : LardersFormed s t := ⟨h.cellars, fun k hk => by rw [State.team, h.teams]; exact hk⟩

theorem ite {c : Prop} [Decidable c] (h : LardersFormed s t) (k : LardersFormed s u) : LardersFormed s (if c then t else u) := by
  split
  · exact h
  · exact k

theorem setT (s : State) (tid : Nat) (f : Team → Team) (hf : ∀ t, t.larder.wf = true → (f t).larder.wf = true) : LardersFormed s (s.setT tid f) := by
  refine ⟨rfl, fun k hk => ?_⟩
  by_cases h : k = tid
  · subst h; rw [State.setT_team_same]; exact hf _ hk
  · rw [State.setT_team_other _ _ _ _ h]; exact hk

end LardersFormed

theorem Machine.State.l2Read_pathKept (s : State) (die pol pa n : Nat) : PathKept s (s.l2Read die pol pa n) := by
  unfold State.l2Read
  split
  · exact .refl s
  · refine PathKept.foldl (fun s line => ?_) _ s
    simp only
    split
    · exact (s.l2Hold_keeps die line).1
    · exact (s.l2Hold_keeps die line).1.trans (State.setDir_noted _ _ _).path

theorem Machine.State.l1Fill_pathKept (s : State) (core ctx a va n : Nat) (all : Bool) : PathKept s (s.l1Fill core ctx a va n all) :=
  ((s.l2Read_pathKept _ _ _ _).trans (State.setC_pathKept _ core _)).trans (State.l1Trim_onPath _ _ _ _).path

theorem Machine.State.readWith_lardersFormed (s : State) (gid : Nat) (q : List StoreOp) (t : Target) (n va : Nat) (whole : Bool) :
    LardersFormed s (s.readWith gid q t n va whole).2.2 := by
  cases t with
  | larder off => exact .setT s _ _ fun _ h => h
  | dev pa pol =>
    refine .of_path ?_
    have fill (p : Nat) : PathKept s
        (if p = 0 then s.l1Fill (s.grp gid).place (s.grp gid).ctx pa va n whole else s.l2Read (s.grp gid).die p pa n) := by
      split
      · exact s.l1Fill_pathKept _ _ _ _ _ _
      · exact s.l2Read_pathKept _ _ _ _
    exact fill _
  | _ => exact .refl s

theorem Machine.State.readSectors_lardersFormed (s : State) (gid : Nat) (st : List StoreOp) (t : Target) (va : Nat) (qs : List Nat) :
    LardersFormed s (s.readSectors gid st t va qs).2.2 := by
  induction qs generalizing s with
  | nil => exact .refl s
  | cons q qs ih => exact (s.readWith_lardersFormed _ _ _ _ _ _).trans (ih _)

/-- The first touch of mapped lines fills them; no larder loses its form (09 R165). -/
theorem Machine.State.ownFill_lardersFormed (s : State) (tid off n : Nat) : LardersFormed s (s.ownFill tid off n) := by
  refine LardersFormed.foldl (fun s line => ?_) _ s
  extract_lets t
  split
  · exact .refl s
  · extract_lets va
    split
    · exact .refl s
    · split
      · next tgt e _ =>
        refine .ite (.refl s) ?_
        have hr := s.readSectors_lardersFormed (t.groups.headD 0) [] tgt va [0, 1, 2, 3]
        generalize s.readSectors (t.groups.headD 0) [] tgt va [0, 1, 2, 3] = x at hr
        obtain ⟨bs, bad, u⟩ := x
        exact hr.trans (.setT u _ _ fun _ h => wf_foldl_mwrite h _)
      · exact .refl s

/-! ### The end of a call (14 R279) -/

/-- A queue that is empty is drained at once. -/
theorem Machine.State.drainQueue_empty {s : State} {gid : Nat} (h : (s.grp gid).stores = []) : (s.drainQueue gid).2 = s := by
  unfold State.drainQueue
  rw [h]; rfl

theorem Machine.State.drainQueues_empty {s : State} (gids : List Nat) (h : ∀ g ∈ gids, (s.grp g).stores = []) :
    gids.foldl (fun s g => (s.drainQueue g).2) s = s := by
  induction gids with
  | nil => rfl
  | cons g gs ih =>
    rw [List.foldl_cons, State.drainQueue_empty (h g List.mem_cons_self)]
    exact ih fun g hg => h g (List.mem_cons_of_mem _ hg)

/-- Ranges that leave the L2s leave teams and cellar cores as they are. -/
theorem Machine.State.l2Drop_units (s : State) (ps : List (Nat × Nat)) : (s.l2Drop ps).teams = s.teams ∧ (s.l2Drop ps).cellars = s.cellars := by
  have keeps {γ : Type} (g : State → γ) (hb : ∀ s l, g (State.l2Back s l) = g s) (hd : ∀ s d, g { s with dies := d } = g s)
      (hs : ∀ s l e, g (State.setDir s l e) = g s) (s : State) (ls : List Nat) : g (s.linesOut ls) = g s := by
    unfold State.linesOut
    refine (foldl_keeps g (fun u l => ?_) _ _).trans ((hd _ _).trans (foldl_keeps g hb _ _))
    split
    · exact hs _ _ _
    · rfl
  exact ⟨keeps State.teams (fun _ _ => rfl) (fun _ _ => rfl) (fun _ _ _ => rfl) _ _,
    keeps State.cellars (fun _ _ => rfl) (fun _ _ => rfl) (fun _ _ _ => rfl) _ _⟩

theorem Machine.State.flagsPut_units (s : State) (gid fl : Nat) : (s.flagsPut gid fl).teams = s.teams ∧ (s.flagsPut gid fl).cellars = s.cellars := by
  unfold State.flagsPut
  simp only
  split
  · exact ⟨rfl, rfl⟩
  · split
    · exact ⟨(State.homeCells_pathKept _ _ _).teams, (State.homeCells_pathKept _ _ _).cellars⟩
    · exact ⟨rfl, rfl⟩

/-- Bytes put in a resident team's larder read there. -/
theorem Machine.State.larderPut_resident {s : State} {tid off : Nat} {bs : List Byte} (ht : thas s.teams tid = true)
    (hp : (s.team tid).phase = .resident) (hw : (s.team tid).larder.wf = true) :
    (s.larderPut tid off bs).cellars = s.cellars ∧ ((s.larderPut tid off bs).team tid).lread off bs.length = bs := by
  have hf := s.ownFill_lardersFormed tid off bs.length
  have he : s.larderPut tid off bs = s.ownWrite tid off bs := by
    unfold State.larderPut
    rw [ht, hp]; rfl
  rw [he, State.ownWrite]
  refine ⟨hf.cellars, ?_⟩
  rw [State.setT_team_same, Team.lread, Team.lwrite_larder, mreads_mwrites (hf.larder tid hw)]

theorem Machine.thas_tdel_same {α : Type} (t : Tab α) (k : Nat) : thas (tdel t k) k = false := by
  rw [thas, tdel, List.any_eq_false]
  intro e he hk
  have := (List.mem_filter.1 he).2
  rw [beq_iff_eq] at hk
  simp [hk] at this

/-- A call's core once the call is over. -/
def Machine.Cellar.freed (e : Cellar) : Cellar := { e with gid := 0, store := [], storePoison := [], boxes := [], boxPoison := [], wake := 0 }

/-- A cell that members of a list are freed in: freed if it is one of them. -/
theorem Machine.State.freeMembers_cellar (ms : List Nat) (s : State) (k : Nat) :
    (ms.foldl (fun s m => s.setCe m Cellar.freed) s).cellar k = if k ∈ ms then (s.cellar k).freed else s.cellar k := by
  induction ms generalizing s with
  | nil => rfl
  | cons m ms ih =>
    rw [List.foldl_cons, ih]
    by_cases hm : k = m
    · subst hm
      rw [State.setCe_cellar_same, if_pos List.mem_cons_self]
      split <;> rfl
    · rw [State.setCe_cellar_other _ _ _ _ hm]
      simp only [List.mem_cons, hm, false_or]

/-- A call whose cores have nothing queued ends with its record in its team's larder and its cores free. -/
theorem Machine.State.completeCall_ends {s : State} {n : Nat} (hq : ∀ g ∈ s.callGroups (s.call n), (s.grp g).stores = [])
    (ht : thas s.teams (s.call n).tid = true) (hp : (s.team (s.call n).tid).phase = .resident)
    (hw : (s.team (s.call n).tid).larder.wf = true) :
    thas (s.completeCall n).calls n = false ∧
      (∀ k, (s.completeCall n).cellar k = if k ∈ (s.call n).members then (s.cellar k).freed else s.cellar k) ∧
      ((s.completeCall n).team (s.call n).tid).lread (s.call n).statusOff (s.call n).statusBytes.length = (s.call n).statusBytes := by
  unfold State.completeCall
  extract_lets gids u c s2 fl s3 s4 s5
  have hu : s = u := (State.drainQueues_empty gids hq).symm
  clear_value u
  subst hu
  obtain ⟨h2t, h2c⟩ : s2.teams = s.teams ∧ s2.cellars = s.cellars := State.l2Drop_units _ _
  clear_value s2 fl
  obtain ⟨hft, hfc⟩ := State.flagsPut_units s2 c.gid fl
  have hteams := hft.trans h2t
  have hteam : (s2.flagsPut c.gid fl).team c.tid = s.team c.tid := by rw [State.team, hteams]; rfl
  obtain ⟨h3c, h3l⟩ : s3.cellars = (s2.flagsPut c.gid fl).cellars ∧ (s3.team c.tid).lread c.statusOff c.statusBytes.length = c.statusBytes :=
    State.larderPut_resident (hteams ▸ ht) (hteam ▸ hp) (hteam ▸ hw)
  clear_value s3
  have h4t : s4.teams = s3.teams := foldl_keeps State.teams (f := fun s m => s.setCe m Cellar.freed) (fun _ _ => rfl) c.members s3
  have h4c (k : Nat) : s4.cellar k = if k ∈ c.members then (s.cellar k).freed else s.cellar k := by
    refine (State.freeMembers_cellar c.members s3 k).trans ?_
    rw [State.cellar, h3c, hfc, h2c]; rfl
  clear_value s4
  refine ⟨thas_tdel_same _ _, h4c, ?_⟩
  show (s4.team c.tid).lread _ _ = _
  rw [State.team, h4t]
  exact h3l

/-! ### Cellar cores (17 R346) -/

section
variable {s : State} {k : Nat}

/-- A cellar core out of service. -/
def Machine.State.cellarOut (s : State) (k : Nat) : State := s.setCe k fun c => { c with out := true }

/-- The call that runs on a cellar core completes with STATE 3 (17 R346). -/
def Machine.State.callAborted (s : State) (n : Nat) : State := (s.setCall n fun c => { c with aborted := true }).completeCall n

theorem Machine.State.cellarOut_cellar (j : Nat) : (s.cellarOut k).cellar j = if j = k then { s.cellar k with out := true } else s.cellar j := by
  split
  · next h => subst h; exact State.setCe_cellar_same _ _ _
  · next h => exact State.setCe_cellar_other _ _ _ _ h

/-- A cellar core out of service, the call that ran on it ended. -/
def Machine.State.cellarLeft (s : State) (k : Nat) : State :=
  match s.callOn k with
  | some n => (s.cellarOut k).callAborted n
  | none => s.cellarOut k

/-- A cellar core leaves service with its call, and the event is recorded; it has no guest to send home. -/
theorem exec_cellarRetirement (hk : k < 512) (ho : (s.cellar k).out = false) (hg : ((s.cellarLeft k).cellar k).guests = []) :
    exec (.cellarCoreRetirement k) s =
      .next (((s.cellarLeft k).tally 7).postHw (k / 64) 3 (k + 65536 * (k / 64) + 3 * 2 ^ 19) (k + 2 ^ 16)) := by
  have home : (s.cellarLeft k).cellarHome k = s.cellarLeft k := by rw [State.cellarHome, hg]; rfl
  rw [← home]
  show execCellarCoreRetirement k s = _
  unfold execCellarCoreRetirement unitStep State.cellarLeft
  simp only [hk, decide_true, if_true, ho, Bool.not_false]
  have hon : (s.setCe k fun c => { c with out := true }).callOn k = s.callOn k := rfl
  rw [hon]
  cases s.callOn k <;> rfl

theorem cellarRetirement_idle (hk : k < 512) (ho : (s.cellar k).out = false) (hg : (s.cellar k).guests = []) (hroom : FaultRoom s (k / 64) 1)
    (hc : s.callOn k = none) :
    ∃ t, exec (.cellarCoreRetirement k) s = .next t ∧ (∀ j, (t.cellar j).out = (j == k || (s.cellar j).out)) ∧
      Recorded s t (k / 64) (faultBytes 6 3 0 false (k + 65536 * (k / 64) + 3 * 2 ^ 19) 0 0 (k + 2 ^ 16)) ∧ t.calls = s.calls := by
  have hl : s.cellarLeft k = s.cellarOut k := by rw [State.cellarLeft, hc]
  refine ⟨_, exec_cellarRetirement hk ho (by rw [hl, State.cellarOut_cellar, if_pos rfl]; exact hg), ?_⟩
  rw [hl]
  have ring : SameRing s ((s.cellarOut k).tally 7) (k / 64) := ⟨rfl, rfl, rfl, rfl, rfl, rfl, rfl⟩
  have took := (ring.room hroom).postHw (by decide) 3 (k + 65536 * (k / 64) + 3 * 2 ^ 19) (k + 2 ^ 16)
  refine ⟨fun j => ?_, ring.recorded took.recorded, took.path.calls⟩
  rw [State.cellar, took.path.cellars]
  show ((s.cellarOut k).cellar j).out = _
  rw [State.cellarOut_cellar]
  by_cases h : j = k
  · rw [if_pos h, h, beq_self_eq_true]; rfl
  · rw [if_neg h, beq_false_of_ne h]; rfl

/-- A call that no core has trapped is recorded, once it is aborted, with STATE 3 alone (14 R279). -/
theorem Machine.Call.statusBytes_aborted (c : Call) (hf : c.first = none) :
    Call.statusBytes { c with aborted := true } = leBytes 4 3 ++ List.replicate 12 0 := by
  unfold Call.statusBytes
  simp only [hf]
  rfl

/-- The call that runs on the core ends with STATE 3 in its status area, and its cores are free. -/
theorem cellarRetirement_call (hk : k < 512) (ho : (s.cellar k).out = false) (hg : (s.cellar k).guests = []) {n : Nat} (hc : s.callOn k = some n)
    (hq : ∀ g ∈ s.callGroups (s.call n), (s.grp g).stores = []) (ht : thas s.teams (s.call n).tid = true)
    (hp : (s.team (s.call n).tid).phase = .resident) (hw : (s.team (s.call n).tid).larder.wf = true) (hf : (s.call n).first = none) :
    ∃ t, exec (.cellarCoreRetirement k) s = .next t ∧ (t.cellar k).out = true ∧ thas t.calls n = false ∧
      (∀ m ∈ (s.call n).members, (t.cellar m).gid = 0) ∧
      (t.team (s.call n).tid).lread (s.call n).statusOff 16 = leBytes 4 3 ++ List.replicate 12 0 := by
  have hl : s.cellarLeft k = (s.cellarOut k).callAborted n := by rw [State.cellarLeft, hc]
  generalize hu : (s.cellarOut k).setCall n (fun c => { c with aborted := true }) = u
  have hcall : u.call n = { s.call n with aborted := true } := by subst hu; exact State.setCall_call_same _ _ _
  have hcell (j : Nat) : u.cellar j = if j = k then { s.cellar k with out := true } else s.cellar j := by subst hu; exact State.cellarOut_cellar j
  have hgid (j : Nat) : (u.cellar j).gid = (s.cellar j).gid := by
    rw [hcell]
    split
    · next h => rw [h]
    · rfl
  have hgroups : u.callGroups (u.call n) = s.callGroups (s.call n) := by
    rw [hcall]
    exact List.map_congr_left fun m _ => hgid m
  obtain ⟨hcalls, hcells, hread⟩ := State.completeCall_ends (s := u) (n := n) (by rw [hgroups]; subst hu; exact hq)
    (by rw [hcall]; subst hu; exact ht) (by rw [hcall]; subst hu; exact hp) (by rw [hcall]; subst hu; exact hw)
  have hleft : s.cellarLeft k = u.completeCall n := by rw [hl, ← hu]; rfl
  rw [hcall] at hcells hread
  have hkk : u.cellar k = { s.cellar k with out := true } := by rw [hcell, if_pos rfl]
  have hown : ((u.completeCall n).cellar k).guests = [] ∧ ((u.completeCall n).cellar k).out = true := by
    rw [hcells, hkk]
    split
    · exact ⟨hg, rfl⟩
    · exact ⟨hg, rfl⟩
  refine ⟨_, exec_cellarRetirement hk ho (by rw [hleft]; exact hown.1), ?_⟩
  rw [hleft]
  have path := (State.tally_noted (u.completeCall n) 7).path.trans
    (State.postLoose_onPath _ (k / 64) (faultBytes 6 3 0 false (k + 65536 * (k / 64) + 3 * 2 ^ 19) 0 0 (k + 2 ^ 16))).path
  change PathKept _ (((u.completeCall n).tally 7).postHw (k / 64) 3 (k + 65536 * (k / 64) + 3 * 2 ^ 19) (k + 2 ^ 16)) at path
  generalize ((u.completeCall n).tally 7).postHw (k / 64) 3 (k + 65536 * (k / 64) + 3 * 2 ^ 19) (k + 2 ^ 16) = t at path
  have cell (j : Nat) : t.cellar j = (u.completeCall n).cellar j := by rw [State.cellar, path.cellars]; rfl
  refine ⟨by rw [cell]; exact hown.2, by rw [path.calls]; exact hcalls, fun m hm => ?_, ?_⟩
  · rw [cell, hcells, if_pos hm]; rfl
  · rw [State.team, path.teams]
    rw [Machine.Call.statusBytes_aborted _ hf] at hread
    exact hread

end

/-- Settles O50: an empty core, matrix resources without teams, a cellar core and a row leave in one step each, which is recorded. -/
theorem retirements : Obligations.Retirements := by
  unfold Obligations.Retirements
  intro s
  refine ⟨fun core hc => ⟨exec_coreRetirement_out hc, fun ho hr hg hm ha => ?_, fun ho hr hg ht hroom =>
      ⟨coreRetirement_spare hc ho hr hg ht hroom, coreRetirement_out hc ho hr hg ht hroom⟩⟩,
    fun cl hc ht => ⟨fun ho => ?_, matrixRetirement_fresh hc ht⟩,
    fun k hk ho hg hroom => ⟨cellarRetirement_idle hk ho hg hroom, fun n hc hq ht hp hw hf => cellarRetirement_call hk ho hg hc hq ht hp hw hf⟩,
    fun st ch bank hst hch hb => ⟨exec_rowSparing_out hst hch hb, rowSparing_done hst hch hb⟩⟩
  · have hany : (s.teams.any fun e => e.2.phase == .resident && e.2.core == core) = true := by
      obtain ⟨e, he, hr, hce⟩ := hm
      exact List.any_eq_true.2 ⟨e, he, by rw [hr, hce]; simp⟩
    rw [exec_coreRetirement hc ho hr, State.retireStep_idle (s := s.suspected core) hg fun e he hr hce => ha e he ⟨hr, hce⟩,
      show (s.suspected core).teams = s.teams from rfl, hany]
    rfl
  · rw [exec_matrixRetirement hc ht, ho, if_pos rfl]

end Sys2Proof
end

section
/-! SUPPORT. What a batch that quantises leaves: the checks it has passed, the translations it notes, and the add it queues (05 R97 to R100; 06 R125). -/
namespace Sys2Proof
open Machine

/-! ### Checks -/

theorem Ready.checkPending {s : State} {av : Avail} {rs : List Ref} (h : Ready s av rs) : s.checkPending rs = .ok () := by
  simp [State.checkPending, State.pendingRefs_nil h.free]

/-- The registers that QNT names. -/
def Machine.State.qntRefs (s : State) (n : BitVec 4) (k : Fld3) (z v d : Reg) : List Ref :=
  [vsrc v (s.slotFmt k).elems, vsrc z, { cls := 1, field := n.toNat }, vdst d]

/-- The checks of QNT pass, in its own order: the slot before registers (05 R97), the store counter, and last a call's grants (05 R99). -/
def QntPasses (s : State) (n : BitVec 4) (k : Fld3) (z v d : Reg) : Prop :=
  firstErr [s.checkKind avVec, s.checkSlot k.toNat takesQ, s.checkRegs avVec (s.qntRefs n k z v d), s.checkPending (s.qntRefs n k z v d),
    s.checkCtr .st, s.checkData (s.qntRefs n k z v d), s.qntGranted (s.slotBytes k.toNat)] = .ok ()

theorem Ready.qntPasses {s : State} {n : BitVec 4} {k : Fld3} {z v d : Reg} (hr : Ready s avVec (s.qntRefs n k z v d))
    (hslot : s.checkSlot k.toNat takesQ = .ok ()) (hst : s.g.st < 63) (hg : s.qntGranted (s.slotBytes k.toNat) = .ok ()) :
    QntPasses s n k z v d := by
  have hctr : s.checkCtr .st = .ok () := if_pos hst
  rw [QntPasses, hr.runs.checkKind, hslot, hr.checkRegs, hr.checkPending, hctr, hr.checkData, hg]
  rfl

/-! ### V registers written, with flags of the whole batch -/

theorem foldl_or_const (a : Nat) {ls : List Nat} (hl : ls ≠ []) (m : Nat) : ls.foldl (fun m _ => m ||| a) m = m ||| a := by
  induction ls generalizing m with
  | nil => exact absurd rfl hl
  | cons l ls ih =>
    rcases eq_or_ne ls [] with rfl | hn
    · rfl
    · rw [List.foldl_cons, ih hn, Nat.or_assoc, Nat.or_self]

/-- Flags gathered after a change of the issuing group are part of the change. -/
theorem Machine.State.modG_orFlags (s : State) (f : Group → Group) (fl : Nat) :
    (s.modG f).orFlags fl = s.modG fun g => { f g with fpflags := (f g).fpflags ||| w32 (fl % 64) } :=
  s.orFlags_modG (f s.g) fl

/-- Flags raised once after a write of V registers are those that each lane raises. -/
theorem Machine.State.writeV_orFlags {s : State} (hb : s.batch ≠ []) (d : Reg) (ws : Nat → List Word) (fl : Nat) :
    (s.writeV d fun l => (ws l, 0)).orFlags fl = s.writeV d fun l => (ws l, fl) := by
  unfold State.writeV
  simp only
  rw [foldl_or_const 0 hb, foldl_or_const fl hb, State.modG_orFlags, State.modG_orFlags, State.modG_orFlags]
  simp [w32]

/-- V registers written lane by lane, and the batch moved on: the instruction has completed (06 R102). -/
theorem writeV_done {s : State} {av : Avail} {rs : List Ref} {d : Reg} {n : Nat} {f : Nat → List Word × Nat}
    (h : Ready s av (rs ++ [vdst d n])) (hh : Housed s) (hn : ∀ l ∈ s.batch, (f l).1.length = n) (e : Bool) :
    VecDone s ((s.writeV d f).retire e) d f := by
  obtain ⟨t, ht, hd⟩ := vecOp_done h hh hn e
  rw [State.vecOp, h.runOk] at ht
  cases ht
  exact hd

/-! ### Memory, and the TLBs -/

theorem MemoryKept.trans {s t u : State} (h : MemoryKept s t) (k : MemoryKept t u) : MemoryKept s u where
  device a := (k.device a).trans (h.device a)
  host a := (k.host a).trans (h.host a)
  larder n a := (k.larder n a).trans (h.larder n a)
  scratch n a := (k.scratch n a).trans (h.scratch n a)
  loft n a := (k.loft n a).trans (h.loft n a)
  bins n a := (k.bins n a).trans (h.bins n a)

/-- What noting translations may change: dies and cores alone differ, and every die's loft is as it was (16 R317). -/
structure TlbsOnly (s t : State) : Prop where
  rest : { t with dies := s.dies, cores := s.cores } = s
  lofts : ∀ k, (t.die k).loft = (s.die k).loft

namespace TlbsOnly
variable {s t u : State}

theorem refl (s : State) : TlbsOnly s s := ⟨rfl, fun _ => rfl⟩

theorem trans (h : TlbsOnly s t) (k : TlbsOnly t u) : TlbsOnly s u :=
  ⟨(congrArg (fun x : State => { x with dies := s.dies, cores := s.cores }) k.rest).trans h.rest, fun n => (k.lofts n).trans (h.lofts n)⟩

theorem foldl {α : Type} {f : State → α → State} (hf : ∀ s a, TlbsOnly s (f s a)) (l : List α) (s : State) : TlbsOnly s (l.foldl f s) := by
  induction l generalizing s with
  | nil => exact .refl s
  | cons a l ih => exact (hf s a).trans (ih _)

theorem cur (h : TlbsOnly s t) : t.cur = s.cur := (congrArg State.cur h.rest :)
theorem now (h : TlbsOnly s t) : t.now = s.now := (congrArg State.now h.rest :)
theorem groups (h : TlbsOnly s t) : t.groups = s.groups := (congrArg State.groups h.rest :)

theorem memory (h : TlbsOnly s t) : MemoryKept s t := by
  have hrest := h.rest
  refine ⟨fun a => ?_, fun a => ?_, fun k a => ?_, fun k a => ?_, fun k a => by rw [h.lofts], fun k a => ?_⟩ <;> rw [← hrest] <;> rfl

end TlbsOnly

theorem Machine.State.tlbFill_tlbsOnly (s : State) (die ctx va : Nat) : TlbsOnly s (s.tlbFill die ctx va) := by
  unfold State.tlbFill
  split
  · refine ⟨rfl, fun k => ?_⟩
    by_cases hk : k = die
    · subst hk; rw [State.setD_die_same]
    · rw [State.setD_die_other _ _ _ _ hk]
  · exact .refl s

theorem Machine.State.coreTlbFill_tlbsOnly (s : State) (core ctx va : Nat) : TlbsOnly s (s.coreTlbFill core ctx va) := by
  unfold State.coreTlbFill
  split
  · exact ⟨rfl, fun _ => rfl⟩
  · exact .refl s

theorem Machine.State.tlbFills_tlbsOnly (s : State) (die ctx : Nat) (vas : List Nat) (core : Option Nat) :
    TlbsOnly s (s.tlbFills die ctx vas core) := by
  refine TlbsOnly.foldl (fun s va => ?_) _ _
  cases core with
  | none => exact s.tlbFill_tlbsOnly die ctx va
  | some c => exact (s.tlbFill_tlbsOnly die ctx va).trans (State.coreTlbFill_tlbsOnly _ c ctx va)

theorem Machine.State.tlbNote_tlbsOnly (s : State) (xs : List LaneAcc) : TlbsOnly s (s.tlbNote xs) := by
  unfold State.tlbNote
  split
  · exact .refl s
  · exact s.tlbFills_tlbsOnly _ _ _ _

end Sys2Proof
end

section
/-! SUPPORT. QNT and DQNT, outcome by outcome (05 R98 to R101; 06 R125). -/
namespace Sys2Proof
open Machine

/-! ### A core's add to an outlier list (05 R99; 20 R369) -/

/-- The return that holds Vd until the list's index has come back. -/
def Machine.State.qntCodes (s : State) (d : Reg) (q : QntPend) (x : LaneAcc) : Return :=
  { id := s.nextId, kind := .qnt, regs := s.destRegs d 1, issue := s.cur, stall := x.tgt.isRemote, qnt := some q,
    lanes := s.batch.map fun l => { lane := l, dst := s.g.phys l d, addr := x.va } }

/-- The return that counts in ST. -/
def Machine.State.qntCount (s : State) : Return := { id := s.nextId + 1, kind := .store, ctr := some .st, left := 1, issue := s.cur }

/-- The add of n in the store queue since some time. -/
def Machine.State.qntQueued (s : State) (since n lane : Nat) (x : LaneAcc) : StoreOp :=
  { ret := s.nextId, lane := lane, tgt := x.tgt, act := .index n, va := x.va, since := since, pc := s.cur.pc }

/-- A QNT's two returns begun. -/
def Machine.State.qntBegun (s : State) (d : Reg) (q : QntPend) (x : LaneAcc) : State :=
  ({ s with nextId := s.nextId + 2 } : State).modG fun g => (g.begin (s.qntCodes d q x)).begin s.qntCount

/-- A core's QNT with its two returns begun, its translation noted and its add queued. -/
def Machine.State.qntIssued (s : State) (d : Reg) (q : QntPend) (lane : Nat) (x : LaneAcc) : State :=
  let t := (s.qntBegun d q x).tlbNote [x]
  t.modG fun g => { g with stores := g.stores ++ [s.qntQueued t.now q.outs.length lane x] }

/-- On a core the add is queued, and the batch moves on. -/
theorem Machine.State.qntAdd_core {s : State} (hk : s.g.kind = .core) (d : Reg) (q : QntPend) (flags lane : Nat) (x : LaneAcc) (e : Bool) :
    ∃ t pc, s.qntAdd d q flags lane x e = .ok t ∧ MovedOn (s.qntIssued d { q with flags := flags } lane x) t pc := by
  have hc : (s.g.kind == Kind.core) = true := by rw [hk]; rfl
  have hq : s.qntAdd d q flags lane x e =
      .ok (if x.tgt.isRemote then
          (s.qntIssued d { q with flags := flags } lane x).retireAt fun _ => (s.qntIssued d { q with flags := flags } lane x).cur.npc
        else (s.qntIssued d { q with flags := flags } lane x).retire e) := by
    unfold State.qntAdd
    simp only [hc, if_true, Bool.not_true, Bool.false_and, Bool.false_eq_true, if_false]
    rfl
  rw [hq]
  split
  · exact ⟨_, _, rfl, State.retireAt_movedOn _ _⟩
  · exact ⟨_, _, rfl, State.retire_movedOn _ e⟩

theorem Machine.State.qntIssued_cur (s : State) (d : Reg) (q : QntPend) (lane : Nat) (x : LaneAcc) : (s.qntIssued d q lane x).cur = s.cur :=
  ((s.qntBegun d q x).tlbNote_tlbsOnly [x]).cur

theorem Machine.State.qntIssued_memory (s : State) (d : Reg) (q : QntPend) (lane : Nat) (x : LaneAcc) :
    MemoryKept s (s.qntIssued d q lane x) := by
  have hbegun : MemoryKept s (s.qntBegun d q x) :=
    ⟨fun _ => rfl, fun _ => rfl, fun _ _ => rfl, fun _ _ => rfl, fun _ _ => rfl, fun _ _ => rfl⟩
  exact (hbegun.trans ((s.qntBegun d q x).tlbNote_tlbsOnly [x]).memory).trans (.of_groups rfl)

/-- The issuing group with its two returns, one more store counted, and the add in its queue. -/
theorem Machine.State.qntIssued_g (s : State) (d : Reg) (q : QntPend) (lane : Nat) (x : LaneAcc) :
    (s.qntIssued d q lane x).g = { s.g with returns := s.g.returns ++ [s.qntCodes d q x, s.qntCount], st := s.g.st + 1,
                                            stores := s.g.stores ++ [s.qntQueued s.now q.outs.length lane x] } := by
  have ht := (s.qntBegun d q x).tlbNote_tlbsOnly [x]
  have hg : ((s.qntBegun d q x).tlbNote [x]).g = (s.g.begin (s.qntCodes d q x)).begin s.qntCount := by
    rw [State.g, State.grp, ht.cur, ht.groups]
    exact State.setG_grp_same _ _ _
  have hb : (s.g.begin (s.qntCodes d q x)).begin s.qntCount =
      { s.g with returns := s.g.returns ++ [s.qntCodes d q x, s.qntCount], st := s.g.st + 1 } := by
    simp [Group.begin, Group.setCtr, State.qntCodes, State.qntCount]
  have hnow : ((s.qntBegun d q x).tlbNote [x]).now = s.now := ht.now
  unfold State.qntIssued
  generalize (s.qntBegun d q x).tlbNote [x] = t at *
  calc (t.modG fun g => { g with stores := g.stores ++ [s.qntQueued t.now q.outs.length lane x] }).g
      = { t.g with stores := t.g.stores ++ [s.qntQueued t.now q.outs.length lane x] } := State.setG_grp_same _ _ _
    _ = _ := by rw [hg, hb, hnow]

/-- A core's add to a list has issued: no memory differs, and V registers and FPFLAGS stay as they are until the index comes back. -/
theorem Machine.State.qntAdd_issues {s : State} (hk : s.g.kind = .core) (d : Reg) (q : QntPend) (flags lane : Nat) (x : LaneAcc) (e : Bool) :
    ∃ t, s.qntAdd d q flags lane x e = .ok t ∧ MemoryKept s t ∧
      (t.grp s.cur.gid).returns = s.g.returns ++ [s.qntCodes d { q with flags := flags } x, s.qntCount] ∧
      (t.grp s.cur.gid).st = s.g.st + 1 ∧
      (t.grp s.cur.gid).stores = s.g.stores ++ [s.qntQueued s.now q.outs.length lane x] ∧
      (t.grp s.cur.gid).v = s.g.v ∧ (t.grp s.cur.gid).fpflags = s.g.fpflags := by
  obtain ⟨t, pc, ht, hm⟩ := State.qntAdd_core hk d q flags lane x e
  have hg := s.qntIssued_g d { q with flags := flags } lane x
  have hown := hm.own
  rw [s.qntIssued_cur, hg] at hown
  exact ⟨t, ht, (s.qntIssued_memory d _ lane x).trans (.of_groups hm.rest), congrArg Group.returns hown, congrArg Group.st hown,
    congrArg Group.stores hown, (congrArg Group.v hown :), (congrArg Group.fpflags hown :)⟩

/-! ### Each outcome -/

section
variable {s : State} {n : BitVec 4} {k : Fld3} {z v d : Reg} {e : Bool}

/-- The batch of a QNT as it converts. -/
def Machine.State.qntBatch (s : State) (n : BitVec 4) (k : Fld3) (z v : Reg) : QBatch :=
  s.quantBatch (s.slotFmt k) (s.slotBytes k.toNat) (s.g.sreg n.toNat) z v

/-- The words that a lane receives from rows of codes. -/
def packedRow (f : QFmt) (rows : List (Nat × Nat × List Nat)) (l : Nat) : List Word :=
  [packCodes f ((rows.find? fun r => r.1 == l).getD (0, 0, [])).2.2]

/-- The rows of a batch with every outlier saturated (05 R100). -/
def Machine.State.saturatedRows (s : State) (f : QFmt) (b : List Byte) (q : QBatch) : List (Nat × Nat × List Nat) :=
  q.outs.foldl (fun rows o =>
    setCode rows o.1 o.2.1 (satCode f b s.md.daz (w32 ((rows.find? fun r => r.1 == o.1).getD (0, 0, [])).2.1) o.2.2.1)) q.rows

/-- Every element has a code: they are packed, with the flags gathered (05 R98). -/
theorem exec_qnt_coded (hpass : QntPasses s n k z v d) (ho : (s.qntBatch n k z v).outs = []) :
    exec (.qnt n k z v d e) s = .next (((s.writeV d fun l => (packedRow (s.slotFmt k) (s.qntBatch n k z v).rows l, 0)).orFlags
      (s.qntBatch n k z v).flags).retire e) := by
  change execQnt n k z v d e s = _
  unfold QntPasses State.qntRefs State.qntBatch at *
  simp only [execQnt, hpass, ho]
  rfl

/-- The slot names no list: the outliers are saturated, and OUTFULL is raised (05 R100). -/
theorem exec_qnt_full (hpass : QntPasses s n k z v d) (ho : (s.qntBatch n k z v).outs ≠ []) (hcap : slotCap (s.slotBytes k.toNat) = 0) :
    exec (.qnt n k z v d e) s = .next (((s.writeV d fun l => (packedRow (s.slotFmt k)
      (s.saturatedRows (s.slotFmt k) (s.slotBytes k.toNat) (s.qntBatch n k z v)) l, 0)).orFlags
      ((s.qntBatch n k z v).flags ||| flOUTFULL)).retire e) := by
  change execQnt n k z v d e s = _
  unfold QntPasses State.qntRefs State.qntBatch at *
  obtain ⟨o, os, ho⟩ := List.exists_cons_of_ne_nil ho
  simp only [execQnt, State.saturatedRows, hpass, ho, hcap, if_true]
  rfl

/-- The slot names a list, whose index can be written: the add issues (05 R99). -/
theorem exec_qnt_listed {o : Nat × Nat × Nat × Nat × Nat} {os : List (Nat × Nat × Nat × Nat × Nat)} {x : LaneAcc} {t : State}
    (hpass : QntPasses s n k z v d) (ho : (s.qntBatch n k z v).outs = o :: os) (hcap : slotCap (s.slotBytes k.toNat) ≠ 0)
    (hx : s.locate o.1 (slotOindex (s.slotBytes k.toNat)) 4 .write = .ok x)
    (hp : s.qntPlace (s.slotBytes k.toNat) (s.qntBatch n k z v).outs o.1 x = .ok ())
    (ht : s.qntAdd d { slot := s.slotBytes k.toNat, rows := (s.qntBatch n k z v).rows, outs := (s.qntBatch n k z v).outs }
      (s.qntBatch n k z v).flags o.1 x e = .ok t) :
    exec (.qnt n k z v d e) s = .next t := by
  change execQnt n k z v d e s = _
  unfold QntPasses State.qntRefs State.qntBatch at *
  rw [ho] at hp ht
  simp only [execQnt, hpass, ho, hcap, if_false, hx, hp, ht]

/-- A lane's elements dequantised, with the flags that they raise (05 R101). -/
def Machine.State.dequantLane (s : State) (k : Fld3) (z v : Reg) (l : Nat) : List Word × Nat :=
  let rs := (List.range (s.slotFmt k).elems).map fun j =>
    dequantOne (s.slotFmt k) (s.slotBytes k.toNat) s.md (s.g.old l z) (codeAt (s.slotFmt k) (s.g.old l v) j)
  (rs.map fun r => w32 r.1, rs.foldl (fun m r => m ||| r.2) 0)

theorem Machine.State.dequantLane_length (l : Nat) : (s.dequantLane k z v l).1.length = (s.slotFmt k).elems := by simp [State.dequantLane]

/-- DQNT writes the values of each lane's elements. -/
theorem exec_dqnt (hslot : s.checkSlot k.toNat takesQ = .ok ()) (hr : Ready s avVec ([vsrc v, vsrc z] ++ [vdst d (s.slotFmt k).elems])) :
    exec (.dqnt k z v d e) s = .next ((s.writeV d (s.dequantLane k z v)).retire e) := by
  change execDqnt k z v d e s = _
  simp only [execDqnt, State.runChecks, hr.runs.checkKind, hslot, hr.checkRegs, hr.checkData, firstErr]
  rfl

end

/-- Settles O30: the three outcomes of QNT by whether its batch has outliers and its slot a list, then DQNT. -/
theorem quantResults : Obligations.QuantResults := by
  unfold Obligations.QuantResults
  intro s k z v d e hh hb hslot f b
  refine ⟨fun n hst hr hg => ?_, fun hr => ⟨_, exec_dqnt hslot hr, writeV_done hr hh (fun l _ => State.dequantLane_length l) e⟩⟩
  have hpass : QntPasses s n k z v d := Ready.qntPasses hr hslot hst hg
  have written (rows : List (Nat × Nat × List Nat)) (fl : Nat) :
      VecDone s (((s.writeV d fun l => (packedRow f rows l, 0)).orFlags fl).retire e) d fun l => (packedRow f rows l, fl) := by
    rw [State.writeV_orFlags hb]
    exact writeV_done (rs := [vsrc v f.elems, vsrc z, { cls := 1, field := n.toNat }]) hr hh (fun _ _ => rfl) e
  refine ⟨fun ho => ⟨_, exec_qnt_coded hpass ho, written _ _⟩, fun ho hcap => ⟨_, exec_qnt_full hpass ho hcap, written _ _⟩,
    fun o os x ho hcap hk hx hp => ?_⟩
  obtain ⟨t, ht, hmem, hret, hcount, hsto, hv, hfl⟩ := State.qntAdd_issues hk d
    { slot := b, rows := (s.qntBatch n k z v).rows, outs := (s.qntBatch n k z v).outs } (s.qntBatch n k z v).flags o.1 x e
  exact ⟨t, _, _, _, exec_qnt_listed hpass ho hcap hx hp ht, hret, rfl, rfl, rfl, rfl, rfl, hcount, hsto, rfl, rfl, rfl, hv, hfl, hmem⟩

end Sys2Proof
end

section
/-! SUPPORT. The model's arithmetic on numbers against the words' own operations: wrapped integers, pairs, products, bit counts (05 R82, R83; 06 R104 to
R116). -/
namespace Sys2Proof
open Machine

/-! ### Integers and words -/

theorem sextInt_toNat {n : Nat} (x : BitVec n) : sextInt n x.toNat = x.toInt := by
  rw [sextInt, BitVec.toInt_eq_toNat_cond, Nat.mod_eq_of_lt x.isLt]
  cases n with
  | zero => simp
  | succ n =>
    rw [Nat.add_sub_cancel, Nat.pow_succ]
    push_cast
    split <;> split <;> omega

theorem toBits_eq_toNat (n : Nat) (z : Int) : toBits n z = (BitVec.ofInt n z).toNat := by
  rw [toBits, BitVec.toNat_ofInt]
  push_cast; rfl

theorem w32_toNat (x : Word) : w32 x.toNat = x := BitVec.eq_of_toNat_eq (by simp [w32])

theorem w32_mod (n : Nat) : w32 (n % 2 ^ 32) = w32 n := BitVec.eq_of_toNat_eq (by simp [w32])

theorem w32_toBits (z : Int) : w32 (toBits 32 z) = BitVec.ofInt 32 z := by rw [toBits_eq_toNat, w32_toNat]

theorem wrap32_sextInt {n : Nat} (x : BitVec n) : wrap32 (sextInt n x.toNat) = x.signExtend 32 := by
  rw [wrap32, sextInt_toNat]
  exact w32_toBits x.toInt

/-! ### Pairs (05 R83) -/

theorem wordsOf_toNat (x : Dword) : wordsOf true x.toNat = wordsOf64 x := by
  have hi : w32 (x.toNat / 2 ^ 32) = (x >>> 32).truncate 32 := BitVec.eq_of_toNat_eq (by simp [w32, Nat.shiftRight_eq_div_pow])
  exact congrArg₂ (fun a b => [a, b]) rfl hi

theorem wordsOf_toBits (z : Int) : wordsOf true (toBits 64 z) = wordsOf64 (BitVec.ofInt 64 z) := by rw [toBits_eq_toNat, wordsOf_toNat]

theorem wordsOf_length (wide : Bool) (n : Nat) : (wordsOf wide n).length = if wide then 2 else 1 := by cases wide <;> rfl

theorem Machine.State.src64_eq (s : State) (l : Nat) (a : Src) : s.g.src64 l a = (pairOf s l a).toNat := by
  rw [pairOf, BitVec.toNat_append, ← Nat.shiftLeft_add_eq_or_of_lt (BitVec.isLt _), Group.src64, Nat.shiftLeft_eq]
  ring

theorem Machine.State.src64_ofNat (s : State) (l : Nat) (a : Src) : BitVec.ofNat 64 (s.g.src64 l a) = pairOf s l a := by
  rw [State.src64_eq]
  exact BitVec.eq_of_toNat_eq (by simp)

/-! ### Sums and products (06 R104, R105, R112, R113) -/

theorem ofInt_toNat_add {n : Nat} (x y : BitVec n) : BitVec.ofInt n (x.toNat + y.toNat) = x + y := by
  rw [BitVec.ofInt_add, BitVec.ofInt_natCast, BitVec.ofInt_natCast, BitVec.ofNat_toNat, BitVec.ofNat_toNat, BitVec.setWidth_eq, BitVec.setWidth_eq]

theorem ofInt_toNat_sub {n : Nat} (x y : BitVec n) : BitVec.ofInt n (x.toNat - y.toNat) = x - y := by
  rw [sub_eq_add_neg, BitVec.ofInt_add, BitVec.ofInt_neg, BitVec.ofInt_natCast, BitVec.ofInt_natCast, BitVec.ofNat_toNat, BitVec.ofNat_toNat,
    BitVec.setWidth_eq, BitVec.setWidth_eq, ← BitVec.sub_eq_add_neg]

theorem ofInt_wideMul_signed (x y : Word) : BitVec.ofInt 64 (wideMul true x.toNat y.toNat) = x.signExtend 64 * y.signExtend 64 := by
  simp only [wideMul, if_true, sextInt_toNat]
  exact BitVec.ofInt_mul ..

theorem ofInt_wideMul_unsigned (x y : Word) : BitVec.ofInt 64 (wideMul false x.toNat y.toNat) = x.zeroExtend 64 * y.zeroExtend 64 := by
  simp [wideMul, BitVec.ofInt_mul, BitVec.ofInt_natCast]

/-- The high half of a product is the word above bit 31. -/
theorem ofInt_div_word (z : Int) : BitVec.ofInt 32 (z / 2 ^ 32) = (BitVec.ofInt 64 z >>> 32).truncate 32 := by
  apply BitVec.eq_of_toNat_eq
  simp [Nat.shiftRight_eq_div_pow]
  omega

theorem w32_hiMul_signed (x y : Word) : w32 (hiMul true x.toNat y.toNat) = ((x.signExtend 64 * y.signExtend 64) >>> 32).truncate 32 := by
  rw [← ofInt_wideMul_signed, ← ofInt_div_word, ← w32_toBits]; rfl

theorem w32_hiMul_unsigned (x y : Word) : w32 (hiMul false x.toNat y.toNat) = ((x.zeroExtend 64 * y.zeroExtend 64) >>> 32).truncate 32 := by
  rw [← ofInt_wideMul_unsigned, ← ofInt_div_word]
  exact (BitVec.ofInt_natCast 32 (x.toNat * y.toNat / 2 ^ 32)).symm

theorem w32_add (m n : Nat) : w32 (m + n) = w32 m + w32 n := BitVec.ofNat_add m n

theorem w32_mul (m n : Nat) : w32 (m * n) = w32 m * w32 n := BitVec.ofNat_mul m n

theorem lea64_toNat (x : Dword) (y : Word) (k : Nat) : (x.toNat + y.toNat * 2 ^ k) % 2 ^ 64 = (x + y.zeroExtend 64 <<< k).toNat := by
  simp [Nat.shiftLeft_eq, Nat.add_mod]

/-! ### Comparisons (06 R106, R116) -/

theorem w32_min_signed (x y : Word) : w32 (mmLane .i32 false x.toNat y.toNat) = if y.slt x then y else x := by
  simp only [mmLane, sextInt_toNat, Bool.false_eq_true, if_false, BitVec.slt_iff_toInt_lt]
  split <;> exact w32_toNat _

theorem w32_max_signed (x y : Word) : w32 (mmLane .i32 true x.toNat y.toNat) = if x.slt y then y else x := by
  simp only [mmLane, sextInt_toNat, if_true, BitVec.slt_iff_toInt_lt]
  split <;> exact w32_toNat _

theorem w32_min_unsigned (x y : Word) : w32 (mmLane .n32 false x.toNat y.toNat) = if y < x then y else x := by
  simp only [mmLane, Bool.false_eq_true, if_false, Nat.cast_lt, BitVec.lt_def]
  split <;> exact w32_toNat _

theorem w32_max_unsigned (x y : Word) : w32 (mmLane .n32 true x.toNat y.toNat) = if x < y then y else x := by
  simp only [mmLane, if_true, Nat.cast_lt, BitVec.lt_def]
  split <;> exact w32_toNat _

/-- The most negative value is its own magnitude's word (06 R106). -/
theorem w32_natAbs (x : Word) : w32 x.toInt.natAbs = if x.slt 0 then -x else x := by
  have hx := BitVec.toInt_eq_toNat_cond x
  have := x.isLt
  have h0 : (0 : Word).toInt = 0 := rfl
  apply BitVec.eq_of_toNat_eq
  simp only [BitVec.slt_iff_toInt_lt, h0, w32, BitVec.toNat_ofNat]
  split
  · rw [BitVec.toNat_neg]
    split at hx <;> omega
  · split at hx <;> omega

/-! ### Bits (06 R109, R120) -/

theorem popCount_eq_countP (n w : Nat) : popCount n w = (List.range n).countP fun i => w.testBit i := by
  induction n generalizing w with
  | zero => rfl
  | succ n ih =>
    rw [popCount, ih, List.range_succ_eq_map, List.countP_cons, List.countP_map, Nat.add_comm]
    congr 1
    · exact List.countP_congr fun i _ => by simp [Nat.testBit_succ]
    · rcases Nat.mod_two_eq_zero_or_one w with h | h <;> simp [Nat.testBit_zero, h]

theorem bitRev_lt (n w : Nat) : bitRev n w < 2 ^ n := by
  induction n generalizing w with
  | zero => simp [bitRev]
  | succ n ih =>
    have := ih (w / 2)
    have : w % 2 * 2 ^ n ≤ 1 * 2 ^ n := Nat.mul_le_mul_right _ (by omega)
    rw [bitRev, Nat.pow_succ]; omega

theorem bitRev_testBit {n i : Nat} (w : Nat) (h : i < n) : (bitRev n w).testBit i = w.testBit (n - 1 - i) := by
  induction n generalizing w with
  | zero => omega
  | succ n ih =>
    rw [bitRev, Nat.mul_comm, Nat.testBit_two_pow_mul_add _ (bitRev_lt n _)]
    split
    · next hi => rw [ih _ hi, show n + 1 - 1 - i = n - 1 - i + 1 by omega, Nat.testBit_succ]
    · rw [show i = n by omega]; simp

theorem w32_bitRev (x : Word) : w32 (bitRev 32 x.toNat) = x.reverse := by
  refine BitVec.eq_of_getLsbD_eq fun i hi => ?_
  rw [w32, BitVec.getLsbD_ofNat, bitRev_testBit _ hi, BitVec.testBit_toNat, BitVec.getLsbD_reverse, BitVec.getMsbD_eq_getLsbD]

/-- The sign bit cleared. -/
theorem w32_mod_sign (x : Word) : w32 (x.toNat % 2 ^ 31) = x &&& 0x7FFFFFFF := by
  apply BitVec.eq_of_toNat_eq
  rw [BitVec.toNat_and, show (0x7FFFFFFF : Word).toNat = 2 ^ 31 - 1 from rfl, Nat.and_two_pow_sub_one_eq_mod]
  simp [w32]; omega

/-- The sign bit inverted: its addition carries nowhere. -/
theorem w32_add_sign (x : Word) : w32 ((x.toNat + 2 ^ 31) % 2 ^ 32) = x ^^^ 0x80000000 := by
  refine BitVec.eq_of_getLsbD_eq fun i hi => ?_
  rw [show (0x80000000 : Word) = BitVec.twoPow 32 31 from rfl, BitVec.getLsbD_xor, BitVec.getLsbD_twoPow, w32_mod, w32, BitVec.getLsbD_ofNat, Nat.add_comm]
  rcases Nat.lt_or_eq_of_le (Nat.le_of_lt_succ hi) with h | rfl
  · rw [Nat.testBit_two_pow_add_gt h]
    simp [hi, BitVec.testBit_toNat, h.ne']
  · rw [Nat.testBit_two_pow_add_eq]
    simp [BitVec.testBit_toNat]

end Sys2Proof
end

section
/-! Results of the instructions that write V registers lane by lane from words and pairs (06 R104 to R114): how a spec of such an instruction is met, and
the obligation O1. -/
namespace Sys2Proof
open Machine

/-! ### Specs met -/

/-- An outcome is that of the vector operation which a spec describes, with as many words for each lane as the spec says (06 R102). -/
def VecSpec.Describes (v : VecSpec) (s : State) (o : Out) : Prop :=
  ∃ e : Bool, o = s.vecOp v.av v.srcs v.d v.n e v.val ∧ ∀ l, (v.val l).1.length = v.n

section
variable {s : State} {o : Out} {d : Reg} {a b : Src} {e : Bool}

/-- An instruction that a spec describes completes with what the spec gives. -/
theorem VecSpec.Describes.done {v : VecSpec} (h : v.Describes s o) (hh : Housed s) (hr : Ready s v.av (v.srcs ++ [vdst v.d v.n])) :
    ∃ t, o = .next t ∧ VecDone s t v.d v.val := by
  obtain ⟨e, rfl, hn⟩ := h
  exact vecOp_done hr hh (fun l _ => hn l) e

theorem VecSpec.describes_of {v : VecSpec} {g : Nat → List Word × Nat} (ho : o = s.vecOp v.av v.srcs v.d v.n e g) (hg : ∀ l, g l = v.val l)
    (hn : ∀ l, (v.val l).1.length = v.n) : v.Describes s o :=
  ⟨e, funext hg ▸ ho, hn⟩

theorem VecSpec.one_describes {f g : Word → Word} (ho : o = s.intOp1 d a e g) (hg : ∀ x, g x = f x) : (VecSpec.one s d a f).Describes s o :=
  ⟨e, funext hg ▸ ho, fun _ => rfl⟩

theorem VecSpec.two_describes {f g : Word → Word → Word} (ho : o = s.intOp d a b e g) (hg : ∀ x y, g x y = f x y) :
    (VecSpec.two s d a b f).Describes s o :=
  ⟨e, (funext₂ hg : g = f) ▸ ho, fun _ => rfl⟩

theorem VecSpec.wide_describes {f : Word → Word → Dword} {g : Nat → Nat → Nat}
    (ho : o = s.vecOp avVec [srcRef a, srcRef b] d 2 e fun l => (wordsOf true (g (s.g.src l a).toNat (s.g.src l b).toNat), 0))
    (hg : ∀ x y : Word, wordsOf true (g x.toNat y.toNat) = wordsOf64 (f x y)) :
    VecSpec.Describes { srcs := [srcRef a, srcRef b], d := d, n := 2, val := fun l => (wordsOf64 (f (s.g.src l a) (s.g.src l b)), 0) } s o :=
  describes_of ho (fun l => by rw [hg]) fun _ => rfl

theorem VecSpec.pairs_describes {f : Dword → Dword → Dword} {g : Nat → Nat → Nat}
    (ho : o = s.vecOp avVec [srcRef a 2, srcRef b 2] d 2 e fun l => (wordsOf true (g (s.g.src64 l a) (s.g.src64 l b)), 0))
    (hg : ∀ x y : Dword, wordsOf true (g x.toNat y.toNat) = wordsOf64 (f x y)) : (VecSpec.pairs s d a b f).Describes s o :=
  describes_of ho (fun l => by rw [State.src64_eq, State.src64_eq, hg]; rfl) fun _ => rfl

/-! ### Instructions of several forms (06 R104 to R106, R108, R112) -/

theorem Machine.State.opAdd_word {m : AddForm} (hm : m ≠ .i64) (sub : Bool) :
    s.opAdd sub m d a b e = s.intOp d a b e fun x y => w32 (addLane m sub x.toNat y.toNat) := by
  simp only [State.opAdd, beq_eq_false_iff_ne.2 hm]; rfl

theorem iadd_describes {m : AddForm} {v : VecSpec} (h : intSpec s (.iadd m d a b e) = some v) : v.Describes s (s.opAdd false m d a b e) := by
  cases m <;> cases h
  case i32 => exact VecSpec.two_describes (State.opAdd_word (by decide) _) fun x y => (w32_toBits _).trans (ofInt_toNat_add x y)
  case i64 => exact VecSpec.pairs_describes (e := e) (g := addLane .i64 false) rfl fun x y => (wordsOf_toBits _).trans (congrArg wordsOf64 (ofInt_toNat_add x y))
  all_goals exact VecSpec.two_describes (State.opAdd_word (by decide) _) fun _ _ => rfl

theorem isub_describes {m : AddForm} {v : VecSpec} (h : intSpec s (.isub m d a b e) = some v) : v.Describes s (s.opAdd true m d a b e) := by
  cases m <;> cases h
  case i32 => exact VecSpec.two_describes (State.opAdd_word (by decide) _) fun x y => (w32_toBits _).trans (ofInt_toNat_sub x y)
  case i64 => exact VecSpec.pairs_describes (e := e) (g := addLane .i64 true) rfl fun x y => (wordsOf_toBits _).trans (congrArg wordsOf64 (ofInt_toNat_sub x y))
  all_goals exact VecSpec.two_describes (State.opAdd_word (by decide) _) fun _ _ => rfl

theorem Machine.State.opMul_word {m : MulForm} (hm : m ∈ [.loI32, .hiI32, .hiN32, .i16x2]) :
    s.opMul m d a b e = s.intOp d a b e fun x y => w32 (mulLane m x.toNat y.toNat) := by
  simp only [List.mem_cons, List.not_mem_nil, or_false] at hm
  rcases hm with rfl | rfl | rfl | rfl <;> rfl

theorem imul_describes {m : MulForm} {v : VecSpec} (h : intSpec s (.imul m d a b e) = some v) : v.Describes s (s.opMul m d a b e) := by
  cases m <;> cases h
  case loI32 => exact VecSpec.two_describes (State.opMul_word (by decide)) fun x y => (congrArg w32 (BitVec.toNat_mul x y).symm).trans (w32_toNat _)
  case hiI32 => exact VecSpec.two_describes (State.opMul_word (by decide)) w32_hiMul_signed
  case hiN32 => exact VecSpec.two_describes (State.opMul_word (by decide)) w32_hiMul_unsigned
  case i16x2 => exact VecSpec.two_describes (State.opMul_word (by decide)) fun _ _ => rfl
  case wideI32 =>
    exact VecSpec.wide_describes (e := e) (f := fun x y => x.signExtend 64 * y.signExtend 64) (g := mulLane .wideI32) rfl fun x y => by
      rw [mulLane, wordsOf_toBits, ofInt_wideMul_signed]
  case wideN32 =>
    exact VecSpec.wide_describes (e := e) (f := fun x y => x.zeroExtend 64 * y.zeroExtend 64) (g := mulLane .wideN32) rfl fun x y => by
      rw [mulLane, wordsOf_toBits, ofInt_wideMul_unsigned]
  case loI64 => exact VecSpec.pairs_describes (e := e) (g := mulLane .loI64) rfl fun x y => by rw [mulLane, ← BitVec.toNat_mul, wordsOf_toNat]

theorem imin_describes {m : MmForm} {v : VecSpec} (h : intSpec s (.imin m d a b e) = some v) : v.Describes s (execImin m d a b e s) := by
  cases m <;> cases h
  case i32 => exact VecSpec.two_describes rfl w32_min_signed
  case n32 => exact VecSpec.two_describes rfl w32_min_unsigned
  case i16x2 => exact VecSpec.two_describes rfl fun _ _ => rfl

theorem imax_describes {m : MmForm} {v : VecSpec} (h : intSpec s (.imax m d a b e) = some v) : v.Describes s (execImax m d a b e s) := by
  cases m <;> cases h
  case i32 => exact VecSpec.two_describes rfl w32_max_signed
  case n32 => exact VecSpec.two_describes rfl w32_max_unsigned
  case i16x2 => exact VecSpec.two_describes rfl fun _ _ => rfl


/-- IMAD's forms on words: a low or high half of a product, and a word added. -/
theorem VecSpec.mulAdd_describes {a b c : Src} (f : Word → Word → Word) {g : Nat → Nat → Nat}
    (ho : o = s.vecOp avVec [srcRef a, srcRef b, srcRef c] d 1 e fun l =>
      (wordsOf false ((g (s.g.src l a).toNat (s.g.src l b).toNat + (s.g.src l c).toNat) % 2 ^ 32), 0))
    (hg : ∀ x y : Word, w32 (g x.toNat y.toNat) = f x y) :
    VecSpec.Describes { srcs := [srcRef a, srcRef b, srcRef c], d := d, val := fun l => ([f (s.g.src l a) (s.g.src l b) + s.g.src l c], 0) } s o :=
  describes_of ho (fun l => Prod.ext (congrArg (fun w => [w]) (by rw [w32_mod, w32_add, hg, w32_toNat])) rfl) fun _ => rfl

/-- IMAD's forms on a pair: a product, and a pair added. -/
theorem VecSpec.wideMulAdd_describes {a b c : Src} (f : Word → Word → Dword) {g : Nat → Nat → Int}
    (ho : o = s.vecOp avVec [srcRef a, srcRef b, srcRef c 2] d 2 e fun l =>
      (wordsOf true (toBits 64 (g (s.g.src l a).toNat (s.g.src l b).toNat + s.g.src64 l c)), 0))
    (hg : ∀ x y : Word, BitVec.ofInt 64 (g x.toNat y.toNat) = f x y) :
    VecSpec.Describes { srcs := [srcRef a, srcRef b, srcRef c 2], d := d, n := 2
                        val := fun l => (wordsOf64 (f (s.g.src l a) (s.g.src l b) + pairOf s l c), 0) } s o :=
  describes_of ho (fun l => by rw [wordsOf_toBits, BitVec.ofInt_add, hg, BitVec.ofInt_natCast, State.src64_ofNat]) fun _ => rfl

theorem imad_describes {m : ImadForm} {d a b c : Reg} {v : VecSpec} (h : intSpec s (.imad m d a b c e) = some v) :
    v.Describes s (execImad m d a b c e s) := by
  cases m <;> cases h
  case loI32 =>
    exact VecSpec.mulAdd_describes (e := e) (fun x y => x * y) (g := fun x y => x * y) rfl fun x y => by rw [w32_mul, w32_toNat, w32_toNat]
  case hiI32 =>
    exact VecSpec.mulAdd_describes (e := e) (fun x y => ((x.signExtend 64 * y.signExtend 64) >>> 32).truncate 32) (g := hiMul true) rfl w32_hiMul_signed
  case hiN32 =>
    exact VecSpec.mulAdd_describes (e := e) (fun x y => ((x.zeroExtend 64 * y.zeroExtend 64) >>> 32).truncate 32) (g := hiMul false) rfl w32_hiMul_unsigned
  case wideI32 =>
    exact VecSpec.wideMulAdd_describes (e := e) (fun x y => x.signExtend 64 * y.signExtend 64) (g := wideMul true) rfl ofInt_wideMul_signed
  case wideN32 =>
    exact VecSpec.wideMulAdd_describes (e := e) (fun x y => x.zeroExtend 64 * y.zeroExtend 64) (g := wideMul false) rfl ofInt_wideMul_unsigned

/-- The 64-bit shifts, by bits 5:0 of a word (06 R108). -/
theorem VecSpec.shift64_describes (g : Dword → Nat → Dword)
    (ho : o = s.vecOp avVec [srcRef a 2, srcRef b] d 2 e fun l =>
      (wordsOf true (g (BitVec.ofNat 64 (s.g.src64 l a)) ((s.g.src l b).toNat % 64)).toNat, 0)) :
    (VecSpec.pairWord s d a b fun x y => g x (y.toNat % 64)).Describes s o :=
  describes_of ho (fun l => by rw [State.src64_ofNat, wordsOf_toNat]; rfl) fun _ => rfl

/-- Each integer, bit and address instruction is the vector operation that its rule describes (06 R104 to R114). -/
theorem intSpec_describes {i : Instr} {v : VecSpec} (h : intSpec s i = some v) : v.Describes s (exec i s) := by
  cases i with
  | iadd => exact iadd_describes h
  | isub => exact isub_describes h
  | imul => exact imul_describes h
  | imin => exact imin_describes h
  | imax => exact imax_describes h
  | imad => exact imad_describes h
  | iabsd d a b e => cases h; dsimp only [exec]; exact VecSpec.two_describes rfl fun x y => by rw [sextInt_toNat, sextInt_toNat]
  | iabs => cases h; dsimp only [exec]; exact VecSpec.one_describes rfl fun x => by rw [sextInt_toNat, w32_natAbs]
  | popc => cases h; dsimp only [exec]; exact VecSpec.one_describes rfl fun x => by rw [popCount_eq_countP]; rfl
  | brev => cases h; dsimp only [exec]; exact VecSpec.one_describes rfl w32_bitRev
  | and d a b e | or d a b e | xor d a b e | andn d a b e | orn d a b e | xnor d a b e | not d a e | shl d a b e | shr d a b e | sar d a b e | rol d a b e
  | ror d a b e | clz d a e | ctz d a e | bfx u d a b e | bfi d a b e | prmt d a b e | sel k d a b e | idot4 u d a b c e | idot2 d a b c e | lea k d a b e
  | iaddi d a i e | andi d a i e | shi k d a n e | movi d i e => cases h; exact ⟨e, rfl, fun _ => rfl⟩
  | shlI64 d a b e => cases h; exact VecSpec.shift64_describes (e := e) (· <<< ·) rfl
  | shrI64 d a b e => cases h; exact VecSpec.shift64_describes (e := e) (· >>> ·) rfl
  | sarI64 d a b e => cases h; exact VecSpec.shift64_describes (e := e) BitVec.sshiftRight rfl
  | lea64 k d a b e =>
    cases h
    exact VecSpec.describes_of (e := e) rfl (fun l => by rw [State.src64_eq, lea64_toNat, wordsOf_toNat]; rfl) fun _ => rfl
  | _ => cases h

end

/-- Settles O1: each instruction is the vector operation that its rule describes, and such an operation completes. -/
theorem integerResults : Obligations.IntegerResults := by
  unfold Obligations.IntegerResults
  intro s i v h _ hh hr
  exact (intSpec_describes h).done hh hr

end Sys2Proof
end

section
/-! Results of the floating-point, conversion and packing instructions (05 R79 to R95; 06 R117 to R127): the obligation O2. -/
namespace Sys2Proof
open Machine

section
variable {s : State} {d : Reg} {a b : Src} {e : Bool}

theorem placeType_length (t : NumType) (x : Nat) : (placeType t x).length = typeRegs t := by cases t <;> rfl

/-- The two-source forms: packed elements, words and pairs (06 R117, R118). -/
theorem VecSpec.fp2_describes (m : FpForm) (f : Fmt → Nat → Nat → Nat × Nat) : (VecSpec.fp2 s m d a b f).Describes s (s.opFp2 m d a b e f) := by
  cases m <;> exact ⟨e, rfl, fun _ => rfl⟩

theorem fma_describes {m : FpForm} {d a b c : Reg} {v : VecSpec} (h : fpSpec s (.fma m d a b c e) = some v) : v.Describes s (execFma m d a b c e s) := by
  cases m <;> cases h <;> exact ⟨e, rfl, fun _ => rfl⟩

/-- Each floating-point, conversion and packing instruction is the vector operation that its rule describes (06 R117 to R127). -/
theorem fpSpec_describes {i : Instr} {v : VecSpec} (h : fpSpec s i = some v) : v.Describes s (exec i s) := by
  cases i with
  | fadd m d a b e | fsub m d a b e | fmul m d a b e | fmin m d a b e | fmax m d a b e => cases h; exact VecSpec.fp2_describes (e := e) m _
  | fma => exact fma_describes h
  | fabs d a e => cases h; exact VecSpec.one_describes (e := e) (g := fun x => w32 (x.toNat % 2 ^ 31)) rfl w32_mod_sign
  | fneg d a e => cases h; exact VecSpec.one_describes (e := e) (g := fun x => w32 ((x.toNat + 2 ^ 31) % 2 ^ 32)) rfl w32_add_sign
  | cvt r src dst d a e => cases h; exact ⟨e, rfl, fun _ => placeType_length dst _⟩
  | fclass d a e | frndn d a e | frndz d a e | frndd d a e | fcopys d a b e | fscale d a b e | frcp d a e | frsq d a e | fsqrt d a e | fexp2 d a e
  | flog2 d a e | fsin d a e | fcos d a e | ftanh d a e | hdot2 x d a b c e | hdot4 x d a b c e | fms d a b c e | fnma d a b c e | fmaMixed m d a b c e
  | pack m d a b e | unpk m d a b e | fscl m d a b e => cases h; exact ⟨e, rfl, fun _ => rfl⟩
  | _ => cases h

end

/-- Settles O2: each instruction is the vector operation that its rule describes, and such an operation completes. -/
theorem floatResults : Obligations.FloatResults := by
  unfold Obligations.FloatResults
  intro s i v h _ hh hr
  exact (fpSpec_describes h).done hh hr

end Sys2Proof
end

section
/-! Results of the lane instructions and of the 16-bit forms on V registers (03 R51; 06 R129 to R132): the obligation O3. -/
namespace Sys2Proof
open Machine

section
variable {s : State} {d a : Reg} {e : Bool}

/-! ### Exchanges (02 R40, R44; 06 R129) -/

theorem Machine.State.checkUniform_ok {x : Src} (h : ∀ l ∈ s.batch, ∀ k ∈ s.batch, s.g.src l x = s.g.src k x) : s.checkUniform x = .ok () := by
  cases x with
  | s r => rfl
  | v r p =>
    refine if_pos (List.all_eq_true.2 fun l hl => beq_iff_eq.2 (h l hl s.lane0 ?_))
    obtain ⟨k, ks, hb⟩ := List.exists_cons_of_ne_nil (List.ne_nil_of_mem hl)
    simp [State.lane0, hb]

theorem Machine.State.poisonPairs_ok {ps : List (Nat × Nat)} (h : ∀ q ∈ ps, (s.g.vlane q.2 q.1).pois = false) : s.poisonPairs ps = .ok () := by
  have hf : (ps.filter fun q => (s.g.vlane q.2 q.1).pois) = [] := List.filter_eq_nil_iff.2 fun q hq => by simp [h q hq]
  rw [State.poisonPairs, hf]; rfl

/-- An exchange whose operand is uniform where it must be, and whose lanes read no poison, passes its checks. -/
theorem opXch_next {b : Option Src} {uni : Bool} {m : Nat → Nat} (hc : (VecSpec.xch s d a b uni m).cond)
    (hr : Ready s avCore ((VecSpec.xch s d a b uni m).srcs ++ [vdst d])) :
    s.opXch d a b uni e m = .next ((s.writeV d (VecSpec.xch s d a b uni m).val).retire e) := by
  obtain ⟨hclean, huni⟩ := hc
  have hpairs : s.poisonPairs (s.batch.map fun l => (s.g.phys l a, m l)) = .ok () :=
    State.poisonPairs_ok fun q hq => by
      obtain ⟨l, hl, rfl⟩ := List.mem_map.1 hq
      exact hclean l hl
  unfold State.opXch State.runChecks
  cases b with
  | none =>
    have hregs : s.checkRegs avCore [{ cls := 0, field := a.toNat }, vdst d] = .ok () := hr.checkRegs
    have hpend : s.checkPending [{ cls := 0, field := a.toNat }, vdst d] = .ok () := hr.checkPending
    simp only [List.append_nil, List.cons_append, List.nil_append, hregs, hpend, hpairs, firstErr]
    rfl
  | some x =>
    have hregs : s.checkRegs avCore [{ cls := 0, field := a.toNat }, srcRef x, vdst d] = .ok () := hr.checkRegs
    have hpend : s.checkPending [{ cls := 0, field := a.toNat }, srcRef x, vdst d] = .ok () := hr.checkPending
    have hpois : s.poisonTrap [srcRef x] = none := State.poisonTrap_none fun r h => hr.clean r (by
      rw [List.mem_singleton.1 h]; simp [VecSpec.xch])
    have hu : (if uni then s.checkUniform x else .ok ()) = .ok () := by
      cases uni with
      | false => rfl
      | true => exact State.checkUniform_ok (huni rfl x rfl)
    simp only [List.cons_append, List.nil_append, hregs, hpend, hpairs, hpois, hu, firstErr]
    rfl

/-- An exchange completes with the registers of the lanes it names. -/
theorem xch_done {b : Option Src} {uni : Bool} {m : Nat → Nat} (hc : (VecSpec.xch s d a b uni m).cond) (hh : Housed s)
    (hr : Ready s avCore ((VecSpec.xch s d a b uni m).srcs ++ [vdst d])) :
    ∃ t, s.opXch d a b uni e m = .next t ∧ VecDone s t d (VecSpec.xch s d a b uni m).val :=
  ⟨_, opXch_next hc hr, writeV_done hr hh (fun _ _ => rfl) e⟩

theorem exec_xchOf {i : Instr} {b : Option Src} {uni : Bool} {m : Nat → Nat} (h : xchOf s i = some (d, a, b, uni, m)) :
    ∃ e, exec i s = s.opXch d a b uni e m := by
  cases i with
  | xchRot d a b e | xchXor d a b e | xchBcast d a b e | xchIdx d a b e | xchShup d a b e | xchShdn d a b e | xchMirror d a e =>
    cases h; exact ⟨e, rfl⟩
  | _ => cases h

/-! ### Lane instructions (06 R129 to R132) -/

/-- VOTE.MATCH writes a pair in a group of 64 lanes (06 R130). -/
theorem voteMatch_describes {c : Reg} {v : VecSpec} (h : laneSpec s (.voteMatch a c e) = some v) : v.Describes s (execVoteMatch a c e s) := by
  have hn : (if s.g.width == 64 then 2 else 1) = if s.g.width = 64 then 2 else 1 := by simp
  cases h
  exact ⟨e, congrArg (s.vecOp avVec [vsrc c] a · e _) hn, fun _ => (wordsOf_length _ _).trans hn⟩

theorem laneSpec_done {i : Instr} {v : VecSpec} (h : laneSpec s i = some v) (hc : v.cond) (hh : Housed s)
    (hr : Ready s v.av (v.srcs ++ [vdst v.d v.n])) : ∃ t, exec i s = .next t ∧ VecDone s t v.d v.val := by
  unfold laneSpec at h
  split at h
  · next a c e => exact (voteMatch_describes h).done hh hr
  · next m d a e =>
    cases h
    refine VecSpec.Describes.done ⟨e, ?_, fun _ => rfl⟩ hh hr
    dsimp only [exec, execRedl]
  · next m x d a e =>
    cases h
    refine VecSpec.Describes.done ⟨e, ?_, fun _ => rfl⟩ hh hr
    dsimp only [exec, execScanl]
  · obtain ⟨⟨d, a, b, uni, m⟩, hx, rfl⟩ := Option.map_eq_some_iff.1 h
    obtain ⟨e, he⟩ := exec_xchOf hx
    rw [he]
    exact xch_done hc hh hr

/-! ### The 16-bit forms (03 R51) -/

/-- A 16-bit form executes as its 32-bit form. -/
theorem exec_expanded {i j : Instr} (h : expanded i = some j) : exec i s = exec j s := by
  cases i with
  | iaddC16 | isubC16 | imulC16 | andC16 | orC16 | xorC16 | shlC16 | shrC16 | movC16 | faddC16 | fmaxC16 | fmulC16 => cases h; rfl
  | _ => cases h

theorem compactSpec_describes {i : Instr} {v : VecSpec} (h : compactSpec s i = some v) : v.Describes s (exec i s) := by
  unfold compactSpec at h
  split at h
  · next i d => cases h; exact VecSpec.describes_of (e := false) (g := fun _ => ([c16Imm i], 0)) rfl (fun _ => by rw [c16Imm, wrap32_sextInt]) fun _ => rfl
  · next i d =>
    cases h
    exact VecSpec.one_describes (e := false) (g := fun x => x + c16Imm i) rfl fun x => by rw [c16Imm, wrap32_sextInt]
  · obtain ⟨j, hj, hv⟩ := Option.bind_eq_some_iff.1 h
    rw [exec_expanded hj]
    cases hi : intSpec s j with
    | some w => rw [hi] at hv; cases hv; exact intSpec_describes hi
    | none => rw [hi] at hv; exact fpSpec_describes hv

end

/-- Settles O3: a lane instruction's checks pass and its values are written; a 16-bit form is what its 32-bit form is. -/
theorem laneAndCompactResults : Obligations.LaneAndCompactResults := by
  unfold Obligations.LaneAndCompactResults
  intro s i v h hc hh hr
  rcases h with h | h
  · exact laneSpec_done h hc hh hr
  · exact (compactSpec_describes h).done hh hr

end Sys2Proof
end

section
/-! Results of the instructions that write P registers and of those that write S registers (06 R110, R115, R116, R119, R130): the obligations O4 and
O5. -/
namespace Sys2Proof
open Machine

section
variable {s : State} {e : Bool}

/-! ### P registers -/

/-- An outcome is that of an instruction that reads given registers and writes Pd lane by lane. -/
def PredDescribes (s : State) (o : Out) (rs : List Ref) (d : PReg) (f : Nat → Bool × Nat) : Prop :=
  ∃ e : Bool, o = s.runOk avVec (rs ++ [pref d.toNat]) e (s.writeP d f)

theorem icmp_describes {m : IcmpForm} {p d : PReg} {a b : Src} {rs : List Ref} {f : Nat → Bool × Nat}
    (h : predSpec s (.icmp m p a b e) = some (rs, d, f)) : PredDescribes s (execIcmp m p a b e s) rs d f := by
  cases h
  refine ⟨e, congrArg (fun f => s.runOk avVec [srcRef a, srcRef b, pref p.toNat] e (s.writeP p f)) (funext fun l => Prod.ext ?_ rfl)⟩
  cases m with
  | eq | ltI | leI | ltN | leN => rfl
  | ne | tst => simp [icmpLane, bne, beq_eq_decide]

theorem predSpec_describes {i : Instr} {rs : List Ref} {d : PReg} {f : Nat → Bool × Nat} (h : predSpec s i = some (rs, d, f)) :
    PredDescribes s (exec i s) rs d f := by
  cases i with
  | icmp => exact icmp_describes h
  | fcmp m p a b e | voteAny p a e | voteAll p a e => cases h; exact ⟨e, rfl⟩
  | _ => cases h

/-! ### S registers -/

/-- An outcome is that of an instruction which writes the words that a spec gives to S registers. -/
def ScalarSpec.Describes (v : ScalarSpec) (s : State) (o : Out) : Prop :=
  ∃ e : Bool, o = s.runOk v.av (v.srcs ++ [sref v.d v.words.length]) e (s.writeS v.d v.words)

variable {d a b : Reg} {o : Out}

theorem ScalarSpec.Describes.done {v : ScalarSpec} (h : v.Describes s o) (hr : Ready s v.av (v.srcs ++ [sref v.d v.words.length])) :
    ∃ t, o = .next t ∧ ScalarDone s t v.d v.words := by
  obtain ⟨e, rfl⟩ := h
  exact writeS_done hr e

theorem ScalarSpec.one_describes {f g : Word → Word} (ho : o = s.opS1 d a e g) (hg : ∀ x, g x = f x) : (ScalarSpec.one s d a f).Describes s o :=
  ⟨e, funext hg ▸ ho⟩

theorem ScalarSpec.two_describes {f g : Word → Word → Word} (ho : o = s.opS2 d a b e g) (hg : ∀ x y, g x y = f x y) :
    (ScalarSpec.two s d a b f).Describes s o :=
  ⟨e, (funext₂ hg : g = f) ▸ ho⟩

theorem smin_describes {u : Bool} {v : ScalarSpec} (h : scalarSpec s (.smin u d a b e) = some v) : v.Describes s (execSmin u d a b e s) := by
  cases h
  refine ScalarSpec.two_describes rfl fun x y => ?_
  cases u with
  | false => exact w32_min_signed x y
  | true => exact w32_min_unsigned x y

theorem smax_describes {u : Bool} {v : ScalarSpec} (h : scalarSpec s (.smax u d a b e) = some v) : v.Describes s (execSmax u d a b e s) := by
  cases h
  refine ScalarSpec.two_describes rfl fun x y => ?_
  cases u with
  | false => exact w32_max_signed x y
  | true => exact w32_max_unsigned x y

/-- VOTE.BALLOT writes a pair in a group of 64 lanes. -/
theorem voteBallot_describes {p : PReg} {v : ScalarSpec} (h : scalarSpec s (.voteBallot a p e) = some v) :
    v.Describes s (execVoteBallot a p e s) := by
  cases h
  exact ⟨e, congrArg (fun n => s.runOk avVec [pref p.toNat, sref a n] e (s.writeS a _)) (wordsOf_length _ _).symm⟩

/-- RDLANE, where the register that it reads holds no poison. -/
theorem rdlane_done {v : ScalarSpec} (h : scalarSpec s (.rdlane d a b e) = some v) (hc : v.cond)
    (hr : Ready s v.av (v.srcs ++ [sref v.d v.words.length])) : ∃ t, execRdlane d a b e s = .next t ∧ ScalarDone s t v.d v.words := by
  cases h
  have hp : s.poisonPairs [(s.g.phys s.lane0 a, (s.g.sreg b.toNat).toNat % s.g.width)] = .ok () :=
    State.poisonPairs_ok fun q hq => by rw [List.mem_singleton.1 hq]; exact hc
  obtain ⟨t, ht, hd⟩ := writeS_done (d := d) (ws := [s.g.vval ((s.g.sreg b.toNat).toNat % s.g.width) (s.g.phys s.lane0 a)]) hr e
  refine ⟨t, ?_, hd⟩
  rw [← ht, hr.runOk]
  exact hr.run e (by rw [hp])

theorem scalarSpec_done {i : Instr} {v : ScalarSpec} (h : scalarSpec s i = some v) (hc : v.cond)
    (hr : Ready s v.av (v.srcs ++ [sref v.d v.words.length])) : ∃ t, exec i s = .next t ∧ ScalarDone s t v.d v.words := by
  cases i with
  | rdlane => exact rdlane_done h hc hr
  | smin => exact (smin_describes h).done hr
  | smax => exact (smax_describes h).done hr
  | voteBallot => exact (voteBallot_describes h).done hr
  | ssel d a b e =>
    cases h
    exact (ScalarSpec.two_describes (e := e) (g := fun x y => if s.g.sreg d.toNat != 0 then x else y) rfl fun x y => by simp).done hr
  | spopc d a e =>
    cases h
    exact (ScalarSpec.one_describes (e := e) (g := fun x => w32 (popCount 32 x.toNat)) rfl fun x => by rw [popCount_eq_countP]; rfl).done hr
  | sadd d a b e | ssub d a b e | smul d a b e | sand d a b e | sor d a b e | sxor d a b e | sshl d a b e | sshr d a b e | smovi d i e | saddi d a i e
  | sclz d a e | votePopc a p e => cases h; exact ScalarSpec.Describes.done ⟨e, rfl⟩ hr
  | _ => cases h

end

/-- Settles O4: each instruction writes Pd lane by lane, and such an instruction completes. -/
theorem predicateResults : Obligations.PredicateResults := by
  unfold Obligations.PredicateResults
  intro s i rs d f h hr
  obtain ⟨e, he⟩ := predSpec_describes h
  rw [he]
  exact writeP_done hr e

/-- Settles O5: each instruction's checks pass, and the words of its rule are written. -/
theorem scalarResults : Obligations.ScalarResults := by
  unfold Obligations.ScalarResults
  intro s i v h hc hr
  exact scalarSpec_done h hc hr

end Sys2Proof
end

section
/-! Writes of modes and system registers (06 R128; 18 R352 to R354): the obligation O6. -/
namespace Sys2Proof
open Machine

section
variable {s : State} {a : Reg} {e : Bool}

theorem sysAvail_cellar (n : Nat) : (sysAvail n false).cellar = false := by
  unfold sysAvail
  split
  · exact Bool.and_false _
  · rfl

/-- A group whose kind may write a system register finds none read-only: those are a cellar group's (18 R352). -/
theorem RunsHere.not_sysReadOnly {n k : Nat} (h : RunsHere s (sysAvail n false)) : s.sysReadOnly k = false := by
  have hk : s.g.kind ≠ .cellar := fun hc => by
    have := h.1
    rw [hc, Avail.runs, sysAvail_cellar] at this
    cases this
  simp [State.sysReadOnly, hk]

theorem Machine.State.flagsWait_ok (h : ∀ r ∈ s.g.returns, r.kind ≠ .qnt) (n : Nat) : s.flagsWait n = .ok () := by
  have : (s.g.returns.any (·.kind == .qnt)) = false := List.any_eq_false.2 fun r hr => by simp [h r hr]
  rw [State.flagsWait, this, Bool.and_false]; rfl

theorem RunsHere.ready_nil {av : Avail} (h : RunsHere s av) : Ready s av [] := ⟨h, nofun, nofun, nofun⟩

/-- An instruction that retires with its effect has moved on. -/
theorem done_of_retire {i : Instr} {u : State} (hc : u.cur = s.cur) (h : exec i s = .next (u.retire e)) :
    ∃ t, exec i s = .next t ∧ MovedOn u t fun _ => s.cur.npc :=
  ⟨_, h, hc ▸ u.retire_movedOn e⟩

/-- SYSW of a register that has no row of its own makes the register's write and moves on. -/
theorem sysw_done {n : BitVec 10} {k : Nat} {u : State} (hr : Ready s (sysAvail k false) [sref a]) (hn : n.toNat = k)
    (hu : s.sysWriteReg k (s.g.sreg a.toNat) = u) (hc : u.cur = s.cur) : ∃ t, exec (.sysw n a e) s = .next t ∧ MovedOn u t fun _ => s.cur.npc := by
  subst hn hu
  refine done_of_retire (e := e) hc (?_ : execSysw n a e s = _)
  rw [execSysw, hr.runs.not_sysReadOnly, if_neg Bool.false_ne_true, hr.runOk]

/-! ### What a write of a system register changes (18 Table 18.1) -/

variable (s) (w : Word)

theorem Machine.State.sysWriteReg_lmap {m : Nat} (hm : m < 4) :
    s.sysWriteReg (0x31 + 2 * m) w = s.modT fun t => { t with lmap := tmod {} t.lmap m fun k => { k with b := w } } := by
  have hk : (0x31 + 2 * m - 0x30) / 2 = m := by omega
  rw [State.sysWriteReg, if_neg (by omega), if_neg (by omega), if_pos (by omega), hk]

theorem Machine.State.sysWriteReg_stvec {k : Nat} (hk : k < 2) :
    s.sysWriteReg (0x80 + k) w = s.modG fun g => { g with seq := { g.seq with stvec := setHalf g.seq.stvec k w } } := by
  rw [State.sysWriteReg, if_neg (by omega), if_neg (by omega), if_neg (by omega), if_pos (by omega), Nat.add_sub_cancel_left]

theorem Machine.State.sysWriteReg_stpc (k : Nat) :
    s.sysWriteReg (0x82 + k) w = s.modG fun g => { g with seq := { g.seq with stpc := setHalf g.seq.stpc k w } } := by
  rw [State.sysWriteReg, if_neg (by omega), if_neg (by omega), if_neg (by omega), if_neg (by omega), Nat.add_sub_cancel_left]

end

section
variable {s : State} {a : Reg} {e : Bool}

/-- SETFPM of an S register that holds a mode (18 R354). -/
theorem setfpm_done (hr : Ready s avHome [sref a]) (hv : (s.g.sreg a.toNat).toNat < 256) :
    ∃ t, exec (.setfpm a e) s = .next t ∧ MovedOn (s.modG fun g => { g with fpmode := s.g.sreg a.toNat }) t fun _ => s.cur.npc := by
  refine done_of_retire rfl (hr.run e ?_)
  simp only [hv, decide_true, need, if_true]

/-- SYSW of FPFLAGS, where no QNT waits for its add (18 R352, R353). -/
theorem fpflagsClear_done (hr : Ready s (sysAvail 2 false) [sref a]) (hq : ∀ r ∈ s.g.returns, r.kind ≠ .qnt) :
    ∃ t, exec (.fpflagsClear a e) s = .next t ∧
      MovedOn (s.modG fun g => { g with fpflags := s.g.fpflags &&& ~~~(s.g.sreg a.toNat) }) t fun _ => s.cur.npc := by
  refine done_of_retire (e := e) rfl (?_ : execFpflagsClear a e s = _)
  rw [execFpflagsClear, hr.runs.not_sysReadOnly, if_neg Bool.false_ne_true]
  refine hr.run e ?_
  rw [State.flagsWait_ok hq]; rfl

end

/-- Settles O6: each instruction passes its checks and makes its one change, after which the batch moves on. -/
theorem modeWrites : Obligations.ModeWrites := by
  unfold Obligations.ModeWrites
  intro s e done
  exact ⟨fun k hr => done_of_retire rfl (hr.ready_nil.runOk e _),
    fun a hr hv => setfpm_done hr hv,
    fun k hr => done_of_retire rfl (hr.ready_nil.runOk e _),
    fun a hr hq => fpflagsClear_done hr hq,
    fun a hr => sysw_done hr rfl rfl rfl,
    fun a hr => sysw_done hr rfl rfl rfl,
    fun m a hr => sysw_done hr (Nat.mod_eq_of_lt (by omega)) (s.sysWriteReg_lmap _ m.isLt) rfl,
    fun a hr => sysw_done hr rfl (s.sysWriteReg_stvec _ (k := 0) (by decide)) rfl,
    fun a hr => sysw_done hr rfl (s.sysWriteReg_stvec _ (k := 1) (by decide)) rfl,
    fun a hr => sysw_done hr rfl (s.sysWriteReg_stpc _ 0) rfl,
    fun a hr => sysw_done hr rfl (s.sysWriteReg_stpc _ 1) rfl⟩

end Sys2Proof
end

section
/-! SUPPORT. Updates of the state that leave every memory as it reads. -/
namespace Sys2Proof
open Machine

/-- The next number and the next free value are in no memory. -/
theorem Machine.State.numbers_memoryKept (s : State) (id value : Nat) : MemoryKept s { s with nextId := id, fresh := value } :=
  ⟨fun _ => rfl, fun _ => rfl, fun _ _ => rfl, fun _ _ => rfl, fun _ _ => rfl, fun _ _ => rfl⟩

section
variable (s : State) (n : Nat)

theorem Machine.State.setG_memoryKept (f : Group → Group) : MemoryKept s (s.setG n f) := .of_groups rfl

theorem Machine.State.setT_memoryKept (f : Team → Team) (hf : ∀ t, (f t).larder = t.larder) : MemoryKept s (s.setT n f) := by
  refine ⟨fun _ => rfl, fun _ => rfl, fun k a => ?_, fun _ _ => rfl, fun _ _ => rfl, fun _ _ => rfl⟩
  by_cases h : k = n
  · subst h; rw [State.setT_team_same, hf]
  · rw [State.setT_team_other _ _ _ _ h]

theorem Machine.State.setCl_memoryKept (f : Cluster → Cluster) (hf : ∀ c, (f c).bins = c.bins) : MemoryKept s (s.setCl n f) := by
  refine ⟨fun _ => rfl, fun _ => rfl, fun _ _ => rfl, fun _ _ => rfl, fun _ _ => rfl, fun k a => ?_⟩
  by_cases h : k = n
  · subst h; rw [State.setCl_cluster_same, hf]
  · rw [State.setCl_cluster_other _ _ _ _ h]

end

end Sys2Proof
end

section
/-! The issue of operations to the matrix array (07 R149; 08 R151, R158): what an operation issued leaves, and the obligation O26. -/
namespace Sys2Proof
open Machine

/-! ### An operation issued (08 R151) -/

/-- The return that counts an issued operation in TL. -/
def Machine.State.arrayReturn (s : State) : Return := { id := s.nextId, kind := .matrix, ctr := some .tl, left := 1, issue := s.cur }

/-- An operation of the issuing instruction, as the array holds it. -/
def Machine.State.arrayOp (s : State) (k : MatKind) : MatOp := { id := s.nextId + 1, gid := s.cur.gid, ret := s.nextId, kind := k, pc := s.cur.pc }

/-- The issuing group with an operation's return begun. -/
def Machine.State.arrayBegun (s : State) : State := ({ s with nextId := s.nextId + 2 } : State).modG fun g => g.begin s.arrayReturn

theorem Machine.State.arrayBegun_g (s : State) : s.arrayBegun.g = { s.g with returns := s.g.returns ++ [s.arrayReturn], tl := s.g.tl + 1 } :=
  (State.setG_grp_same _ _ _ : _ = s.g.begin s.arrayReturn)

/-- An operation issued joins those that wait at the issuing group's own cluster. -/
theorem Machine.State.issueOp_eq (s : State) (k : MatKind) :
    s.issueOp k = s.arrayBegun.setCl s.g.cluster fun c => { c with ops := c.ops ++ [s.arrayOp k] } := by
  have hc : s.arrayBegun.g.cluster = s.g.cluster := by rw [s.arrayBegun_g]; rfl
  rw [← hc]
  rfl

theorem Machine.State.arrayBegun_others (s : State) (n : Nat) (hn : n ≠ s.cur.gid) : s.arrayBegun.grp n = s.grp n :=
  (State.setG_grp_other ({ s with nextId := s.nextId + 2 } : State) s.cur.gid _ n hn :)

section
variable {s t : State} {k : MatKind} (h : MovedOn (s.arrayBegun.setCl s.g.cluster fun c => { c with ops := c.ops ++ [s.arrayOp k] }) t fun _ => s.cur.npc)
include h

theorem MovedOn.array_group : { t.grp s.cur.gid with fibres := s.g.fibres, ages := s.g.ages, readySince := s.g.readySince } =
    { s.g with returns := s.g.returns ++ [s.arrayReturn], tl := s.g.tl + 1 } := by
  have hown : { t.grp s.cur.gid with fibres := s.arrayBegun.g.fibres, ages := s.arrayBegun.g.ages, readySince := s.arrayBegun.g.readySince } =
      s.arrayBegun.g := h.own
  rw [s.arrayBegun_g] at hown
  exact hown

theorem MovedOn.array_fib (l : Nat) : (t.grp s.cur.gid).fib l =
    if l ∈ s.batch then { s.g.fib l with pc := s.cur.npc, wait := .none, refused := none, fellBack := false } else s.g.fib l := by
  have hst : (t.grp s.cur.gid).fib l = if l ∈ s.arrayBegun.g.lanes s.cur.mask then
      { s.arrayBegun.g.fib l with pc := s.cur.npc, wait := .none, refused := none, fellBack := false } else s.arrayBegun.g.fib l := h.stands l
  rw [s.arrayBegun_g] at hst
  exact hst

theorem MovedOn.array_cluster (n : Nat) : t.cluster n = (s.setCl s.g.cluster fun c => { c with ops := c.ops ++ [s.arrayOp k] }).cluster n :=
  (congrArg (fun u : State => u.cluster n) h.rest :)

theorem MovedOn.array_memory : MemoryKept { s with clusters := t.clusters } t := by
  have hrest : { t with groups := s.groups, cores := s.cores, cur := s.cur } = { s with nextId := s.nextId + 2, clusters := t.clusters } :=
    congrArg (fun u : State => { u with groups := s.groups, clusters := t.clusters }) h.rest
  exact (State.numbers_memoryKept { s with clusters := t.clusters } (s.nextId + 2) s.fresh).trans (.of_groups hrest)

/-- An operation's return begun: the group counts it in TL, and its batch stands at the next instruction. -/
theorem MovedOn.array_begun : Begun { s with clusters := t.clusters } t .tl s.arrayReturn [] := by
  have hg := h.array_group
  have hstands : Stands s t fun _ => s.cur.npc := fun l => by rw [h.array_fib]; split <;> rfl
  have hpreds (l i : Nat) : (t.grp s.cur.gid).pbit l i = s.g.pbit l i := by rw [Group.pbit, h.array_fib]; split <;> rfl
  refine ⟨(congrArg Group.returns hg :), rfl, fun c => ?_, ?_, ?_, hstands, hpreds, fun n hn => ?_, h.array_memory, h.ended⟩
  · have hc := congrArg (fun g => Group.ctr g c) hg
    cases c <;> exact hc
  · exact (congrArg Group.stores hg).trans (List.append_nil _).symm
  · exact congrArg (fun g : Group => { g with returns := s.g.returns, stores := s.g.stores, ld := s.g.ld, st := s.g.st, cp := s.g.cp, tl := s.g.tl }) hg
  · exact (h.others n hn).trans (s.arrayBegun_others n hn)

end

/-- An operation that is issued, and whose batch then moves on, stands behind its cluster's others and counts in TL. -/
theorem ArrayIssued.of_movedOn {s t : State} {k : MatKind} (h : MovedOn (s.issueOp k) t fun _ => s.cur.npc) : ArrayIssued s t k := by
  rw [s.issueOp_eq k] at h
  refine ⟨s.arrayReturn, s.arrayOp k, h.array_begun, rfl, rfl, ?_, rfl, rfl, rfl, rfl, rfl, fun a => ?_, fun c hc => ?_,
    (congrArg State.teams h.rest :)⟩
  · rw [h.array_cluster, State.setCl_cluster_same]
  · rw [h.array_cluster, State.setCl_cluster_same]
  · rw [h.array_cluster, State.setCl_cluster_other _ _ _ _ hc]

/-! ### Matrix operations (08 R158) -/

/-- A matrix operation whose checks pass is issued. -/
theorem opMma_issues {s : State} {minor : Nat} {k zd : Fld3} {b a : BitVec 7} (hr : Ready s avHomeSeq [zref zd]) (htl : s.g.tl < 63)
    (hheld : s.checkHeld = .ok ()) (hbins : s.checkBins (mmaBins (mshape (s.slotBytes k.toNat)) a.toNat b.toNat) = .ok ())
    (hslot : s.checkSlot k.toNat (minorTakes minor) = .ok ())
    (hmeta : s.checkMmas (mshape (s.slotBytes k.toNat)) ⟨minor, k.toNat, a.toNat, b.toNat, zd.toNat⟩ = .ok ()) (e : Bool) :
    ∃ t, s.opMma minor k b a zd e = .next t ∧ ArrayIssued s t (.mma minor k.toNat a.toNat b.toNat zd.toNat) := by
  have hctr : s.checkCtr .tl = .ok () := if_pos htl
  refine ⟨_, hr.run e ?_, .of_movedOn (State.retire_movedOn _ e)⟩
  simp only [hslot, hbins, hctr, hheld, hmeta, firstErr]

/-- Settles O26: every form is the issue of its minor's operation, whose checks pass. -/
theorem matrixOperationsIssue : Obligations.MatrixOperationsIssue := by
  unfold Obligations.MatrixOperationsIssue
  intro s k b a zd e hr htl hheld hbins ok done
  have issues (minor : Nat) (h : ok minor) := opMma_issues hr htl hheld hbins h.1 h.2 e
  exact ⟨issues 0, issues 1, issues 2, issues 3, issues 4, issues 5, issues 6⟩

end Sys2Proof
end

section
/-! The array takes operations (07 R133, R145; 08 R155): a matrix operation begins, a release's bins are zeroed; the entries of completed operations are
freed (07 R137). -/
namespace Sys2Proof
open Machine

/-! ### A byte memory without some addresses -/

theorem Machine.mread_eq_l2get (m : Memory) (a : Nat) : mread m a = (l2get m a).getD 0 := by
  induction m with
  | nil => rfl
  | cons c m ih =>
    rw [mread, l2get_cons, ih]
    split <;> rfl

/-- A range cleared reads 0, and every other byte reads as it did. -/
theorem Machine.mread_mclear (m : Memory) (a n x : Nat) : mread (mclear m a n) x = if a ≤ x ∧ x < a + n then 0 else mread m x := by
  rw [mread_eq_l2get, mclear, l2get_filter m (fun x => x < a || a + n ≤ x), mread_eq_l2get]
  by_cases h : a ≤ x ∧ x < a + n
  · rw [if_pos h, if_neg (by simp; omega)]; rfl
  · rw [if_neg h, if_pos (by simp; omega)]

/-! ### The idle array and its next operation -/

section
variable {s : State} {cl : Nat} {o : MatOp}

/-- An idle array takes its next operation, unless that is a release. -/
theorem exec_matrixOpAccept (hcl : cl < 128) (hr : (s.cluster cl).running = none) (hn : s.nextOp cl = some o) (ho : o.isRelease = false) :
    exec (.matrixOpAccept cl) s = .next (s.takeOp cl o) := by
  show execMatrixOpAccept cl s = _
  rw [execMatrixOpAccept, if_neg (by omega), hr, hn]
  simp only [ho, Bool.false_eq_true, if_false]

/-- An idle array takes its next operation as it zeroes bins, if that is a release. -/
theorem exec_binZeroing (hcl : cl < 128) (hr : (s.cluster cl).running = none) (hn : s.nextOp cl = some o) (ho : o.isRelease = true) :
    exec (.binZeroing cl) s = .next (s.takeOp cl o) := by
  show execBinZeroing cl s = _
  rw [execBinZeroing, if_neg (by omega), hr, hn]
  simp only [ho, if_true]

/-- The cluster that has taken an operation, not yet begun. -/
def Machine.Cluster.taken (c : Cluster) (o : MatOp) : Cluster := { c.without o with lastServed := o.gid }

/-- A matrix operation that adds to its accumulator begins: nothing but the cluster differs. -/
theorem Machine.State.takeOp_mma {minor slot a b zd : Nat} (hk : o.kind = .mma minor slot a b zd) (hz : minorZ minor = false) :
    s.takeOp cl o = (s.setCl cl fun c => c.taken o).setCl cl fun c => { c with running := some o } := by
  simp only [State.takeOp, hk, hz, Bool.false_and, Bool.false_eq_true, if_false]
  rfl

/-- A release's bins are zeroed, and it is complete. -/
theorem Machine.State.takeOp_release {f k : Nat} (hk : o.kind = .release f k) :
    s.takeOp cl o = ((s.setCl cl fun c => c.taken o).setCl cl fun c => c.binZero f k).opDone o := by
  simp only [State.takeOp, hk]
  rfl

theorem OnlyCluster.setCl (s : State) (n : Nat) (f : Cluster → Cluster) : OnlyCluster s (s.setCl n f) n (f (s.cluster n)) :=
  ⟨rfl, s.setCl_cluster_same n f, s.setCl_cluster_other n f⟩

theorem OnlyCluster.trans {s t u : State} {n : Nat} {c d : Cluster} (h : OnlyCluster s t n c) (k : OnlyCluster t u n d) : OnlyCluster s u n d :=
  ⟨(congrArg (fun x : State => { x with clusters := s.clusters }) k.rest).trans h.rest, k.own, fun j hj => (k.others j hj).trans (h.others j hj)⟩

/-- MATRIX_OP_ACCEPT of a matrix operation that adds to its accumulator (07 R133, R145). -/
theorem matrixOpAccept_begins (hcl : cl < 128) {minor slot a b zd : Nat} (hr : (s.cluster cl).running = none) (hn : s.nextOp cl = some o)
    (hk : o.kind = .mma minor slot a b zd) (hz : minorZ minor = false) :
    ∃ t, exec (.matrixOpAccept cl) s = .next t ∧ OnlyCluster s t cl { (s.cluster cl).taken o with running := some o } := by
  have ho : o.isRelease = false := by rw [MatOp.isRelease, hk]
  refine ⟨_, exec_matrixOpAccept hcl hr hn ho, ?_⟩
  rw [State.takeOp_mma hk hz]
  have h := (OnlyCluster.setCl s cl fun c => c.taken o).trans (.setCl _ cl fun c => { c with running := some o })
  rw [State.setCl_cluster_same] at h
  exact h

/-- BIN_ZEROING of a release (08 R155). -/
theorem binZeroing_zeroes (hcl : cl < 128) {f k : Nat} (hr : (s.cluster cl).running = none) (hn : s.nextOp cl = some o)
    (hk : o.kind = .release f k) :
    ∃ t, exec (.binZeroing cl) s = .next t ∧ t.cluster cl = ((s.cluster cl).taken o).binZero f k ∧
      t.grp o.gid = (s.grp o.gid).oneDone o.ret ∧ (∀ j, j ≠ o.gid → t.grp j = s.grp j) ∧ t.teams = s.teams := by
  have ho : o.isRelease = true := by rw [MatOp.isRelease, hk]
  refine ⟨_, exec_binZeroing hcl hr hn ho, ?_⟩
  rw [State.takeOp_release hk]
  refine ⟨?_, State.setG_grp_same _ _ _, fun j hj => State.setG_grp_other _ _ _ _ hj, rfl⟩
  rw [State.opDone, State.setG_cluster, State.setCl_cluster_same, State.setCl_cluster_same]

theorem Machine.Cluster.binZero_read (c : Cluster) (f k a : Nat) :
    mread (c.binZero f k).bins a = if 32768 * f ≤ a ∧ a < 32768 * (f + k) then 0 else mread c.bins a := by
  rw [Nat.mul_add]
  exact mread_mclear c.bins (32768 * f) (32768 * k) a

end

/-! ### Entries freed (07 R137) -/

/-- Nothing of a team is left at the array, and none of its operations is saved: QUEUE_ENTRY_TAKEABLE frees every entry of a queue. -/
theorem queueEntryTakeable_frees {s : State} {tid : Nat} (q : Nat) (ht : thas s.teams tid = true)
    (hops : ∀ x ∈ s.groups, x.2.tid = tid → s.agentOps x.1 = []) (hrun : (s.team tid).savedRun = none) (hsaved : (s.team tid).savedOps = []) :
    exec (.queueEntryTakeable tid q) s =
      .next (s.setT tid fun t => t.setQueue q ((t.queue q).map fun x => { x with held := [] })) := by
  have hlive : s.groups.foldl (fun l e => if e.2.tid = tid then l ++ (s.agentOps e.1).map (·.id) else l) ([] : List Nat) = [] := by
    refine (List.foldl_ext _ (fun l _ => l) _ fun l e he => ?_).trans (List.foldl_fixed _)
    split
    · next h => rw [hops e he h, List.map_nil, List.append_nil]
    · rfl
  have hfree (l : List Nat) : l.filter ([] : List Nat).contains = [] := List.filter_eq_nil_iff.2 fun _ _ => by simp
  show execQueueEntryTakeable tid q s = _
  simp only [execQueueEntryTakeable, hrun, hsaved, Option.toList_none, List.append_nil, List.map_nil, hlive, hfree, ht, if_true]

end Sys2Proof
end

section
/-! One sum unit of the running operation that meets no stop (07 R141 to R147). -/
namespace Sys2Proof
open Machine

/-! ### Entries of a table set in order -/

theorem Machine.tget_tputs_map {α : Type} (d : α) (t : Tab α) {key : Nat → Nat} (hkey : ∀ i j, key i = key j → i = j) (v : Nat → α)
    (is : List Nat) (i : Nat) : tget d (tputs t (is.map fun i => (key i, v i))) (key i) = if i ∈ is then v i else tget d t (key i) := by
  induction is generalizing t with
  | nil => rfl
  | cons a is ih =>
    show tget d (tputs (tput t (key a) (v a)) (is.map fun i => (key i, v i))) (key i) = _
    rw [ih, tget_tput]
    by_cases hi : i ∈ is
    · simp [hi]
    · by_cases ha : i = a
      · simp [ha]
      · rw [if_neg fun h => ha (hkey i a h), if_neg hi, if_neg (by simp [ha, hi])]

theorem Machine.tget_tputs_other {α : Type} (d : α) (t : Tab α) (es : List (Nat × α)) (n : Nat) (hn : ∀ e ∈ es, e.1 ≠ n) :
    tget d (tputs t es) n = tget d t n := by
  induction es generalizing t with
  | nil => rfl
  | cons e es ih =>
    show tget d (tputs (tput t e.1 e.2) es) n = _
    rw [ih _ fun x hx => hn x (List.mem_cons_of_mem _ hx), tget_tput_other _ _ _ _ _ (hn e List.mem_cons_self).symm]

/-! ### Rows of an accumulator -/

section
variable (t : Team) (c : Cluster) (slot : List Byte) (k : MmaOp) (d lo : Nat)

theorem Machine.Team.zput_zrow_same (z : Nat) (is : List Nat) (v : Nat → List Word) (i : Nat) :
    (t.zput z (is.map fun i => (i, v i))).zrow z i = if i ∈ is then v i else t.zrow z i := by
  show tget _ (tputs t.z ((is.map fun i => (i, v i)).map fun r => (128 * z + r.1, r.2))) (128 * z + i) = _
  rw [List.map_map]
  exact tget_tputs_map _ t.z (fun i j h => Nat.add_left_cancel h) v is i

theorem Machine.Team.zput_zrow_other {z y : Nat} (hz : z ≠ y) {rows : List (Nat × List Word)} (hr : ∀ r ∈ rows, r.1 < 128) {i : Nat}
    (hi : i < 128) : (t.zput y rows).zrow z i = t.zrow z i := by
  refine tget_tputs_other _ _ _ _ fun e he => ?_
  obtain ⟨r, hm, rfl⟩ := List.mem_map.1 he
  have := hr r hm
  show 128 * y + r.1 ≠ 128 * z + i
  omega

/-- An element of a row in a unit's steps: the terms of the unit are added to it, or taken for it by a .Z form's first unit (08 R158). -/
def unitElem (i j : Nat) : Word :=
  c.unitStep slot (mshape slot) k.minor k.a k.b i j d (c.rowTerms (mshape slot) k.minor k.a i d)
    (if minorZ k.minor && d = 0 then 0 else (t.zrow k.zd i).getD j 0)

/-- A row once a unit's steps from one on are done. -/
def unitRow (i : Nat) : List Word :=
  (List.range 128).map fun j => if lo ≤ 128 * i + j ∧ 128 * i + j < 16384 then unitElem t c slot k d i j else (t.zrow k.zd i).getD j 0

/-- The rows that a unit's steps from one on change. -/
def rowsFrom : List Nat := (List.range 128).filter fun i => decide (lo < 128 * i + 128 ∧ 128 * i < 16384)

theorem unitRows_eq : unitRows t c slot k d lo 16384 = (rowsFrom lo).map fun i => (i, unitRow t c slot k d lo i) := rfl

theorem unitRow_getD (i : Nat) {j : Nat} (hi : i < 128) (hj : j < 128) : (unitRow t c slot k d lo i).getD j 0 =
    if lo ≤ 128 * i + j then unitElem t c slot k d i j else (t.zrow k.zd i).getD j 0 := by
  have h : 128 * i + j < 16384 := by omega
  simp [unitRow, hj, h]

theorem mem_rowsFrom {i : Nat} (hi : i < 128) : i ∈ rowsFrom lo ↔ lo < 128 * i + 128 := by
  simp only [rowsFrom, List.mem_filter, List.mem_range, decide_eq_true_eq]
  omega

/-- A team once a unit's steps from one on are done: its accumulator's rows, their last completed state, and the count. -/
def Machine.Team.unitDone : Team :=
  let u := (t.zput k.zd (unitRows t c slot k d lo 16384)).zcommit k.zd
  { u with zSteps := tmod 0 u.zSteps k.zd (· + 1) }

theorem Machine.Team.unitDone_zrow (z i : Nat) :
    (t.unitDone c slot k d lo).zrow z i = (t.zput k.zd (unitRows t c slot k d lo 16384)).zrow z i := by
  simp only [Team.zrow, Team.unitDone, Team.zcommit]

/-- An element once a unit's steps from one on are done: the elements before that step are as they were. -/
theorem Machine.Team.unitDone_same {i j : Nat} (hi : i < 128) (hj : j < 128) : ((t.unitDone c slot k d lo).zrow k.zd i).getD j 0 =
    if lo ≤ 128 * i + j then unitElem t c slot k d i j else (t.zrow k.zd i).getD j 0 := by
  rw [Team.unitDone_zrow, unitRows_eq, Team.zput_zrow_same]
  split
  · exact unitRow_getD t c slot k d lo i hi hj
  · next h =>
    rw [mem_rowsFrom lo hi] at h
    rw [if_neg (by omega)]

theorem Machine.Team.unitDone_other {z i : Nat} (hz : z ≠ k.zd) (hi : i < 128) : (t.unitDone c slot k d lo).zrow z i = t.zrow z i := by
  rw [Team.unitDone_zrow, unitRows_eq]
  refine Team.zput_zrow_other t hz (fun r hr => ?_) hi
  obtain ⟨x, hx, rfl⟩ := List.mem_map.1 hr
  exact List.mem_range.1 (List.mem_filter.1 hx).1

theorem Machine.Team.unitDone_larder : (t.unitDone c slot k d lo).larder = t.larder := by
  simp only [Team.unitDone, Team.zcommit, Team.zput]

theorem Machine.Team.unitDone_zSteps : tget 0 (t.unitDone c slot k d lo).zSteps k.zd = tget 0 t.zSteps k.zd + 1 := by
  simp only [Team.unitDone, Team.zcommit, Team.zput, tget_tmod_same]

end

/-! ### The step -/

section
variable {s : State} {cl : Nat} {o : MatOp} {k : MmaOp}

/-- The format slot of a running operation. -/
def Machine.State.opSlot (s : State) (o : MatOp) (k : MmaOp) : List Byte :=
  sliceAt (s.grid (s.team (s.grp o.gid).tid).grid).slots (64 * k.slot) 64

/-- A unit that meets no stop, and is not the operation's last, is done and counted, and the operation stands at the next. -/
theorem Machine.State.sumUnit_goesOn (hz : (s.team (s.grp o.gid).tid).zStops k o.dep o.row o.col = [])
    (hc : (s.cluster cl).stopsAt (mshape (s.opSlot o k)) k o.dep o.row o.col ((s.grp o.gid).kind == .sequencer) = [])
    (hu : o.dep + 1 < (mshape (s.opSlot o k)).units) :
    s.sumUnit cl o k = (({ s with fresh := s.fresh + 1 } : State).setT (s.grp o.gid).tid fun t =>
      t.unitDone (s.cluster cl) (s.opSlot o k) k o.dep (128 * o.row + o.col)).setCl cl fun c =>
        { c with running := some { o with dep := o.dep + 1, row := 0, col := 0 } } := by
  unfold State.opSlot at *
  simp only [State.sumUnit]
  have hs : (({ s with fresh := s.fresh + 1 } : State).team (s.grp o.gid).tid) = s.team (s.grp o.gid).tid := rfl
  have hg : (({ s with fresh := s.fresh + 1 } : State).grp o.gid) = s.grp o.gid := rfl
  rw [hs, hg, hz, hc, List.append_nil]
  simp only [firstStopOf, hu, if_true]
  rfl

/-- MATRIX_SUM_UNIT of a unit that meets no stop and is not the last (07 R147). -/
theorem matrixSumUnit_goesOn (hcl : cl < 128) (hr : (s.cluster cl).running = some o) (hk : o.kind.mma? = some k)
    (hz : (s.team (s.grp o.gid).tid).zStops k o.dep o.row o.col = [])
    (hc : (s.cluster cl).stopsAt (mshape (s.opSlot o k)) k o.dep o.row o.col ((s.grp o.gid).kind == .sequencer) = [])
    (hu : o.dep + 1 < (mshape (s.opSlot o k)).units) :
    ∃ t, exec (.matrixSumUnit cl) s = .next t ∧
      t.cluster cl = { s.cluster cl with running := some { o with dep := o.dep + 1, row := 0, col := 0 } } ∧
      t.team (s.grp o.gid).tid = (s.team (s.grp o.gid).tid).unitDone (s.cluster cl) (s.opSlot o k) k o.dep (128 * o.row + o.col) ∧
      t.groups = s.groups ∧ MemoryKept s t := by
  have hex : exec (.matrixSumUnit cl) s = .next (s.sumUnit cl o k) := by
    show execMatrixSumUnit cl s = _
    rw [execMatrixSumUnit, if_neg (by omega), hr]
    simp only [hk]
  refine ⟨_, hex, ?_⟩
  rw [State.sumUnit_goesOn hz hc hu]
  have hmem : MemoryKept s { s with fresh := s.fresh + 1 } := s.numbers_memoryKept s.nextId (s.fresh + 1)
  refine ⟨State.setCl_cluster_same _ _ _, ?_, rfl,
    (hmem.trans (State.setT_memoryKept _ _ _ fun t => t.unitDone_larder _ _ _ _ _)).trans (State.setCl_memoryKept _ cl _ fun _ => rfl)⟩
  rw [State.setCl_team, State.setT_team_same]
  rfl

end

end Sys2Proof
end

section
/-! The traps of the array reach their agents (07 R150; 08 R159; 17 R331 to R334), and the obligation O31. -/
namespace Sys2Proof
open Machine

section
variable {s : State} {gid : Nat}

/-! ### Traps at home (17 R331 to R334) -/

/-- A class-U trap of a group at home, which has a vector and runs no handler, enters the handler. -/
theorem Machine.State.trapAt_enters {i : Issue} {t : Trap} (hg : (s.grp gid).guest = none) (hc : (s.grp gid).call = none)
    (hn : (s.grp gid).nests i.mask = false) (hf : t.freezes = false) (hu : userClass t.code = true) (hv : s.vector gid ≠ 0)
    (hh : (s.grp gid).handler = 0) : s.trapAt gid i t = s.enterHandler gid i t := by
  simp [State.trapAt, Group.isGuest, hg, hc, hn, hf, hu, hv, hh]

/-- A class-D trap of a group at home that runs no handler holds it. -/
theorem Machine.State.trapAt_holds {i : Issue} {t : Trap} (hg : (s.grp gid).guest = none) (hc : (s.grp gid).call = none)
    (hn : (s.grp gid).nests i.mask = false) (hf : t.freezes = false) (hu : userClass t.code = false) :
    s.trapAt gid i t = s.holdTrap gid i t false := by
  simp [State.trapAt, Group.isGuest, hg, hc, hn, hf, hu]

/-- The trap registers of a sequencer context that takes a trap (17 R333; 18 Table 18.1). -/
def Machine.SeqState.trapped (q : SeqState) (i : Issue) (t : Trap) : SeqState :=
  { q with
    stpc := i.pc, stnext := i.npc, stcode := w32 (t.code + 256 * i.parcels.length + 65536 * trapFlags false i), stdetail := BitVec.ofNat 64 t.detail,
    staddr := BitVec.ofNat 64 t.addr, stparc := BitVec.ofNat 96 (leNat (parcelBytes i.parcels)), inHandler := true }

/-- A sequencer context enters its handler: its trap registers are set, and its fibre stands at STVEC. -/
theorem Machine.State.enterHandler_sequencer {i : Issue} {t : Trap} (hk : (s.grp gid).kind = .sequencer) : s.enterHandler gid i t =
    s.setG gid fun g => ({ g with seq := g.seq.trapped i t }).setF 0 fun f => { f with pc := g.seq.stvec, wait := .none } := by
  rw [State.enterHandler, hk]
  rfl

/-- A class-U trap of a sequencer context that runs no handler and has a vector. -/
theorem Machine.State.trapAt_sequencer {i : Issue} {t : Trap} (hk : (s.grp gid).kind = .sequencer) (hg : (s.grp gid).guest = none)
    (hc : (s.grp gid).call = none) (hi : (s.grp gid).seq.inHandler = false) (hh : (s.grp gid).handler = 0) (hv : (s.grp gid).seq.stvec ≠ 0)
    (hf : t.freezes = false) (hu : userClass t.code = true) : s.trapAt gid i t =
      s.setG gid fun g => ({ g with seq := g.seq.trapped i t }).setF 0 fun f => { f with pc := g.seq.stvec, wait := .none } := by
  have hvec : s.vector gid = (s.grp gid).seq.stvec.toNat := by rw [State.vector, hk]
  have hnest : (s.grp gid).nests i.mask = false := by rw [Group.nests, hk]; exact hi
  rw [← State.enterHandler_sequencer hk]
  refine State.trapAt_enters hg hc hnest hf hu (fun h => hv ?_) hh
  exact BitVec.eq_of_toNat_eq (hvec.symm.trans h)

theorem Machine.Group.setF_fib_same (g : Group) (l : Nat) (f : Fibre → Fibre) : (g.setF l f).fib l = f (g.fib l) := tget_tmod_same _ _ _ _

theorem Machine.SeqState.trapped_stcode (q : SeqState) (i : Issue) (t : Trap) : (q.trapped i t).stcode.toNat % 256 = t.code % 256 := by
  show (BitVec.ofNat 32 (t.code + 256 * i.parcels.length + 65536 * trapFlags false i)).toNat % 256 = _
  rw [BitVec.toNat_ofNat]
  omega

/-- A held group keeps its fibres and registers: its hold alone differs (17 R331). -/
theorem Machine.State.holdTrap_grp (s : State) (gid : Nat) (i : Issue) (t : Trap) (n : Bool) :
    (s.holdTrap gid i t n).grp gid = { s.grp gid with hold := some (.trap t i n) } := by
  rw [State.holdTrap, State.grp, (State.postHeld_onPath _ _).path.groups]
  exact State.setG_grp_same _ _ _

/-! ### The stop of a context's operation (07 R150) -/

theorem Machine.State.nextBatch_single {l : Nat} (h : (s.grp gid).liveLanes = [l]) : (s.nextBatch gid).2 = ((s.grp gid).fib l).pc := by
  simp [State.nextBatch, h, minOf]

theorem Machine.State.trapReaches_home (hcur : s.cur.gid ≠ gid) (hstop : s.stopped gid = false)
    (hres : (s.team (s.grp gid).tid).phase = .resident) : s.trapReaches gid = true := by
  simp [State.trapReaches, hcur, hstop, hres]

/-- A context whose trap of the array is taken. -/
def Machine.Group.dueTaken (g : Group) : Group := { g with seq := { g.seq with due := none } }

/-- The agent's instruction boundary at which a trap of the array is taken. -/
def Machine.State.boundary (s : State) (gid : Nat) : Issue :=
  { gid := gid, mask := (s.nextBatch gid).1, pc := (s.nextBatch gid).2, npc := (s.nextBatch gid).2 }

theorem exec_sequencerStopTrap {code detail addr : Nat} (hdue : (s.grp gid).seq.due = some (code, detail, addr)) (hreach : s.trapReaches gid = true) :
    exec (.sequencerStopTrap gid) s = .next ((s.setG gid Group.dueTaken).trapAt gid (s.boundary gid)
      { code := code, detail := detail, addr := addr }) := by
  show execSequencerStopTrap gid s = _
  simp only [execSequencerStopTrap, hdue, hreach, Bool.not_true, Bool.false_eq_true, if_false]
  rfl

theorem exec_matrixPoisonTrap {detail addr : Nat} (hdue : (s.grp gid).poisonDue = some (detail, addr)) (hreach : s.trapReaches gid = true)
    (hm : (s.nextBatch gid).1 ≠ 0) :
    exec (.matrixPoisonTrap gid) s = .next ((s.setG gid fun g => { g with poisonDue := none }).trapAt gid (s.boundary gid)
      { code := tPOISON, detail := detail, addr := addr }) := by
  show execMatrixPoisonTrap gid s = _
  simp only [execMatrixPoisonTrap, hdue, hreach, hm, Bool.not_true, Bool.false_or, decide_false, Bool.false_eq_true, if_false]
  rfl

/-- SEQUENCER_STOP_TRAP of a context that runs no handler: it enters its handler at the boundary (07 R150; 17 R333). -/
theorem sequencerStopTrap_enters {code detail addr : Nat} (hk : (s.grp gid).kind = .sequencer) (hg : (s.grp gid).guest = none)
    (hc : (s.grp gid).call = none) (hi : (s.grp gid).seq.inHandler = false) (hh : (s.grp gid).handler = 0) (hv : (s.grp gid).seq.stvec ≠ 0)
    (hreach : s.trapReaches gid = true) (hu : userClass code = true) (hdue : (s.grp gid).seq.due = some (code, detail, addr)) :
    ∃ t, exec (.sequencerStopTrap gid) s = .next t ∧ MemoryKept s t ∧
      t.grp gid = ({ s.grp gid with seq := (s.grp gid).dueTaken.seq.trapped (s.boundary gid) { code := code, detail := detail, addr := addr } }).setF 0
        fun f => { f with pc := (s.grp gid).seq.stvec, wait := .none } := by
  have hug : (s.setG gid Group.dueTaken).grp gid = (s.grp gid).dueTaken := State.setG_grp_same _ _ _
  have htrap := State.trapAt_sequencer (s := s.setG gid Group.dueTaken) (i := s.boundary gid) (t := { code := code, detail := detail, addr := addr })
    (by rw [hug]; exact hk) (by rw [hug]; exact hg) (by rw [hug]; exact hc) (by rw [hug]; exact hi) (by rw [hug]; exact hh)
    (by rw [hug]; exact hv) rfl hu
  refine ⟨_, exec_sequencerStopTrap hdue hreach, ?_⟩
  rw [htrap]
  refine ⟨(s.setG_memoryKept gid _).trans (State.setG_memoryKept _ gid _), ?_⟩
  rw [State.setG_grp_same, hug]
  rfl

/-! ### Poison in a group's operation (08 R159) -/

/-- MATRIX_POISON_TRAP of a group that runs no handler: it is held with POISON at its next instruction boundary (08 R159; 17 R331). -/
theorem matrixPoisonTrap_holds {detail addr : Nat} (hk : (s.grp gid).kind = .core) (hg : (s.grp gid).guest = none) (hc : (s.grp gid).call = none)
    (hh : (s.grp gid).handler = 0) (hreach : s.trapReaches gid = true) (hm : (s.nextBatch gid).1 ≠ 0)
    (hdue : (s.grp gid).poisonDue = some (detail, addr)) :
    ∃ t, exec (.matrixPoisonTrap gid) s = .next t ∧
      t.grp gid = { s.grp gid with poisonDue := none, hold := some (.trap { code := tPOISON, detail := detail, addr := addr } (s.boundary gid) false) } := by
  refine ⟨_, exec_matrixPoisonTrap hdue hreach hm, ?_⟩
  generalize hs1 : (s.setG gid fun g => { g with poisonDue := none }) = u
  have hug : u.grp gid = { s.grp gid with poisonDue := none } := by rw [← hs1, State.setG_grp_same]
  have hnest : (u.grp gid).nests (s.boundary gid).mask = false := by
    rw [hug, Group.nests]
    simp only [hk, hh, Nat.zero_and]
    rfl
  rw [State.trapAt_holds (by rw [hug]; exact hg) (by rw [hug]; exact hc) hnest rfl (show userClass tPOISON = false by decide), State.holdTrap_grp, hug]

end

/-- Settles O31: an operation begun, a sum unit done, bins zeroed, a queue's entries freed, and the array's traps of a context and of a group. -/
theorem arrayEvents : Obligations.ArrayEvents := by
  unfold Obligations.ArrayEvents
  intro s cl gid hcl
  refine ⟨fun o minor slot a b zd hr hn hk hz => matrixOpAccept_begins hcl hr hn hk hz, fun o k hr hk => ?_,
    fun o f k hr hn hk _ => ?_, fun tid q ht hops hrun hsaved => ⟨_, queueEntryTakeable_frees q ht hops hrun hsaved, ?_, fun n hn => ?_, rfl, ?_⟩,
    fun detail addr hk hg hc hi hh hv hcur hstop hres hlive hdue => ?_,
    fun detail addr hk hg hc hh hcur hstop hres hm hdue => ?_⟩
  · intro tid slot m c hz hc hu
    obtain ⟨t, hex, hown, hteam, hgroups, hmem⟩ := matrixSumUnit_goesOn hcl hr hk hz hc hu
    refine ⟨t, hex, hown, ?_, fun i j hi hj => ?_, fun z i hz hi => ?_, hgroups, hmem⟩
    · rw [hteam]; exact Team.unitDone_zSteps _ _ _ _ _ _
    · rw [hteam]; exact Team.unitDone_same _ _ _ _ _ _ hi hj
    · rw [hteam]; exact Team.unitDone_other _ _ _ _ _ _ hz hi
  · obtain ⟨t, hex, hown, hgrp, hothers, hteams⟩ := binZeroing_zeroes hcl hr hn hk
    exact ⟨t, hex, fun x => by rw [hown, Cluster.binZero_read]; rfl, by rw [hown]; rfl, hgrp, hothers, hteams⟩
  · rw [State.setT_team_same]; exact tget_tput_same _ _ _ _
  · rw [State.setT_team_same]; exact tget_tput_other _ _ _ _ _ hn
  · exact State.setT_memoryKept s tid _ fun _ => rfl
  · obtain ⟨t, hex, hmem, hgrp⟩ := sequencerStopTrap_enters hk hg hc hi hh hv (State.trapReaches_home hcur hstop hres) (by decide) hdue
    refine ⟨t, hex, ?_⟩
    rw [hgrp]
    exact ⟨rfl, rfl, by rw [Group.setF_fib_same], State.nextBatch_single hlive, rfl, rfl, SeqState.trapped_stcode _ _ _, rfl, hmem⟩
  · obtain ⟨t, hex, hgrp⟩ := matrixPoisonTrap_holds hk hg hc hh (State.trapReaches_home hcur hstop hres) hm hdue
    refine ⟨t, s.boundary gid, hex, ?_⟩
    rw [hgrp]
    exact ⟨rfl, rfl, rfl, rfl, fun _ => rfl, rfl⟩

end Sys2Proof
end

section
/-! Bins claimed, released and read (08 R154, R155): the obligation O25. -/
namespace Sys2Proof
open Machine

section
variable {s : State} {k : Fld3} {a b : Reg} {e : Bool} {n : Nat}

theorem Machine.checkArg_ok {p : Prop} [Decidable p] (h : p) : checkArg (decide p) = .ok () := by rw [decide_eq_true h]; rfl

/-- BCLM and BCLMT of a count within the quota claim the lowest free run, and give its first bin (08 R155). -/
theorem bclm_claims (hr : Ready s avHomeSeq [sref a]) (hq : k.toNat + 1 ≤ s.tm.binQuota) (hf : s.tm.freeRun (k.toNat + 1) = some n) :
    Goes (.bclm k a e) s ((s.modT fun t => t.claim n (k.toNat + 1)).writeS a [w32 n]) ∧
      Goes (.bclmt k a e) s ((s.modT fun t => t.claim n (k.toNat + 1)).writeS a [w32 n]) := by
  exact ⟨done_of_retire rfl (hr.run e (by rw [checkArg_ok hq, hf])), done_of_retire rfl (hr.run e (by rw [checkArg_ok hq, hf]))⟩

/-- BCLMT where no run is free writes all ones (08 R155). -/
theorem bclmt_fails (hr : Ready s avHomeSeq [sref a]) (hq : k.toNat + 1 ≤ s.tm.binQuota) (hf : s.tm.freeRun (k.toNat + 1) = none) :
    ∃ t, exec (.bclmt k a e) s = .next t ∧ ScalarDone s t a [0xFFFFFFFF] := by
  obtain ⟨t, ht, hd⟩ := writeS_done (d := a) (ws := [0xFFFFFFFF]) hr e
  refine ⟨t, ?_, hd⟩
  rw [← ht, hr.runOk]
  exact hr.run e (by rw [checkArg_ok hq, hf])

/-- Bins that are all the team's pass their check (08 R154). -/
theorem Machine.State.checkBins_ok {bs : List Nat} (h : ∀ b ∈ bs, s.tm.owns b = true) : s.checkBins bs = .ok () := by
  have hf : (bs.find? fun b => !s.tm.owns b) = none := List.find?_eq_none.2 fun b hb => by simp [h b hb]
  rw [State.checkBins, hf]

theorem Machine.State.checkCtr_tl (h : s.g.tl < 63) : s.checkCtr .tl = .ok () := if_pos h

/-- BREL of bins that are the team's unclaims them, and issues their release to the array (08 R155). -/
theorem brel_releases (hr : Ready s avHomeSeq [sref b]) (htl : s.g.tl < 63) (hheld : s.checkHeld = .ok ())
    (hown : ∀ n, n < k.toNat + 1 → s.tm.owns ((s.g.sreg b.toNat).toNat + n) = true) :
    let f := (s.g.sreg b.toNat).toNat
    Goes (.brel k b e) s
      ((s.modT fun t => { t with claimed := t.claimed.filter fun x => !decide (f ≤ x ∧ x < f + (k.toNat + 1)) }).issueOp (.release f (k.toNat + 1))) := by
  have hbins : s.checkBins ((List.range (k.toNat + 1)).map ((s.g.sreg b.toNat).toNat + ·)) = .ok () :=
    State.checkBins_ok (List.forall_mem_map.2 fun n hn => hown n (List.mem_range.1 hn))
  refine done_of_retire rfl (hr.run e ?_)
  simp only [Group.binOf, hbins, State.checkCtr_tl htl, hheld, firstErr]
  rfl

/-- What BSTAT's field chooses: the range and the number of claims, or 32 bins of the range as claimed or not (08 R155). -/
theorem Machine.Team.binStat_eq (t : Team) (n : Fld3) : t.binStat n.toNat =
    if n = 0 then w32 (t.binBase + 256 * t.binQuota + 65536 * t.claimed.length)
    else w32 (maskOf ((List.range 32).filter fun j => t.owns (t.binBase + 32 * (n.toNat - 1) + j))) :=
  if_congr (by rw [← BitVec.toNat_inj]; rfl) rfl rfl

end

/-- Settles O25: each instruction passes its checks, and makes its change of the claims or reads them. -/
theorem binInstructions : Obligations.BinInstructions := by
  unfold Obligations.BinInstructions
  intro s k a b e
  exact ⟨fun n hr hq hf => bclm_claims hr hq hf, fun hr hq hf => bclmt_fails hr hq hf, fun hr htl hheld hown => brel_releases hr htl hheld hown,
    fun n hr => s.tm.binStat_eq n ▸ writeS_done hr e⟩

end Sys2Proof
end

section
/-! Fills, and operations on accumulators, issued to the array (08 R155, R160): the obligation O27. -/
namespace Sys2Proof
open Machine

section
variable {s : State} {b : Fld3} {a o : Reg} {e : Bool}

/-- An instruction whose body is the issue of an operation issues it to the array. -/
theorem arrayIssued_of_run {i : Instr} {av : Avail} {rs : List Ref} {body : Except Stop State} {m : MatKind} (hr : Ready s av rs)
    (hx : exec i s = s.run av rs e body) (hb : body = .ok (s.issueOp m)) : ∃ t, exec i s = .next t ∧ ArrayIssued s t m :=
  ⟨_, hx.trans (hr.run e hb), .of_movedOn (State.retire_movedOn _ e)⟩

/-- BFILLT carries its tile in the layout that it names, at an offset in steps of 32 bytes from which the tile fits in the bin (08 R155). -/
theorem bfillt_issues {rows : Bool} (hr : Ready s avHome [sref a, sref o, tref b]) (htl : s.g.tl < 63)
    (hown : s.tm.owns (s.g.sreg a.toNat).toNat = true) (hoff : (s.g.sreg o.toNat).toNat % 32 = 0)
    (hfit : (s.g.sreg o.toNat).toNat + (if rows then 256 * 31 + 32 else 1024) ≤ 32768) :
    ∃ t, exec (.bfillt rows b o a e) s = .next t ∧
      ArrayIssued s t (.fill (s.g.sreg a.toNat).toNat (fillPieces rows (s.g.sreg o.toNat).toNat (s.g.tile b.toNat))) := by
  have hbins : s.checkBins [(s.g.sreg a.toNat).toNat] = .ok () := State.checkBins_ok fun x hx => by rw [List.mem_singleton.1 hx]; exact hown
  refine arrayIssued_of_run hr rfl ?_
  simp only [Group.binOf, hbins, checkArg, hoff, hfit, decide_true, Bool.and_self, if_true, State.checkCtr_tl htl, firstErr]

/-- ZST of an accumulator to bins that are the team's: two as it stands, or one converted (08 R160). -/
theorem zst_issues {m : ZstMode} (hr : Ready s avHomeSeq [sref a, zref b]) (htl : s.g.tl < 63) (hheld : s.checkHeld = .ok ())
    (hown : ∀ x ∈ if m = .raw then [(s.g.sreg a.toNat).toNat, (s.g.sreg a.toNat).toNat + 1] else [(s.g.sreg a.toNat).toNat], s.tm.owns x = true) :
    ∃ t, exec (.zst m b a e) s = .next t ∧ ArrayIssued s t (.zst (zstCode m) b.toNat (s.g.sreg a.toNat).toNat) := by
  refine arrayIssued_of_run hr rfl ?_
  simp only [Group.binOf, State.checkBins_ok hown, State.checkCtr_tl htl, hheld, firstErr]

/-- ZLD of two bins that are the team's and stand without poison (08 R160). -/
theorem zld_issues (hr : Ready s avHomeSeq [sref a, zref b]) (htl : s.g.tl < 63) (hheld : s.checkHeld = .ok ())
    (hown : ∀ x ∈ [(s.g.sreg a.toNat).toNat, (s.g.sreg a.toNat).toNat + 1], s.tm.owns x = true)
    (hclean : zldBad (s.cluster s.g.cluster) (s.g.sreg a.toNat).toNat = none) :
    ∃ t, exec (.zld b a e) s = .next t ∧ ArrayIssued s t (.zld b.toNat (s.g.sreg a.toNat).toNat) := by
  refine arrayIssued_of_run hr rfl ?_
  simp only [Group.binOf, State.checkBins_ok hown, State.checkCtr_tl htl, hheld, firstErr, hclean, ite_self]

theorem zclr_issues (hr : Ready s avHomeSeq [zref b]) (htl : s.g.tl < 63) (hheld : s.checkHeld = .ok ()) :
    ∃ t, exec (.zclr b e) s = .next t ∧ ArrayIssued s t (.zclr b.toNat) := by
  refine arrayIssued_of_run hr rfl ?_
  simp only [State.checkCtr_tl htl, hheld, firstErr]

end

/-- Settles O27: each instruction's checks pass, and its operation is issued. -/
theorem arrayTransfersIssue : Obligations.ArrayTransfersIssue := by
  unfold Obligations.ArrayTransfersIssue
  intro s b a o e htl hheld bin off
  have one (h : s.tm.owns bin = true) : ∀ x ∈ [bin], s.tm.owns x = true := List.forall_mem_singleton.2 h
  have two (h : s.tm.owns bin = true) (h' : s.tm.owns (bin + 1) = true) : ∀ x ∈ [bin, bin + 1], s.tm.owns x = true :=
    List.forall_mem_cons.2 ⟨h, List.forall_mem_singleton.2 h'⟩
  exact ⟨fun hr hown hoff => ⟨fun hfit => bfillt_issues hr htl hown hoff hfit, fun hfit => bfillt_issues hr htl hown hoff hfit⟩,
    fun hr => ⟨fun h h' => ⟨zst_issues hr htl hheld (two h h'), zld_issues hr htl hheld (two h h')⟩,
      fun h => zst_issues hr htl hheld (one h), fun h => zst_issues hr htl hheld (one h)⟩,
    fun hr => zclr_issues hr htl hheld⟩

end Sys2Proof
end

section
/-! Accumulators read, and operations saved and resumed (08 R160, R161; 22 R376): the obligation O28. -/
namespace Sys2Proof
open Machine

/-! ### A return begun by an instruction that then moves on (02 R43) -/

theorem Machine.Group.begin_eq (g : Group) {r : Return} {c : Ctr} (hc : r.ctr = some c) :
    g.begin r = { g.setCtr c (· + 1) with returns := g.returns ++ [r] } := by
  rw [Group.begin, hc]
  cases c <;> rfl

section
variable {s t : State} {r : Return} {c : Ctr} {id : Nat} (hc : r.ctr = some c)
  (h : MovedOn (({ s with nextId := id } : State).modG fun g => g.begin r) t fun _ => s.cur.npc)
include hc h

theorem MovedOn.begin_group : { t.grp s.cur.gid with fibres := s.g.fibres, ages := s.g.ages, readySince := s.g.readySince } =
    { s.g.setCtr c (· + 1) with returns := s.g.returns ++ [r] } := by
  have hg : (({ s with nextId := id } : State).modG fun g => g.begin r).g = { s.g.setCtr c (· + 1) with returns := s.g.returns ++ [r] } :=
    (State.setG_grp_same _ _ _).trans (s.g.begin_eq hc)
  have hown := h.own
  rw [hg] at hown
  cases c <;> exact hown

theorem MovedOn.begin_fib (l : Nat) : (t.grp s.cur.gid).fib l =
    if l ∈ s.batch then { s.g.fib l with pc := s.cur.npc, wait := .none, refused := none, fellBack := false } else s.g.fib l := by
  have hg : (({ s with nextId := id } : State).modG fun g => g.begin r).g = { s.g.setCtr c (· + 1) with returns := s.g.returns ++ [r] } :=
    (State.setG_grp_same _ _ _).trans (s.g.begin_eq hc)
  have hst := h.stands l
  rw [State.batch, hg] at hst
  cases c <;> exact hst

/-- A group that begins a return, and whose batch then moves on, has it under way and counts it. -/
theorem Begun.of_movedOn : Begun s t c r [] := by
  have hg := h.begin_group hc
  have hfib := h.begin_fib hc
  have hmem : MemoryKept s t := (s.numbers_memoryKept id s.fresh).trans
    (.of_groups (congrArg (fun u : State => { u with groups := s.groups }) h.rest :))
  refine ⟨?_, hc, fun k => ?_, ?_, ?_, fun l => ?_, fun l i => ?_, fun k hk => ?_, hmem, h.ended⟩
  · exact (congrArg Group.returns hg :)
  · have hk := congrArg (fun g => Group.ctr g k) hg
    cases c <;> cases k <;> exact hk
  · have hs := congrArg Group.stores hg
    cases c <;> exact hs.trans (List.append_nil _).symm
  · have hk := congrArg (fun g : Group => { g with returns := s.g.returns, stores := s.g.stores, ld := s.g.ld, st := s.g.st, cp := s.g.cp, tl := s.g.tl }) hg
    cases c <;> exact hk
  · rw [hfib]; split <;> rfl
  · rw [Group.pbit, hfib]; split <;> rfl
  · exact (h.others k hk).trans (State.setG_grp_other _ _ _ _ hk)

end

section
variable {s : State} {a : Reg} {e : Bool}

/-! ### Reading (08 R160, R161) -/

/-- A lane's part of ZRD's return: its elements of the row with their poison and, in the lowest lane, the unit count (08 R160). -/
def zrdLane (s : State) (c : Reg) (b : Fld3) (a : Reg) (n l : Nat) : LaneRet :=
  let i := (s.g.sreg c.toNat).toNat % 128
  { lane := l, ready := true, dst := s.g.phys l a,
    ws := ((List.range n).map fun q => RegWrite.v l (s.g.phys l a + q)
        { val := (s.tm.zdone b.toNat i).getD (n * l + q) 0, pois := s.tm.zbad b.toNat i (n * l + q) }) ++
      (if l = s.lane0 then [.s (c.toNat + 1) (tget 0 s.tm.zSteps b.toNat)] else []) }

/-- ZRD's return (08 R160). -/
def zrdReturn (s : State) (c : Reg) (b : Fld3) (a : Reg) (n : Nat) : Return :=
  { id := s.nextId, kind := .matrix, ctr := some .tl, issue := s.cur, lanes := s.batch.map (zrdLane s c b a n),
    regs := s.destRegs a n ++ [{ cls := 1, idx := c.toNat + 1 }] }

/-- ZRD begins its return: what it reads stands in it (08 R160). -/
theorem zrd_begins {c : Reg} {b : Fld3} {n : Nat} (hn : n = if s.g.width = 64 then 2 else 4) (hr : Ready s avHome [sref c 2, zref b, vdst a n])
    (htl : s.g.tl < 63) : ∃ t, exec (.zrd c b a e) s = .next t ∧ Begun s t .tl (zrdReturn s c b a n) [] := by
  subst hn
  refine ⟨_, hr.run e (t := ({ s with nextId := s.nextId + 1 } : State).modG fun g => g.begin (zrdReturn s c b a _)) ?_,
    .of_movedOn rfl (State.retire_movedOn _ e)⟩
  rw [State.checkCtr_tl htl]
  rfl

theorem mem_zrdLane_v (s : State) (c : Reg) (b : Fld3) (a : Reg) {n q : Nat} (hq : q < n) (l : Nat) :
    let i := (s.g.sreg c.toNat).toNat % 128
    RegWrite.v l (s.g.phys l a + q) { val := (s.tm.zdone b.toNat i).getD (n * l + q) 0, pois := s.tm.zbad b.toNat i (n * l + q) } ∈
      (zrdLane s c b a n l).ws :=
  List.mem_append_left _ (List.mem_map.2 ⟨q, List.mem_range.2 hq, rfl⟩)

theorem mem_zrdLane_s (s : State) (c : Reg) (b : Fld3) (a : Reg) (n : Nat) :
    RegWrite.s (c.toNat + 1) (tget 0 s.tm.zSteps b.toNat) ∈ (zrdLane s c b a n s.lane0).ws :=
  List.mem_append_right _ (by rw [if_pos rfl]; exact List.mem_singleton_self _)

/-- MSTAT says whether an operation is stopped, whether some are open, and how many (08 R161). -/
theorem mstat_writes (hr : Ready s avHomeSeq [sref a]) : ∃ t, exec (.mstat a e) s = .next t ∧ ScalarDone s t a
    [w32 (b2n s.g.seq.stopped.isSome + 2 * b2n (!(s.agentOps s.cur.gid).isEmpty) + 256 * min 255 (s.agentOps s.cur.gid).length)] := by
  have hsome : (!(s.agentOps s.cur.gid).isEmpty) = decide ((s.agentOps s.cur.gid).length ≠ 0) := by
    cases s.agentOps s.cur.gid <;> simp
  rw [hsome]
  exact writeS_done hr e

theorem Machine.State.saveWords_none (h : s.g.seq.stopped = none) : s.saveWords = [0, 0, 0, 0] := by rw [State.saveWords, h]

theorem Machine.MatOp.tile?_mma {o : MatOp} {k : MmaOp} (h : o.kind.mma? = some k) : o.tile? = some k.zd := by
  unfold MatOp.tile?
  cases hk : o.kind with
  | mma minor slot a b zd => rw [hk] at h; cases h; rfl
  | fill | release | zst | zld | zclr => rw [hk] at h; cases h

theorem Machine.State.saveWords_some {o : MatOp} {k : MmaOp} (h : s.g.seq.stopped = some o) (hk : o.kind.mma? = some k) : s.saveWords =
    [w32 (2 ^ 31 + 2 ^ 21 * k.zd + 2 ^ 16 * o.dep + 256 * o.col + o.row), w32 o.pc.toNat, w32 (o.pc.toNat / 2 ^ 32),
      w32 (min 255 (s.heldOps s.cur.gid).length)] := by
  rw [State.saveWords, h]
  simp only [MatOp.tile?_mma hk, Option.getD_some]

/-! ### Resuming (08 R161; 22 R376) -/

/-- An operation re-entered at a step, by the instruction that its registers name (08 R161). -/
def Machine.MatOp.entered (q : MatOp) (o : MmaOp) (dep row col : Nat) (mop : Dword) (pinned : Bool) : MatOp :=
  { q with kind := .mma o.minor o.slot o.a o.b o.zd, pc := mop, dep := dep, row := row, col := col, pinned := pinned }

/-- The operations of a cluster, the re-entered one in front of those that were held behind it (22 R376). -/
def resumedOps (ops held : List MatOp) (q : MatOp) : List MatOp :=
  ops.filter (fun x => !held.contains x) ++ q :: held.map fun x => { x with pinned := x.pinned || x.tile?.isSome }

/-- The state in which a stopped operation has been re-entered as q, and its context is stopped no more (22 R376). -/
def Machine.State.resumed (s : State) (q : MatOp) : State :=
  let held := (s.cluster s.g.cluster).ops.filter fun x => x.gid == s.cur.gid && s.heldBack (s.cluster s.g.cluster) x
  (s.setCl s.g.cluster fun c => { c with ops := resumedOps c.ops held q }).modG fun g => { g with seq := { g.seq with stopped := none } }

/-- The state in which an operation has been issued at a step (08 R161). -/
def Machine.State.issuedAt (s : State) (o : MmaOp) (dep row col : Nat) (mop : Dword) : State :=
  let u := s.issueOp (.mma o.minor o.slot o.a o.b o.zd)
  u.setCl u.g.cluster fun c => { c with ops := c.ops.dropLast ++ c.ops.getLast?.toList.map fun q => q.entered o dep row col mop false }

theorem MovedOn.cluster {u t : State} {pc : Nat → Dword} (h : MovedOn u t pc) (n : Nat) : t.cluster n = u.cluster n :=
  (congrArg (fun u : State => u.cluster n) h.rest :)

theorem MovedOn.memoryKept {u t : State} {pc : Nat → Dword} (h : MovedOn u t pc) : MemoryKept u t := .of_groups h.rest

theorem Machine.State.resumed_g (s : State) (q : MatOp) : (s.resumed q).g = { s.g with seq := { s.g.seq with stopped := none } } :=
  State.setG_grp_same _ _ _

theorem Machine.State.resumed_ops (s : State) (q : MatOp) : ((s.resumed q).cluster s.g.cluster).ops =
    resumedOps (s.cluster s.g.cluster).ops
      ((s.cluster s.g.cluster).ops.filter fun x => x.gid == s.cur.gid && s.heldBack (s.cluster s.g.cluster) x) q := by
  rw [State.resumed, State.modG, State.setG_cluster, State.setCl_cluster_same]

theorem Machine.State.resumed_memoryKept (s : State) (q : MatOp) : MemoryKept s (s.resumed q) :=
  (s.setCl_memoryKept _ _ fun _ => by exact rfl).trans (State.setG_memoryKept _ _ _)

variable {o : MmaOp} {dep row col : Nat} {mop : Dword}

theorem Machine.State.issuedAt_g : (s.issuedAt o dep row col mop).g = { s.g with returns := s.g.returns ++ [s.arrayReturn], tl := s.g.tl + 1 } := by
  rw [State.issuedAt, State.issueOp_eq]
  exact s.arrayBegun_g

/-- The operation stands behind the cluster's others, at its step. -/
theorem Machine.State.issuedAt_ops : ((s.issuedAt o dep row col mop).cluster s.g.cluster).ops = (s.cluster s.g.cluster).ops ++
    [(s.arrayOp (.mma o.minor o.slot o.a o.b o.zd)).entered o dep row col mop false] := by
  have hc : (s.arrayBegun.setCl s.g.cluster fun c => { c with ops := c.ops ++ [s.arrayOp (.mma o.minor o.slot o.a o.b o.zd)] }).g.cluster =
      s.g.cluster := (congrArg Group.cluster s.arrayBegun_g :)
  have hb : s.arrayBegun.cluster s.g.cluster = s.cluster s.g.cluster := rfl
  rw [State.issuedAt, State.issueOp_eq]
  simp only [hc, State.setCl_cluster_same, hb, List.dropLast_concat, List.getLast?_concat, Option.toList_some, List.map_cons, List.map_nil]

theorem Machine.State.issuedAt_memoryKept : MemoryKept s (s.issuedAt o dep row col mop) := by
  have hissue : MemoryKept s (s.issueOp (.mma o.minor o.slot o.a o.b o.zd)) := by
    rw [State.issueOp_eq]
    exact ((s.numbers_memoryKept (s.nextId + 2) s.fresh).trans (State.setG_memoryKept _ _ _)).trans (State.setCl_memoryKept _ _ _ fun _ => by exact rfl)
  exact hissue.trans (State.setCl_memoryKept _ _ _ fun _ => by exact rfl)

/-- MRES of a stopped operation re-enters it (08 R161; 22 R376). -/
theorem mres_resumes {q : MatOp} (hr : Ready s avSeq [sref a 4]) (hs : s.g.seq.stopped = some q) (hop : s.mresOp a = .ok (o, dep, row, col, mop)) :
    exec (.mres a e) s = .next ((s.resumed (q.entered o dep row col mop true)).retire e) := by
  refine hr.run e ?_
  simp only [hs, hop, Option.isSome_some, if_true, firstErr]
  rfl

/-- MRES where no operation is stopped issues its operation anew (08 R161). -/
theorem mres_issues (hr : Ready s avSeq [sref a 4]) (hs : s.g.seq.stopped = none) (htl : s.g.tl < 63) (hheld : s.checkHeld = .ok ())
    (hop : s.mresOp a = .ok (o, dep, row, col, mop)) : exec (.mres a e) s = .next ((s.issuedAt o dep row col mop).retire e) := by
  refine hr.run e ?_
  simp only [hs, hop, State.checkCtr_tl htl, hheld, Option.isSome_none, Bool.false_eq_true, if_false, firstErr]
  rfl

end

/-- Settles O28: ZRD's return is begun with what it reads, MSTAT and MSAVE write their words, and MRES re-enters its operation. -/
theorem accumulatorReadsAndResumes : Obligations.AccumulatorReadsAndResumes := by
  unfold Obligations.AccumulatorReadsAndResumes
  intro s e
  refine ⟨?_, fun a hr => mstat_writes hr, fun a hr hs => s.saveWords_none hs ▸ writeS_done hr e,
    fun a o k hr hs hk => State.saveWords_some hs hk ▸ writeS_done hr e, ?_, ?_⟩
  · intro c b a n i hr htl
    obtain ⟨t, hex, hbegun⟩ := zrd_begins (e := e) rfl hr htl
    refine ⟨t, _, hex, hbegun, rfl, fun l hl => ⟨_, List.mem_map_of_mem hl, rfl, rfl, fun q hq => mem_zrdLane_v s c b a hq l, ?_⟩⟩
    rintro rfl
    exact mem_zrdLane_s s c b a n
  · intro a q o dep row col mop hr hs hop c held
    have h := (s.resumed (q.entered o dep row col mop true)).retire_movedOn e
    have hown := h.own
    rw [s.resumed_g] at hown
    exact ⟨_, q.entered o dep row col mop true, mres_resumes hr hs hop, (congrArg (fun g => g.seq.stopped) hown :), rfl, rfl, rfl, rfl, rfl, rfl, rfl,
      (congrArg Cluster.ops (h.cluster _)).trans (s.resumed_ops _), (congrArg Group.sregs hown :), (s.resumed_memoryKept _).trans h.memoryKept⟩
  · intro a o dep row col mop hr hs htl hheld hop
    have h := (s.issuedAt o dep row col mop).retire_movedOn e
    have hown := h.own
    rw [s.issuedAt_g] at hown
    exact ⟨_, _, mres_issues hr hs htl hheld hop, (congrArg Cluster.ops (h.cluster _)).trans s.issuedAt_ops, rfl, rfl, rfl, rfl, rfl, rfl,
      (congrArg Group.tl hown :), (congrArg Group.sregs hown :), s.issuedAt_memoryKept.trans h.memoryKept⟩

end Sys2Proof
end

section
/-! Moves and transposition of tiles (08 R153): the obligation O23. -/
namespace Sys2Proof
open Machine

/-! ### Tiles written row by row (02 R31) -/

theorem Machine.Group.tsetRow_trow (g : Group) {t r i q : Nat} (bs : List Byte) (hr : r < 32) (hq : q < 32) :
    (g.tsetRow t r bs).trow i q = if i = t ∧ q = r then bs else g.trow i q := by
  rw [Group.trow, Group.tsetRow, tget_tput]
  exact if_congr (by omega) rfl rfl

/-- A row of a tile written, where there are bytes for it. -/
def Machine.Group.tsetRow? (g : Group) (t r : Nat) : Option (List Byte) → Group
  | some bs => g.tsetRow t r bs
  | none => g

theorem Machine.Group.tsetRow?_trow (g : Group) {t r i q : Nat} (o : Option (List Byte)) (hr : r < 32) (hq : q < 32) :
    (g.tsetRow? t r o).trow i q = if i = t ∧ q = r then o.getD (g.trow i q) else g.trow i q := by
  cases o with
  | some bs => exact g.tsetRow_trow bs hr hq
  | none => exact (ite_self _).symm

/-- Rows of a tile written where a function of the row gives bytes. -/
def Machine.Group.tsetRows (g : Group) (t : Nat) (f : Nat → Option (List Byte)) : Group :=
  (List.range 32).foldl (fun g r => g.tsetRow? t r (f r)) g

section
variable (g : Group) (t : Nat) (f : Nat → Option (List Byte))

theorem Machine.Group.foldl_tsetRow?_trow (rs : List Nat) (hrs : ∀ r ∈ rs, r < 32) (i : Nat) {r : Nat} (hr : r < 32) :
    (rs.foldl (fun g r => g.tsetRow? t r (f r)) g).trow i r = if i = t ∧ r ∈ rs then (f r).getD (g.trow i r) else g.trow i r := by
  induction rs generalizing g with
  | nil => simp
  | cons a rs ih =>
    obtain ⟨ha, hrs⟩ := List.forall_mem_cons.1 hrs
    rw [List.foldl_cons, ih _ hrs, Group.tsetRow?_trow _ _ ha hr]
    by_cases hra : r = a
    · subst hra
      by_cases hi : i = t <;> cases f r <;> simp [hi]
    · simp [hra]

/-- A row that the function gives bytes holds them; every other row is as it was. -/
theorem Machine.Group.tsetRows_trow (i : Nat) {r : Nat} (hr : r < 32) :
    (g.tsetRows t f).trow i r = if i = t then (f r).getD (g.trow i r) else g.trow i r := by
  rw [Group.tsetRows, Group.foldl_tsetRow?_trow _ _ _ _ (fun r h => List.mem_range.1 h) _ hr]
  exact if_congr (and_iff_left (List.mem_range.2 hr)) rfl rfl

theorem Machine.Group.tsetRows_rest : { g.tsetRows t f with tiles := g.tiles } = g := by
  unfold Group.tsetRows
  induction List.range 32 generalizing g with
  | nil => rfl
  | cons r rs ih =>
    rw [List.foldl_cons]
    cases f r with
    | some bs => exact (congrArg (fun h : Group => { h with tiles := g.tiles }) (ih (g.tsetRow t r bs)) :)
    | none => exact ih g

theorem Machine.Group.tset_eq_tsetRows (bs : List Byte) : g.tset t bs = g.tsetRows t fun r => some ((bs.drop (32 * r)).take 32) := rfl

end

theorem flatMap_slices {α : Type} (l : List α) (k n : Nat) : ((List.range n).flatMap fun r => (l.drop (k * r)).take k) = l.take (k * n) := by
  induction n with
  | zero => simp
  | succ n ih => rw [List.range_succ, List.flatMap_append, ih, List.flatMap_singleton, Nat.mul_succ, List.take_add]

/-- A tile written with its 1,024 bytes holds them. -/
theorem Machine.Group.tset_tile (g : Group) (t : Nat) {bs : List Byte} (h : bs.length = 1024) : (g.tset t bs).tile t = bs := by
  have hrow : ∀ r ∈ List.range 32, (g.tset t bs).trow t r = (bs.drop (32 * r)).take 32 := fun r hr => by
    rw [Group.tset_eq_tsetRows, Group.tsetRows_trow _ _ _ _ (List.mem_range.1 hr), if_pos rfl]; rfl
  rw [Group.tile, List.flatMap_congr hrow, flatMap_slices, List.take_of_length_le h.le]

/-! ### An instruction that writes a tile -/

/-- An instruction of the issuing group that changes nothing but the group, and then moves on. -/
theorem OnlyGroup.of_movedOn {s t : State} {f : Group → Group} {pc : Nat → Dword} (h : MovedOn (s.modG f) t pc) : OnlyGroup s t :=
  ⟨(congrArg (fun u : State => { u with groups := s.groups }) h.rest :),
    fun k hk => (h.others k hk).trans (State.setG_grp_other _ _ _ _ hk), h.slots⟩

section
variable {s t : State} {F : Group → Group} {pc : Nat → Dword} (h : MovedOn (s.modG F) t pc)
include h

theorem MovedOn.own_modG :
    { t.grp s.cur.gid with fibres := (F s.g).fibres, ages := (F s.g).ages, readySince := (F s.g).readySince } = F s.g := by
  have hg : (s.modG F).g = F s.g := State.setG_grp_same _ _ _
  have hown := h.own
  rw [hg] at hown
  exact hown

/-- Rows of a tile are written: nothing but the issuing group differs, no memory does, its V registers are as they were, and its tiles hold what was
written. -/
theorem MovedOn.of_tsetRows {k : Nat} {f : Nat → Option (List Byte)} (hF : F s.g = s.g.tsetRows k f) :
    OnlyGroup s t ∧ MemoryKept s t ∧ (t.grp s.cur.gid).v = s.g.v ∧ (t.grp s.cur.gid).tiles = (s.g.tsetRows k f).tiles := by
  have hown := h.own_modG
  rw [hF] at hown
  have honly : OnlyGroup s t := .of_movedOn h
  exact ⟨honly, .of_groups honly.rest, (congrArg Group.v hown).trans (congrArg Group.v (s.g.tsetRows_rest k f) :), (congrArg Group.tiles hown :)⟩

end

theorem Machine.Group.trow_of_tiles {g h : Group} (e : g.tiles = h.tiles) (i r : Nat) : g.trow i r = h.trow i r := by rw [Group.trow, e]; rfl

theorem Machine.Group.tile_of_tiles {g h : Group} (e : g.tiles = h.tiles) (i : Nat) : g.tile i = h.tile i :=
  List.flatMap_congr fun r _ => Group.trow_of_tiles e i r

section
variable {s : State} {e : Bool}

/-- The eight registers of a lane, as the bytes of a tile row (08 R153). -/
def laneRow (s : State) (a : Reg) (l : Nat) : List Byte := (List.range 8).flatMap fun w => leBytes 4 (s.g.vval l (s.g.phys l a + w)).toNat

/-- TMOV.VT writes each row that has a source lane (08 R153). -/
theorem tmovVt_next {b : Fld3} {a : Reg} (hr : Ready s avHome [{ cls := 0, field := a.toNat, n := 8 }, tref b])
    (hclean : ∀ r ∈ s.tileRows, ∀ w, w < 8 → (s.g.vlane r.2 (s.g.phys r.2 a + w)).pois = false) :
    exec (.tmovVt b a e) s = .next ((s.modG fun g => g.tsetRows b.toNat fun r => (s.rowLane r).map (laneRow s a)).retire e) := by
  have hpairs : s.poisonPairs (s.tileRows.flatMap fun r => (List.range 8).map fun w => (s.g.phys r.2 a + w, r.2)) = .ok () :=
    State.poisonPairs_ok fun q hq => by
      obtain ⟨r, hr, hq⟩ := List.mem_flatMap.1 hq
      obtain ⟨w, hw, rfl⟩ := List.mem_map.1 hq
      exact hclean r hr w (List.mem_range.1 hw)
  have hrows (g : Group) : (s.tileRows.foldl (fun g r => g.tsetRow b.toNat r.1 (laneRow s a r.2)) g) =
      g.tsetRows b.toNat fun r => (s.rowLane r).map (laneRow s a) := by
    rw [State.tileRows, List.foldl_filterMap]
    refine congrArg (fun f => List.foldl f g (List.range 32)) (funext₂ fun g r => ?_)
    cases h : s.rowLane r <;> simp only [h, Option.map_some, Option.map_none, Group.tsetRow?]
  show execTmovVt b a e s = _
  have hchecks : firstErr [s.checkRegs avHome [{ cls := 0, field := a.toNat, n := 8 }, tref b],
      s.checkPending [{ cls := 0, field := a.toNat, n := 8 }, tref b],
      s.poisonPairs (s.tileRows.flatMap fun r => (List.range 8).map fun w => (s.g.phys r.2 a + w, r.2))] = .ok () := by
    rw [hr.checkRegs, hr.checkPending, hpairs]; rfl
  simp only [execTmovVt, State.runChecks, hchecks]
  exact congrArg (fun f => Host.Outcome.next ((s.modG f).retire e)) (funext hrows)

theorem transpose_length (k : TxpSize) (t : List Byte) : (transpose k t).length = 1024 := by simp [transpose]

/-- A byte of a transposed tile: within its block, row and element change places (08 R153). -/
theorem transpose_getD (k : TxpSize) (t : List Byte) {x : Nat} (hx : x < 1024) :
    let n := txpBytes k
    let m := 32 / n
    (transpose k t).getD x 0 = t.getD (32 * (x / 32 / m * m + x % 32 / n) + n * (x / 32 % m) + x % n) 0 := by
  simp only [transpose, List.getD_eq_getElem?_getD, List.getElem?_map, List.getElem?_range hx, Option.map_some, Option.getD_some]

end

/-- Settles O23: TMOV.TV writes V registers lane by lane; the others write rows of one tile, and nothing else. -/
theorem tileMoves : Obligations.TileMoves := by
  unfold Obligations.TileMoves
  intro s e hh
  refine ⟨fun b a hr => ?_, fun b a hr hclean => ?_, fun k c b hr => ?_, fun b hr => ?_⟩
  · exact vecOp_done (rs := [tref b]) hr hh (fun l _ => by simp) e
  · have h := (s.modG fun g => g.tsetRows b.toNat fun r => (s.rowLane r).map (laneRow s a)).retire_movedOn e
    obtain ⟨honly, hmem, hv, htiles⟩ := h.of_tsetRows rfl
    refine ⟨_, tmovVt_next hr hclean, honly, hmem, hv, fun i r hr => ?_⟩
    rw [Group.trow_of_tiles htiles, Group.tsetRows_trow _ _ _ _ hr]
    cases s.rowLane r with
    | some l => rfl
    | none => exact ite_self _
  · have h := (s.modG fun g => g.tset c.toNat (transpose k (g.tile b.toNat))).retire_movedOn e
    obtain ⟨honly, hmem, hv, htiles⟩ := h.of_tsetRows (s.g.tset_eq_tsetRows _ _)
    refine ⟨_, hr.runOk e _, honly, hmem, hv, fun x hx => ?_, fun j r hj hr => ?_⟩
    · rw [Group.tile_of_tiles htiles, ← Group.tset_eq_tsetRows, Group.tset_tile _ _ (transpose_length _ _), transpose_getD _ _ hx]
    · rw [Group.trow_of_tiles htiles, Group.tsetRows_trow _ _ _ _ hr, if_neg hj]
  · have h := (s.modG fun g => g.tset b.toNat (List.replicate 1024 0)).retire_movedOn e
    obtain ⟨honly, hmem, hv, htiles⟩ := h.of_tsetRows (s.g.tset_eq_tsetRows _ _)
    refine ⟨_, hr.runOk e _, honly, hmem, hv, fun j r hr => ?_⟩
    have hzero : ((List.replicate 1024 (0 : Byte)).drop (32 * r)).take 32 = List.replicate 32 0 := by
      rw [List.drop_replicate, List.take_replicate, Nat.min_eq_left (by omega)]
    rw [Group.trow_of_tiles htiles, Group.tsetRows_trow _ _ _ _ hr, hzero]
    rfl

end Sys2Proof
end

section
/-! Tile transfers (08 R152): the obligation O24. -/
namespace Sys2Proof
open Machine

/-! ### A full slice of an L2 -/

/-- A die's L2 whose slice is full of one home line, of which it gives up that line for another (01 R15; 09 R173). -/
theorem Machine.State.l2Hold_full {s : State} {die line v : Nat} (hd : (s.die die).l2 = List.replicate sliceLines v) (hv : line ≠ v)
    (hs : l2Slice v = l2Slice line) (hh : lineDie v = die) :
    s.l2Hold die line =
      ((({ s with fresh := s.fresh + 1 } : State).setD die fun k => { k with l2 := k.l2.filter (· != v) }).l2Back v).setD die
        fun k => { k with l2 := k.l2 ++ [line] } := by
  have hc : (List.replicate sliceLines v).contains line = false := by
    rw [List.contains_eq_mem]
    exact decide_eq_false fun h => hv (List.eq_of_mem_replicate h)
  have hm : ((List.replicate sliceLines v).filter fun l => l2Slice l == l2Slice line) = List.replicate sliceLines v := by
    rw [List.filter_replicate, if_pos (by rw [hs, beq_self_eq_true])]
  have hp : (s.pick sliceLines).1 < sliceLines := Nat.mod_lt _ (by decide)
  have hvict : ((List.replicate sliceLines v).drop (s.pick sliceLines).1).headD 0 = v := by
    rw [List.drop_replicate, List.headD_eq_head?_getD, List.head?_replicate, if_neg (by omega)]; rfl
  unfold State.l2Hold
  simp only [hd, hc, hm, List.length_replicate, Nat.lt_irrefl, if_false, Bool.false_eq_true, hvict]
  rw [State.l2Evict]
  simp only [hh, if_true]
  rfl

/-- A read within one line at its home die. -/
theorem Machine.State.l2Read_line {s : State} {die pol pa n line : Nat} (hp : ¬ (2 ≤ pol ∨ n = 0))
    (hl : ((List.range ((pa + n - 1) / 256 + 1 - pa / 256)).map (· + pa / 256)) = [line]) (hh : lineDie line = die) :
    s.l2Read die pol pa n = s.l2Hold die line := by
  rw [State.l2Read, if_neg hp, hl]
  exact if_pos hh

/-- The return of a tile load of which no row is another module's (08 R152). -/
def Machine.State.tileReturn (s : State) (t : Fld3) (rs : List LaneRet) : Return :=
  { id := s.nextId, kind := .tile, ctr := some .tl, regs := [{ cls := 2, idx := t.toNat }], lanes := rs, issue := s.cur }

/-- A tile load whose rows are read now begins their return (08 R152). -/
theorem Machine.State.beginTile_near {s w : State} {t : Fld3} {xs : List LaneAcc} {e : Bool} {rs : List LaneRet} (hqueue : s.g.queuesOps = false)
    (hreach : (xs.find? fun x => !s.reaches s.cur.gid x.tgt false) = none) (hrows : s.readRows t.toNat xs s.tileRows = .ok (rs, w))
    (hrace : w.raceCheck xs false = .ok w) (hfar : (w.tileRows.filter fun r => (rowAcc xs r.2).tgt.isRemote) = []) :
    s.beginTile t xs e = .ok ((({ w with nextId := w.nextId + 1 } : State).modG fun g => g.begin (w.tileReturn t rs)).retire e) := by
  simp only [State.beginTile, hqueue, hreach, hrows, hrace, hfar, Bool.false_eq_true, if_false, State.newId]
  rfl

/-- TLOAD of global memory whose checks pass begins its transfer (08 R152). -/
theorem tload_global_next {s u w : State} {i r : Reg} {p : BitVec 6} {t : Fld3} {e : Bool} {xs : List LaneAcc}
    (hr : Ready s avHome [vdst r (tileAddrRegs false (s.poolIdx p)), tref t]) (hpois : s.rowPoison r (tileAddrRegs false (s.poolIdx p)) = .ok ())
    (htl : s.g.tl < 63) (hacc : s.rowAccs false (s.poolIdx p) (s.immM i * 32) r false = .ok xs) (hrace : s.raceCheck xs false = .ok w)
    (hbegin : (s.tlbNote xs).beginTile t xs e = .ok u) : exec (.tload true i p r t e) s = .next u := by
  have hctr : s.checkCtr .tl = .ok () := if_pos htl
  refine hr.runEnd ?_
  simp only [Bool.not_true, hpois, hctr, hacc, hrace, hbegin, firstErr, Bool.false_eq_true, if_false]

/-! ### A TLB entry of the reserved policy -/

/-- A core's TLB entry and its die's: page 0x10000 at policy 1, page 0 at policy 3, which no walk lets in (16 R314, R317). -/
def reservedEntries : List TlbEntry :=
  [{ ctx := 0, base := 0x10000, size := 65536, pte := 0x10813 }, { ctx := 0, base := 0, size := 65536, pte := 0x1813 }]

/-- A group of two fibres whose V pairs 1 name those pages; byte 0 of device memory is dirty in its home's L2, whose slice is full of that line. -/
def reservedPolicy : State :=
  { State.reset.placeWord 0 with
    cur := { gid := 1, mask := 3, pc := placePc, npc := placePc + 4 }
    groups := [(1, { placeGroup .core placePc with
      fibres := [(0, { life := .live, pc := placePc }), (1, { life := .live, pc := placePc })]
      v := [(1, { val := 0x10800 }), (2, { val := 0xFFFFE000 }), (257, { val := 0 }), (258, { val := 0xFFFFE000 })] })]
    cores := [(0, { tlb := reservedEntries })]
    dies := [(0, { tlb := reservedEntries, l2 := List.replicate sliceLines 0 })]
    l2 := [(0, 1)]
    mem := [] }

/-- The places of its two rows. -/
def reservedAccs : List LaneAcc :=
  [{ lane := 0, va := 0xFFFFE00000010800, tgt := .dev 0x10800 1, pte := 0x10813 }, { lane := 1, va := 0xFFFFE00000000000, tgt := .dev 0 3, pte := 0x1813 }]

/-- The state after its first row is read: the L2 has given up line 0 to memory. -/
def reservedRead : State :=
  ((({ reservedPolicy with fresh := reservedPolicy.fresh + 1 } : State).setD 0 fun k => { k with l2 := k.l2.filter (· != 0) }).l2Back 0).setD 0
    fun k => { k with l2 := k.l2 ++ [264] }

theorem reservedPolicy_l2Read : reservedPolicy.l2Read 0 1 0x10800 32 = reservedRead :=
  (State.l2Read_line (by decide) (by decide) (by decide)).trans (State.l2Hold_full rfl (by decide) (by decide) (by decide))

theorem reservedPolicy_row0 : reservedPolicy.readAt 1 (.dev 0x10800 1) 32 0xFFFFE00000010800 = (List.replicate 32 0, false, reservedRead) := by
  have h : reservedPolicy.readAt 1 (.dev 0x10800 1) 32 0xFFFFE00000010800 =
    (let u := reservedPolicy.l2Read 0 1 0x10800 32
     (overlay [] (200, 0x10800) (u.readDev 0 1 0x10800 32), u.badAt 1 [] (.dev 0x10800 1) 32, u)) := rfl
  rw [h, reservedPolicy_l2Read]
  rfl

theorem reservedRead_row1 : reservedRead.readAt 1 (.dev 0 3) 32 0xFFFFE00000000000 = (1 :: List.replicate 31 0, false, reservedRead) := rfl

theorem reservedPolicy_row1 : reservedPolicy.readAt 1 (.dev 0 3) 32 0xFFFFE00000000000 = (List.replicate 32 0, false, reservedPolicy) := rfl

theorem reservedPolicy_tileRows : reservedPolicy.tileRows = [(0, 0), (1, 1)] := by decide

theorem reservedPolicy_rowAccs : reservedPolicy.rowAccs false (reservedPolicy.poolIdx 0) (reservedPolicy.immM 0 * 32) 1 false = .ok reservedAccs := rfl

theorem reservedPolicy_tlbNote : reservedPolicy.tlbNote reservedAccs = reservedPolicy := rfl

/-- Its rows as the load reads them, the second after the L2 has given up its line. -/
def reservedLanes : List LaneRet :=
  [{ lane := 0, ready := true, ws := [.tile 7 0 (List.replicate 32 0)], addr := 0xFFFFE00000010800 },
   { lane := 1, ready := true, ws := [.tile 7 1 (1 :: List.replicate 31 0)], addr := 0xFFFFE00000000000 }]

theorem reservedPolicy_readRows : reservedPolicy.readRows 7 reservedAccs reservedPolicy.tileRows = .ok (reservedLanes, reservedRead) := by
  have h0 : rowAcc reservedAccs 0 = { lane := 0, va := 0xFFFFE00000010800, tgt := .dev 0x10800 1, pte := 0x10813 } := rfl
  have h1 : rowAcc reservedAccs 1 = { lane := 1, va := 0xFFFFE00000000000, tgt := .dev 0 3, pte := 0x1813 } := rfl
  have hg : reservedPolicy.cur.gid = 1 := rfl
  have hg' : reservedRead.cur.gid = 1 := rfl
  rw [reservedPolicy_tileRows]
  simp only [State.readRows, h0, h1, hg, hg', Target.isRemote, reservedPolicy_row0, reservedRead_row1, Bool.false_eq_true, if_false]
  rfl

theorem reservedPolicy_ready : Ready reservedPolicy avHome [vdst 1 (tileAddrRegs false (reservedPolicy.poolIdx 0)), tref 7] :=
  ⟨⟨by decide, by decide⟩, by decide, by decide, by decide⟩

theorem reservedPolicy_canonical : MemoryCanonical reservedPolicy := ⟨rfl, rfl, rfl, rfl, rfl, rfl, rfl, rfl⟩

/-- The load's return begun, and its batch at the next instruction. -/
def reservedLoaded : State :=
  (({ reservedRead with nextId := reservedRead.nextId + 1 } : State).modG fun g => g.begin (reservedRead.tileReturn 7 reservedLanes)).retire false

theorem reservedPolicy_beginTile : reservedPolicy.beginTile 7 reservedAccs false = .ok reservedLoaded :=
  State.beginTile_near rfl rfl reservedPolicy_readRows rfl rfl

theorem reservedPolicy_exec : exec (.tload true 0 0 1 7 false) reservedPolicy = .next reservedLoaded :=
  tload_global_next (w := reservedPolicy) reservedPolicy_ready rfl (by decide) reservedPolicy_rowAccs rfl
    (reservedPolicy_tlbNote ▸ reservedPolicy_beginTile)

/-- Any return that the load has begun is the one whose second row was read late. -/
theorem reservedLoaded_begun {q : Return} (h : Begun reservedPolicy reservedLoaded .tl q []) : q = reservedRead.tileReturn 7 reservedLanes := by
  have hret : Begun reservedRead reservedLoaded .tl (reservedRead.tileReturn 7 reservedLanes) [] :=
    .of_movedOn rfl (State.retire_movedOn _ false)
  have hone : ([] : List Return) ++ [q] = [] ++ [reservedRead.tileReturn 7 reservedLanes] := h.returns.symm.trans hret.returns
  exact List.singleton_inj.1 hone

/-- Both places are home ones that can be reached, and hold no poison. -/
theorem reservedPolicy_reaches : ∀ x ∈ reservedAccs, x.tgt.isRemote = false ∧ reservedPolicy.reaches reservedPolicy.cur.gid x.tgt false = true ∧
    (reservedPolicy.readAt reservedPolicy.cur.gid x.tgt 32 x.va).2.1 = false :=
  List.forall_mem_cons.2 ⟨⟨rfl, rfl, congrArg (fun x => x.2.1) reservedPolicy_row0⟩,
    List.forall_mem_singleton.2 ⟨rfl, rfl, congrArg (fun x => x.2.1) reservedPolicy_row1⟩⟩

/-- Refutes O24: a TLB may hold an entry of the reserved policy 3 in a state that nothing else of the statement excludes (16 R317 would). A row at such
an entry is read at the stack itself; the row before it makes the L2 give up that line's dirty byte to the stack, so the second row's bytes are not
those that the statement reads in the state before. -/
theorem not_tileTransfersBegin : ¬ Obligations.TileTransfersBegin := by
  unfold Obligations.TileTransfersBegin
  intro h
  obtain ⟨-, -, hglobal⟩ := h reservedPolicy 0 0 1 7 false reservedAccs (by decide) rfl
  obtain ⟨hload, -⟩ := hglobal ⟨reservedPolicy_ready, by decide⟩ rfl
  obtain ⟨u, q, hex, hbegun, -, -, -, hrows⟩ :=
    hload reservedPolicy_rowAccs reservedPolicy_canonical (fun _ => by decide) reservedPolicy_reaches
  obtain rfl : reservedLoaded = u := Host.Outcome.next.inj (reservedPolicy_exec.symm.trans hex)
  obtain rfl := reservedLoaded_begun hbegun
  obtain ⟨y, hy, hlane, hws⟩ := hrows (1, 1) (by rw [reservedPolicy_tileRows]; decide)
  have hread : y.ws = [.tile 7 1 (List.replicate 32 0)] := hws.trans (congrArg (fun x : List Byte × Bool × State => [RegWrite.tile 7 1 x.1]) reservedPolicy_row1)
  have hheld : ∀ y ∈ reservedLanes, y.lane = 1 → y.ws ≠ [.tile 7 1 (List.replicate 32 0)] := by decide
  exact hheld y hy hlane hread

end Sys2Proof
end
